-- ==== Sys2Proof/Word.lean ====
section
/-! DEFINITION. The word types of the Etrum S768 and their plainest arithmetic (00_scope R4, R7). -/

namespace Sys2Proof

/-- One byte of memory (00_scope R5). -/
abbrev Byte := BitVec 8
/-- A 32-bit word: a vector register, an instruction word (R17, R99). -/
abbrev W32 := BitVec 32
/-- A 64-bit word: a group register, a CSR, a descriptor word (R99). -/
abbrev W64 := BitVec 64
/-- A 56-bit device virtual address, as a program counter holds it (R17, R53). -/
abbrev VA := BitVec 56

/-- Bit `i` of a number. -/
def natBit (w i : Nat) : Bool := w / 2 ^ i % 2 == 1

/-- The `n` bits of a number from bit `lo` up. -/
def natField (w lo n : Nat) : Nat := w / 2 ^ lo % 2 ^ n

/-- A Bool as the number 0 or 1. -/
def bitNat (b : Bool) : Nat := if b then 1 else 0

/-- Bits `[lo + n - 1 : lo]` of a 64-bit word, as a number. -/
def W64.field (w : W64) (lo n : Nat) : Nat := natField w.toNat lo n

/-- Bit `i` of a 64-bit word. -/
def W64.bit (w : W64) (i : Nat) : Bool := natBit w.toNat i

/-- A number written into the `lo`-based field of a word under construction. -/
def fieldAt (v lo : Nat) : Nat := v * 2 ^ lo

/-- Sign extension of an `n`-bit number to an integer. -/
def signedOf (n v : Nat) : Int := if v < 2 ^ (n - 1) then (v : Int) else (v : Int) - 2 ^ n

/-- The low 64 bits of an integer. -/
def w64OfInt (x : Int) : W64 := BitVec.ofInt 64 x

/-- The low 32 bits of an integer. -/
def w32OfInt (x : Int) : W32 := BitVec.ofInt 32 x

end Sys2Proof
end

