-- ==== Sys2Proof/Config.lean ====
section
/-! DEFINITION. What one implementation fixes, and the free values: values that the spec leaves open. An opaque
constant has no body, so no proof can see what it is. Each is applied to a counter or to operands. -/

namespace Sys2Proof.Config

/-- Identity data of the module (00_scope R1). -/
def familyCode : BitVec 16 := 0x0E7A
/-- Part code (R1). -/
def partCode : BitVec 16 := 0x0768
/-- Stepping code (R1). -/
def steppingCode : BitVec 8 := 0xB1
/-- Firmware major version (R1). -/
def firmwareMajor : Nat := 3

/-- Cores, slices (01_machine R9, R10). -/
def nCores : Nat := 768
/-- Clusters (R9). -/
def nClusters : Nat := 96
/-- Device memory in bytes: 512 GiB (04_memory R55). -/
def deviceBytes : Nat := 2 ^ 39
/-- Bytes of one slice: 2.5 MiB (05_slices R68). -/
def sliceBytes : Nat := 0x280000

/-- FREE VALUE (log entry 2): how many cycles of a clock domain pass at step number `n`.
Domain 0 is the arithmetic clock, 1 the command processor's, 2 the port clock (18_platform R306). -/
opaque elapsed : (domain n : Nat) → Nat

/-- FREE VALUE (log entry 2): what a core's cycle counter reads at time 0 (15_faults R263). -/
opaque cycOffset : (core : Nat) → BitVec 64

/-- FREE VALUE (log entry 9): how far a promise lies beyond its lower bound (06_copy R91). -/
opaque promiseSlack : Nat → Nat

/-- FREE VALUE (log entry 10): the device's choice of a place in the stow pool (05_slices R80), as an index
into the fitting places. -/
opaque stowChoice : Nat → Nat

/-- FREE VALUE (log entry 15): a byte of a combine buffer after a foreign write. -/
opaque freeByte : Nat → BitVec 8

/-- FREE VALUE (log entries 14, 28): a 64-bit word that the spec leaves open: what stands at a physical address that does not
exist, and numbers that the device chooses. -/
opaque freeWord : Nat → BitVec 64

/-- FREE VALUE (log entry 97): flits that a port's buffer for a virtual channel holds (11_fabric R199). -/
opaque vcBuffer : (port vc : Nat) → Nat

/-- FREE VALUE (log entry 97): the GCM tag of a flit of a port: its counter, its header and its payload (11_fabric R201). -/
opaque gcmTag : (port counter : Nat) → (header : BitVec 64) → (payload : List (BitVec 8)) → BitVec 64

/-- FREE VALUE (log entry 99): a number that an SPDM answer carries: a measurement of some facts of the module (17_command R301). -/
opaque measurement : (index : Nat) → (facts : List Nat) → Nat

end Sys2Proof.Config
end

