-- ==== Sys2Proof/Machine/Map.lean ====
section
/-! DEFINITION. Plain-data maps from numbers: association lists in rising key order, read with a default. -/

namespace Sys2Proof.Machine

/-- A map from numbers, as a list of pairs. -/
abbrev FMap (α : Type) := List (Nat × α)

/-- The value at key `k`, or `d` where none is listed. -/
def FMap.get {α : Type} (m : FMap α) (k : Nat) (d : α) : α :=
  match m with
  | [] => d
  | (k', v) :: r => if k = k' then v else FMap.get r k d

/-- The value at key `k`, if one is listed. -/
def FMap.find {α : Type} (m : FMap α) (k : Nat) : Option α :=
  match m with
  | [] => none
  | (k', v) :: r => if k = k' then some v else FMap.find r k

/-- Writes `v` at key `k`: replaces the listed value, or inserts the pair in key order. -/
def FMap.set {α : Type} (m : FMap α) (k : Nat) (v : α) : FMap α :=
  match m with
  | [] => [(k, v)]
  | (k', v') :: r =>
    if k = k' then (k, v) :: r
    else if k < k' then (k, v) :: (k', v') :: r
    else (k', v') :: FMap.set r k v

/-- Removes key `k`. -/
def FMap.erase {α : Type} (m : FMap α) (k : Nat) : FMap α := m.filter (fun p => p.1 != k)

/-- Rewrites every listed value. -/
def FMap.mapKV {α β : Type} (m : FMap α) (f : Nat → α → β) : FMap β := m.map (fun p => (p.1, f p.1 p.2))

/-- The keys, rising. -/
def FMap.keys {α : Type} (m : FMap α) : List Nat := m.map (·.1)

/-- The keys whose value passes a test, rising. -/
def FMap.keysWhere {α : Type} (m : FMap α) (p : Nat → α → Bool) : List Nat :=
  match m with
  | [] => []
  | (k, v) :: r => if p k v then k :: FMap.keysWhere r p else FMap.keysWhere r p

/-- A key above every listed one. -/
def FMap.fresh {α : Type} (m : FMap α) : Nat := m.foldl (fun n p => max n (p.1 + 1)) 0

/-- Inserts `x` before the first element it may stand in front of. -/
def insertBy {α : Type} (le : α → α → Bool) (x : α) (l : List α) : List α :=
  match l with
  | [] => [x]
  | y :: r => if le x y then x :: y :: r else y :: insertBy le x r

/-- The list in the order of `le`; elements that stand level keep their order. -/
def sortBy {α : Type} (le : α → α → Bool) (l : List α) : List α := l.foldr (insertBy le) []

end Sys2Proof.Machine
end

