-- ==== Sys2Proof/Syntax.lean ====
section
/-! DEFINITION. The instructions of the Etrum S768: the words of the opcode table, the words of the maps R25 and R29
that the table leaves out (type `Unlisted`), and the table's events. -/

namespace Sys2Proof

/-! ## Field types (02_encoding R18 to R28) -/

/-- A 6-bit register field: a register of the operand's class, or an operand queue port (R21). -/
inductive Opnd where
  | reg (n : Fin 56)
  | port (q : Fin 8)
deriving DecidableEq, Repr

/-- Integer comparison codes (R26). -/
inductive IntCond where
  | eq | ne | lt | le | gt | ge
deriving DecidableEq, Repr

/-- Floating comparison codes (R26). -/
inductive FltCond where
  | eq | ne | lt | le | gt | ge | un | ord
deriving DecidableEq, Repr

/-- Group comparison codes (R29). -/
inductive GrpCond where
  | eq | ne | lt | le | gt | ge | ltu | leu | gtu | geu
deriving DecidableEq, Repr

/-- Scopes (R20). -/
inductive Scope where
  | group | team | device | domain
deriving DecidableEq, Repr

/-- Strength codes (R20). `plain` is acquire-release on an atomic. -/
inductive Strength where
  | plain | relaxed | acquire | release
deriving DecidableEq, Repr

/-- Rounding field of a conversion (R28). -/
inductive CvtRound where
  | fpm | rn | rz | rp | rm
deriving DecidableEq, Repr

/-- VOTE modes (R26). -/
inductive VoteMode where
  | all | any | uni
deriving DecidableEq, Repr

/-- GRED operations (R26). -/
inductive RedOp where
  | iadd | imin | imax | umin | umax | fadd | fmin | fmax
deriving DecidableEq, Repr

/-- RATOM, RGATM and GATOM operations (R26). -/
inductive AtomOp where
  | add | smin | smax | umin | umax | and | or | xor | xch | cas | fadd
deriving DecidableEq, Repr

/-- Record sizes of a spawn record (13_execution R238). -/
inductive RecSize where
  | s16 | s32 | s64
deriving DecidableEq, Repr

/-! ## Operand structures, one per word shape -/

/-- LA binary and three-source words. -/
structure LaneBin where
  d : Opnd
  a : Opnd
  b : Opnd
  pg : Fin 8
  ng : Bool
  ea : Bool
  eb : Bool
deriving DecidableEq, Repr

/-- LA unary words. -/
structure LaneUn where
  d : Opnd
  a : Opnd
  pg : Fin 8
  ng : Bool
  ea : Bool
deriving DecidableEq, Repr

/-- ICMP, UCMP. -/
structure LaneICmp where
  pd : Fin 8
  cc : IntCond
  a : Opnd
  b : Opnd
  pg : Fin 8
  ng : Bool
  ea : Bool
  eb : Bool
deriving DecidableEq, Repr

/-- FCMP. -/
structure LaneFCmp where
  pd : Fin 8
  cc : FltCond
  a : Opnd
  b : Opnd
  pg : Fin 8
  ng : Bool
  ea : Bool
  eb : Bool
deriving DecidableEq, Repr

/-- IADDI, ANDI, and the shift immediates (imm below 32). -/
structure LaneImm where
  d : Opnd
  a : Opnd
  imm : BitVec 9
  pg : Fin 8
deriving DecidableEq, Repr

/-- LEA. -/
structure LaneLea where
  d : Opnd
  a : Opnd
  sh : Fin 8
  b : Opnd
  pg : Fin 8
deriving DecidableEq, Repr

/-- MOVI. -/
structure LaneMovi where
  d : Opnd
  imm : BitVec 15
  pg : Fin 8
deriving DecidableEq, Repr

/-- The conversions (R28). -/
structure LaneCvt where
  d : Opnd
  a : Opnd
  rnd : CvtRound
  sat : Bool
  fmt : Fin 4
  pg : Fin 8
  ng : Bool
  ea : Bool
deriving DecidableEq, Repr

/-- Shuffles and MATCH: `v` is the validity or all-equal predicate (R27). -/
structure LaneColl where
  d : Opnd
  a : Opnd
  b : Opnd
  v : Fin 8
  tg : Bool
  ea : Bool
deriving DecidableEq, Repr

/-- GRED. -/
structure LaneGred where
  d : Opnd
  a : Opnd
  b : Opnd
  op : RedOp
  tg : Bool
  ea : Bool
deriving DecidableEq, Repr

/-- VOTE. -/
structure LaneVote where
  pd : Fin 8
  mode : VoteMode
  ps : Fin 8
  b : Opnd
  tg : Bool
deriving DecidableEq, Repr

/-- BALLOT. -/
structure LaneBallot where
  d : Opnd
  ps : Fin 8
  b : Opnd
  tg : Bool
deriving DecidableEq, Repr

/-- BAR. -/
structure LaneBar where
  b : Opnd
  tg : Bool
deriving DecidableEq, Repr

/-- One register field and an LA guard: MKEMP, MKFUL, PMOV (pack), WAITE. -/
structure LaneOne where
  d : Opnd
  pg : Fin 8
  ng : Bool
deriving DecidableEq, Repr

/-- One source with its trap bit and an LA guard: PMOV (unpack), BRX. -/
structure LaneSrc where
  a : Opnd
  pg : Fin 8
  ng : Bool
  ea : Bool
deriving DecidableEq, Repr

/-- GETID. -/
structure LaneGetid where
  d : Opnd
  sel : BitVec 9
  pg : Fin 8
deriving DecidableEq, Repr

/-- Sized loads and stores (09_access R152). -/
structure LaneMem where
  d : Opnd
  a : Opnd
  off : BitVec 6
  sc : Scope
  st : Strength
  pg : Fin 4
deriving DecidableEq, Repr

/-- LDX, STX and the lane atomics (R153, R154). -/
structure LaneMemIdx where
  d : Opnd
  a : Opnd
  b : Opnd
  sc : Scope
  st : Strength
  pg : Fin 4
deriving DecidableEq, Repr

/-- PREF (R156). -/
structure LanePref where
  a : Opnd
  off : BitVec 6
  pg : Fin 4
deriving DecidableEq, Repr

/-- Remote loads and stores (11_fabric R205). -/
structure LaneRemote where
  d : Opnd
  a : Opnd
  off : BitVec 6
  st : Strength
  pg : Fin 4
deriving DecidableEq, Repr

/-- RATOM (R206). -/
structure LaneRatom where
  d : Opnd
  a : Opnd
  b : Opnd
  op : AtomOp
  st : Strength
deriving DecidableEq, Repr

/-- BR, CALL. -/
structure LaneBr where
  pg : Fin 8
  ng : Bool
  off : BitVec 20
deriving DecidableEq, Repr

/-- An LA guard alone: RET, YIELD, NOP. -/
structure LaneGuard where
  pg : Fin 8
  ng : Bool
deriving DecidableEq, Repr

/-- EXIT. -/
structure LaneExit where
  sc : Scope
  pg : Fin 4
deriving DecidableEq, Repr

/-- SPAWN (13_execution R240). -/
structure LaneSpawn where
  size : RecSize
  a : Opnd
  b : Opnd
  pg : Fin 8
  ng : Bool
  ea : Bool
deriving DecidableEq, Repr

/-- GA binary words. -/
structure GrpBin where
  d : Opnd
  a : Opnd
  b : Opnd
  cg : Fin 4
  ng : Bool
  ea : Bool
  eb : Bool
  w : Bool
deriving DecidableEq, Repr

/-- GA unary words, QPUT, QGET. -/
structure GrpUn where
  d : Opnd
  a : Opnd
  cg : Fin 4
  ng : Bool
  ea : Bool
  w : Bool
deriving DecidableEq, Repr

/-- GCMP. -/
structure GrpCmp where
  cd : Fin 4
  cc : GrpCond
  a : Opnd
  b : Opnd
  cg : Fin 4
  ng : Bool
  ea : Bool
  eb : Bool
  w : Bool
deriving DecidableEq, Repr

/-- GI words with a register and imm18. -/
structure GrpImm where
  d : Opnd
  imm : BitVec 18
deriving DecidableEq, Repr

/-- GBR, GCALL. -/
structure GrpBr where
  cg : Fin 4
  ng : Bool
  off : BitVec 20
deriving DecidableEq, Repr

/-- A GA guard alone: GRET, RTE, GNOP. -/
structure GrpGuard where
  cg : Fin 4
  ng : Bool
deriving DecidableEq, Repr

/-- QCLOSE. -/
structure GrpQclose where
  d : Opnd
  cg : Fin 4
  ng : Bool
deriving DecidableEq, Repr

/-- QSTAT. -/
structure GrpQstat where
  d : Opnd
  a : Opnd
  cg : Fin 4
  ng : Bool
deriving DecidableEq, Repr

/-- GLD32 to GST64 (09_access R157). -/
structure GrpMem where
  d : Opnd
  a : Opnd
  b : Opnd
  sc : Scope
  st : Strength
deriving DecidableEq, Repr

/-- GATOM (R158). -/
structure GrpAtom where
  d : Opnd
  a : Opnd
  b : Opnd
  op : AtomOp
  st : Strength
deriving DecidableEq, Repr

/-- AGEN, AGENX (07_registers R114): `n` is N - 1, `w` is log2 W. -/
structure GrpAgen where
  d : Opnd
  a : Opnd
  b : Opnd
  n : Fin 8
  w : Fin 8
deriving DecidableEq, Repr

/-- Two group sources: GPREF. -/
structure GrpTwo where
  a : Opnd
  b : Opnd
deriving DecidableEq, Repr

/-- CBINIT. -/
structure GrpCbinit where
  cb : Fin 16
  a : Opnd
deriving DecidableEq, Repr

/-- CBARV. -/
structure GrpCbarv where
  cb : Fin 16
  a : Opnd
  b : Opnd
  err : Bool
deriving DecidableEq, Repr

/-- CBWAIT. -/
structure GrpCbwait where
  cb : Fin 16
  a : Opnd
  b : Opnd
  ew : Bool
  te : Bool
deriving DecidableEq, Repr

/-- CBTEST. -/
structure GrpCbtest where
  c : Fin 4
  cb : Fin 16
  a : Opnd
  b : Opnd
  ew : Bool
deriving DecidableEq, Repr

/-- CPY, CPYS, CPYG, CPYX, CPYQ (06_copy R93). -/
structure GrpCpy where
  d : Opnd
  a : Opnd
  b : Opnd
  np : Bool
  cb : Fin 16
deriving DecidableEq, Repr

/-- RGLD, RGST, RMST (11_fabric R208). -/
structure GrpRemote where
  d : Opnd
  a : Opnd
  b : Opnd
  dp : Bool
  st : Strength
  n32 : Bool
deriving DecidableEq, Repr

/-- RGATM (R354). -/
structure GrpRgatm where
  d : Opnd
  a : Opnd
  b : Opnd
  dp : Bool
  op : AtomOp
  n32 : Bool
deriving DecidableEq, Repr

/-- Three group fields: BINSET.flush, BIND, SGNAME, CMBCFG. -/
structure GrpThree where
  d : Opnd
  a : Opnd
  b : Opnd
deriving DecidableEq, Repr

/-- Two group fields, a destination and a source. -/
structure GrpDA where
  d : Opnd
  a : Opnd
deriving DecidableEq, Repr

/-- SPAWNG with LOC. -/
structure GrpSpawnLoc where
  d : Opnd
  a : Opnd
  size : RecSize
deriving DecidableEq, Repr

/-- SPAWNG without LOC. -/
structure GrpSpawnRem where
  d : Opnd
  a : Opnd
  b : Opnd
  dp : Bool
  size : RecSize
deriving DecidableEq, Repr

/-- BINFL. -/
structure GrpBinfl where
  d : Opnd
  a : Opnd
  wt : Bool
deriving DecidableEq, Repr

/-- MLOOP, MLOOP4, MSTEP: `g4` is mod6[5] of MSTEP (10_table R181). -/
structure GrpLoop where
  acc : Fin 16
  t : Fin 8
  b : Opnd
  g4 : Bool
  pm : Bool
  cb : Fin 16
deriving DecidableEq, Repr

/-! ## Words of the opcode maps that the table has no row for (R330 to R398) -/

/-- The words of maps R25 and R29 whose entries are R330 to R398 and which opcode_table.json does not list. -/
inductive Unlisted where
  | imad (f : LaneBin)
  | dsenc (f : LaneUn)
  | dsmul (f : LaneBin)
  | kinit (k : BitVec 9) (pg : Fin 8)
  | kins (f : LaneBin)
  | kext (d a : Opnd) (idx : Bool) (e : Fin 16) (pg : Fin 8)
  | mxscl (f : LaneBin)
  | trap (code : BitVec 9) (pg : Fin 8)
  | bkpt (code : BitVec 9) (pg : Fin 8)
  | glea (f : GrpBin)
  | gbfx (f : GrpBin)
  | acq (a : Opnd) (sc : Scope)
  | rel (a : Opnd) (sc : Scope)
  | fence (sc : Scope)
  | bind (f : GrpThree)
  | unbind (f : GrpDA)
  | sgnew (d b : Opnd) (pin clu : Bool)
  | sgname (f : GrpThree)
  | sgatt (f : GrpDA) (nr w : Bool)
  | sgdet (a : Opnd)
  | sgdrop (f : GrpDA) (byName : Bool)
  | sgstow (f : GrpDA)
  | sgstat (f : GrpDA) (n : Fin 4)
  | cpyq (f : GrpCpy)
  | cpyw (a b : Opnd) (get : Bool) (cb : Fin 16)
  | cpyc (f : GrpDA) (all : Bool) (cb : Fin 16)
  | cpyst (d : Opnd) (wt : Bool) (cb : Fin 16)
  | tbld (t : Fin 8) (a b : Opnd)
  | tbld4 (t : Fin 8) (a b : Opnd)
  | tchk (c : Fin 4) (t : Fin 8)
  | tinv (t : Fin 8)
  | tspl (t : Fin 8) (a : Opnd)
  | tfil (t : Fin 8) (a : Opnd)
  | mloop (f : GrpLoop)
  | mloop4 (f : GrpLoop)
  | mstep (f : GrpLoop)
  | scacc (d s : Fin 16) (b : Opnd) (te : Bool)
  | azero (d : Fin 16) (e : Bool)
  | asto (d : Fin 16) (a b : Opnd) (te : Bool)
  | alda (d : Fin 16) (a b : Opnd)
  | acvt (d : Fin 16) (a b : Opnd) (fmt : Fin 4) (sat te : Bool)
  | mstat (d : Opnd) (sel : Fin 4) (wt : Bool)
  | wsel (a b : Opnd) (dp : Bool)
  | rrst (d a b : Opnd) (dp : Bool) (op : Fin 8) (size : Fin 4)
  | sigadd (d a b : Opnd) (dp loc : Bool)
  | sigwt (d a b : Opnd) (cond : IntCond) (te : Bool)
  | rwait (d a b : Opnd) (te : Bool)
  | rfence (d : Opnd) (team te : Bool)
  | rget (d a b : Opnd) (dp : Bool) (cb : Fin 16)
  | coord (d a : Opnd) (sel : Fin 8)
  | cmbcfg (f : GrpThree)
  | cmbopen (f : GrpThree) (strict : Bool)
  | cmbput (f : GrpThree) (rem : Bool)
  | cmbrel (f : GrpThree) (drop : Bool)
  | cmbstat (f : GrpThree) (slot : Bool) (n : Fin 8)
  | gentag (f : GrpThree) (rem : Bool) (op : Fin 4)
  | csrrd (d : Opnd) (csr : BitVec 12)
  | csrwr (d : Opnd) (csr : BitVec 12)
  | cycle (d : Opnd)
  | sleep (a : Opnd)
  | gtrap (code : BitVec 18)
  | rte (f : GrpGuard)
  | gnop (f : GrpGuard)
  | teamend (a : Opnd) (f : GrpGuard)
  | probe (f : GrpThree) (kind : Fin 4)
  | prio (f : GrpDA)
deriving DecidableEq, Repr

/-! ## What an event carries -/

/-- A request that arrives over the fabric, as its packet carries it (11_fabric R196, R198). -/
structure FabReq where
  /-- the port it arrives on -/
  port : Fin 16
  tag : BitVec 16
  gentag : BitVec 16
  grid : BitVec 16
  offset : BitVec 48
  key : BitVec 32
  /-- linearised index of the source device -/
  src : BitVec 12
  op : BitVec 4
  /-- size in bytes -/
  size : BitVec 8
  strength : BitVec 2
  /-- payload after the 24 request bytes, lowest address first -/
  data : List Byte
  /-- the flit fails its GCM tag, and so does its replay (R201) -/
  tagFails : Bool
  /-- KIND is bulk read or bulk write: a piece of a CPYW, which keeps no alignment (06_copy R360) -/
  bulk : Bool := false
deriving DecidableEq, Repr

/-- The place of a gathering: GRID, destination pattern, KEY, OFFSET (R194). -/
structure GathKey where
  grid : BitVec 16
  dest : BitVec 64
  key : BitVec 32
  offset : BitVec 48
deriving DecidableEq, Repr

/-- One contribution of a reducing store as it reaches the col node (R194). -/
structure GathMsg where
  at_ : GathKey
  /-- linearised index of the contributor -/
  src : Nat
  pattern : BitVec 64
  op : Fin 8
  size : Fin 4
  data : List Byte
deriving DecidableEq, Repr

/-- One sample of the sensors (18_platform R308), in the units of the table. -/
structure SensorReading where
  /-- junctions of the compute dies, four for each, in quarters of a degree -/
  dies : List Nat := []
  /-- the two junctions of the I/O die -/
  ioDie : List Nat := []
  /-- LPDDR5X, one for each channel, in degrees -/
  channels : List Nat := []
  /-- coolant inlet and outlet, in quarters of a degree -/
  inlet : Nat := 0
  outlet : Nat := 0
  /-- input power averaged over 10 ms, in watts -/
  power : Nat := 0
  /-- for each rail: millivolts, and current in steps of 10 mA -/
  rails : List (Nat × Nat) := []
deriving DecidableEq, Repr

/-- The memories of R66. -/
inductive MemKind where
  | lpddr | homeCache | l1 | slice | systemSram | tlb
deriving DecidableEq, Repr

/-- What a PLDM monitoring and control message asks (R310). -/
inductive PldmMsg where
  | readSensors
  | setPowerCap (watts : Nat)
  | readFaultLog
deriving DecidableEq, Repr

/-- The SPDM requests that the responder offers (17_command R301). -/
inductive SpdmReq where
  | getVersion | getCapabilities | negotiateAlgorithms | getDigests | getCertificate | challenge
  | getMeasurements | keyExchange | finish | keyUpdate | endSession
deriving DecidableEq, Repr

/-- The instructions: one constructor per row of the opcode table, and `unlisted` for the words of the maps R25 and
R29 that have no row (log entry 6). An event that names nothing but parts of the machine takes their numbers from the
field `on` of the state (log entry 7). -/
inductive Instr where
  /-- R124: Each guarded thread writes va + vb modulo 2^32 to vd. -/
  | iadd (f : LaneBin)
  /-- R124: Each guarded thread writes va - vb modulo 2^32 to vd. -/
  | isub (f : LaneBin)
  /-- R124: Each guarded thread writes the low 32 bits of the unsigned product to vd. -/
  | imul (f : LaneBin)
  /-- R124: Each guarded thread writes the high 32 bits of the signed product to vd. -/
  | imulhs (f : LaneBin)
  /-- R124: Each guarded thread writes the high 32 bits of the unsigned product to vd. -/
  | imulhu (f : LaneBin)
  /-- R124: Each guarded thread writes the signed minimum of va and vb. -/
  | imin (f : LaneBin)
  /-- R124: Each guarded thread writes the signed maximum of va and vb. -/
  | imax (f : LaneBin)
  /-- R124: Each guarded thread writes the unsigned minimum of va and vb. -/
  | umin (f : LaneBin)
  /-- R124: Each guarded thread writes the unsigned maximum of va and vb. -/
  | umax (f : LaneBin)
  /-- R124: Each guarded thread writes the absolute value of signed va modulo 2^32. -/
  | iabs (f : LaneUn)
  /-- R124: Each guarded thread writes va AND vb. -/
  | andv (f : LaneBin)
  /-- R124: Each guarded thread writes va OR vb. -/
  | orv (f : LaneBin)
  /-- R124: Each guarded thread writes va XOR vb. -/
  | xorv (f : LaneBin)
  /-- R124: Each guarded thread writes va AND NOT vb. -/
  | andn (f : LaneBin)
  /-- R125: Each guarded thread shifts va left by the full 32-bit amount in vb, giving 0 at 32 or more. -/
  | shl (f : LaneBin)
  /-- R125: Each guarded thread shifts va right logically by the amount in vb. -/
  | shr (f : LaneBin)
  /-- R125: Each guarded thread shifts va right arithmetically by the amount in vb. -/
  | sar (f : LaneBin)
  /-- R124: Each guarded thread writes the count of 1 bits in va. -/
  | popc (f : LaneUn)
  /-- R124: Each guarded thread writes the count of leading zero bits in va. -/
  | clz (f : LaneUn)
  /-- R124: Each guarded thread writes va with its bits reversed. -/
  | brev (f : LaneUn)
  /-- R126: Each guarded thread extracts the bit field described by vb from va, optionally sign-extended. -/
  | bfx (f : LaneBin)
  /-- R126: Each guarded thread inserts va into the bit field of vd described by vb. -/
  | bfi (f : LaneBin)
  /-- R127: Each guarded thread sets predicate pd to the signed comparison of va and vb. -/
  | icmp (f : LaneICmp)
  /-- R127: Each guarded thread sets predicate pd to the unsigned comparison of va and vb. -/
  | ucmp (f : LaneICmp)
  /-- R128: Every thread of the run writes va or vb to vd according to a predicate, optionally inverted. -/
  | sel (f : LaneBin)
  /-- R129: Each guarded thread adds the sign-extended 9-bit immediate to va. -/
  | iaddi (f : LaneImm)
  /-- R129: Each guarded thread ANDs va with the sign-extended 9-bit immediate. -/
  | andi (f : LaneImm)
  /-- R125: Each guarded thread shifts va left by an immediate amount 0 to 31. -/
  | shli (f : LaneImm)
  /-- R125: Each guarded thread shifts va right logically by an immediate amount 0 to 31. -/
  | shri (f : LaneImm)
  /-- R129: Each guarded thread writes va + (vb << sh) modulo 2^32. -/
  | lea (f : LaneLea)
  /-- R129: Each guarded thread writes the sign-extended 15-bit immediate to vd. -/
  | movi (f : LaneMovi)
  /-- R130: Each guarded thread writes the FP32 sum of va and vb rounded by fpm. -/
  | fadd (f : LaneBin)
  /-- R130: Each guarded thread writes the FP32 difference of va and vb rounded by fpm. -/
  | fsub (f : LaneBin)
  /-- R130: Each guarded thread writes the FP32 product of va and vb rounded by fpm. -/
  | fmul (f : LaneBin)
  /-- R130: Each guarded thread writes va × vb + vd with one rounding by fpm. -/
  | ffma (f : LaneBin)
  /-- R131: Each guarded thread writes the FP32 minimum, treating NaN as missing and -0 below +0. -/
  | fmin (f : LaneBin)
  /-- R131: Each guarded thread writes the FP32 maximum, treating NaN as missing and -0 below +0. -/
  | fmax (f : LaneBin)
  /-- R132: Each guarded thread sets predicate pd to the floating comparison of va and vb. -/
  | fcmp (f : LaneFCmp)
  /-- R133: Each guarded thread writes a one-hot class code of the FP32 value in va. -/
  | fcls (f : LaneUn)
  /-- R134: Each guarded thread writes the correctly rounded reciprocal of va. -/
  | frcp (f : LaneUn)
  /-- R134: Each guarded thread writes the correctly rounded reciprocal square root of va. -/
  | frsq (f : LaneUn)
  /-- R134: Each guarded thread writes the correctly rounded square root of va. -/
  | fsqrt (f : LaneUn)
  /-- R134: Each guarded thread writes the correctly rounded 2^va. -/
  | fexp2 (f : LaneUn)
  /-- R134: Each guarded thread writes the correctly rounded log2 of va. -/
  | flog2 (f : LaneUn)
  /-- R135: Each guarded thread adds two BF16 halves independently. -/
  | badd2 (f : LaneBin)
  /-- R135: Each guarded thread multiplies two BF16 halves independently. -/
  | bmul2 (f : LaneBin)
  /-- R135: Each guarded thread performs a fused multiply-add on two BF16 halves. -/
  | bfma2 (f : LaneBin)
  /-- R135: Each guarded thread takes the FMAX of each BF16 half. -/
  | bmax2 (f : LaneBin)
  /-- R135: Each guarded thread adds two FP16 halves independently. -/
  | hadd2 (f : LaneBin)
  /-- R135: Each guarded thread multiplies two FP16 halves independently. -/
  | hmul2 (f : LaneBin)
  /-- R135: Each guarded thread performs a fused multiply-add on two FP16 halves. -/
  | hfma2 (f : LaneBin)
  /-- R136: Each guarded thread converts a signed or unsigned 32-bit integer to FP32. -/
  | cvtif (f : LaneCvt)
  /-- R137: Each guarded thread rounds FP32 to a saturated signed or unsigned 32-bit integer. -/
  | cvtfi (f : LaneCvt)
  /-- R136: Each guarded thread narrows FP32 to BF16. -/
  | cvtfb (f : LaneCvt)
  /-- R136: Each guarded thread widens BF16 exactly to FP32. -/
  | cvtbf (f : LaneCvt)
  /-- R136: Each guarded thread narrows FP32 to FP16. -/
  | cvtfh (f : LaneCvt)
  /-- R136: Each guarded thread widens FP16 exactly to FP32. -/
  | cvthf (f : LaneCvt)
  /-- R136: Each guarded thread narrows FP32 to E4M3 or E5M2. -/
  | cvtf8 (f : LaneCvt)
  /-- R136: Each guarded thread widens E4M3 or E5M2 exactly to FP32. -/
  | cvt8f (f : LaneCvt)
  /-- R136: Each guarded thread narrows FP32 to E2M3, E3M2 or E2M1. -/
  | cvtfn (f : LaneCvt)
  /-- R136: Each guarded thread widens E2M3, E3M2 or E2M1 exactly to FP32. -/
  | cvtnf (f : LaneCvt)
  /-- R233: Collective shuffle taking each participant's value from an indexed source thread. -/
  | shfi (f : LaneColl)
  /-- R233: Collective shuffle taking each participant's value from thread t - d. -/
  | shfu (f : LaneColl)
  /-- R233: Collective shuffle taking each participant's value from thread t + d. -/
  | shfd (f : LaneColl)
  /-- R233: Collective shuffle taking each participant's value from thread t XOR d. -/
  | shfx (f : LaneColl)
  /-- R233: Collective vote setting a predicate to ALL, ANY or UNI of the participants' predicates. -/
  | vote (f : LaneVote)
  /-- R233: Collective writing the mask of participants whose predicate is set. -/
  | ballot (f : LaneBallot)
  /-- R233: Collective reduction over participants by the fixed pairwise tree. -/
  | gred (f : LaneGred)
  /-- R233: Collective writing the mask of participants with equal values and an all-equal predicate. -/
  | matchv (f : LaneColl)
  /-- R115: Each guarded thread sets vd EMPTY, discarding any fault record. -/
  | mkemp (f : LaneOne)
  /-- R115: Each guarded thread makes an EMPTY or FAULTED vd FULL with zero. -/
  | mkful (f : LaneOne)
  /-- R116: Each guarded thread packs its predicates p0 to p7 into vd. -/
  | pmovPack (f : LaneOne)
  /-- R116: Each guarded thread loads predicates p1 to p7 from bits of va. -/
  | pmovUnpack (f : LaneSrc)
  /-- R117: Each guarded thread writes the identifier selected by the immediate. -/
  | getid (f : LaneGetid)
  /-- R152: Each guarded thread loads one byte zero-extended, marking vd PENDING. -/
  | ld8 (f : LaneMem)
  /-- R152: Each guarded thread loads 16 bits zero-extended, marking vd PENDING. -/
  | ld16 (f : LaneMem)
  /-- R152: Each guarded thread loads 32 bits, marking vd PENDING. -/
  | ld32 (f : LaneMem)
  /-- R152: Each guarded thread loads 64 bits into an even register pair. -/
  | ld64 (f : LaneMem)
  /-- R152: Each guarded thread loads 128 bits into an aligned block of four registers. -/
  | ld128 (f : LaneMem)
  /-- R152: Each guarded thread stores one byte after its address check. -/
  | st8 (f : LaneMem)
  /-- R152: Each guarded thread stores 16 bits after its address check. -/
  | st16 (f : LaneMem)
  /-- R152: Each guarded thread stores 32 bits after its address check. -/
  | st32 (f : LaneMem)
  /-- R152: Each guarded thread stores a register pair. -/
  | st64 (f : LaneMem)
  /-- R152: Each guarded thread stores an aligned block of four registers. -/
  | st128 (f : LaneMem)
  /-- R153: Each guarded thread loads 32 bits at abase + va + vb × 4. -/
  | ldx (f : LaneMemIdx)
  /-- R153: Each guarded thread stores 32 bits at abase + va + vb × 4. -/
  | stx (f : LaneMemIdx)
  /-- R154: Each guarded thread atomically adds vb to memory and receives the old value. -/
  | aadd (f : LaneMemIdx)
  /-- R154: Each guarded thread atomically takes the signed minimum with vb. -/
  | amin (f : LaneMemIdx)
  /-- R154: Each guarded thread atomically takes the signed maximum with vb. -/
  | amax (f : LaneMemIdx)
  /-- R154: Each guarded thread atomically takes the unsigned minimum with vb. -/
  | aumin (f : LaneMemIdx)
  /-- R154: Each guarded thread atomically takes the unsigned maximum with vb. -/
  | aumax (f : LaneMemIdx)
  /-- R154: Each guarded thread atomically ANDs vb into memory. -/
  | aand (f : LaneMemIdx)
  /-- R154: Each guarded thread atomically ORs vb into memory. -/
  | aor (f : LaneMemIdx)
  /-- R154: Each guarded thread atomically XORs vb into memory. -/
  | axor (f : LaneMemIdx)
  /-- R154: Each guarded thread atomically exchanges memory with vb. -/
  | axch (f : LaneMemIdx)
  /-- R154: Each guarded thread atomically compares memory with vb and writes vd on equality. -/
  | acas (f : LaneMemIdx)
  /-- R154: Each guarded thread atomically adds FP32 vb to memory in RN. -/
  | afadd (f : LaneMemIdx)
  /-- R156: Each guarded thread brings a readable device-memory line into L1 without faulting. -/
  | pref (f : LanePref)
  /-- R205: Each guarded thread sends a 32-bit remote load through the selected window. -/
  | rld32 (f : LaneRemote)
  /-- R205: Each guarded thread sends a 64-bit remote load into a register pair. -/
  | rld64 (f : LaneRemote)
  /-- R205: Each guarded thread sends a 32-bit remote store to every target of wpat. -/
  | rst32 (f : LaneRemote)
  /-- R205: Each guarded thread sends a 64-bit remote store to every target of wpat. -/
  | rst64 (f : LaneRemote)
  /-- R206: Each thread of the run sends a 32-bit remote atomic and receives the old value. -/
  | ratom (f : LaneRatom)
  /-- R234: Each guarded thread branches to a PC-relative target. -/
  | br (f : LaneBr)
  /-- R234: Each guarded thread branches to the address in va. -/
  | brx (f : LaneSrc)
  /-- R234: Each guarded thread pushes the return address and branches. -/
  | call (f : LaneBr)
  /-- R234: Each guarded thread pops its return stack into its PC. -/
  | ret (f : LaneGuard)
  /-- R237: Each guarded thread waits for its stores at the scope and becomes EXITED. -/
  | exitv (f : LaneExit)
  /-- R233: Group barrier collective that also acts as FENCE.grp for its participants. -/
  | barv (f : LaneBar)
  /-- R236: Thread enters WAIT at a region boundary until its group settles. -/
  | regn (n : BitVec 9)
  /-- R240: Each guarded thread appends a record to the selected spawn bin, waiting for room. -/
  | spawn (f : LaneSpawn)
  /-- R234: Excludes the group from its lane's arbitration until the other ready groups have issued once. -/
  | yield (f : LaneGuard)
  /-- R234: Does nothing. -/
  | nop (f : LaneGuard)
  /-- R118: Waits until vd is not PENDING, or until a queue holds an entry or is closed. -/
  | waite (f : LaneOne)
  /-- R139: Group adds ga and gb modulo 2^W. -/
  | gadd (f : GrpBin)
  /-- R139: Group subtracts gb from ga modulo 2^W. -/
  | gsub (f : GrpBin)
  /-- R139: Group multiplies ga and gb modulo 2^W. -/
  | gmul (f : GrpBin)
  /-- R139: Group writes ga × gb + gd modulo 2^W. -/
  | gmad (f : GrpBin)
  /-- R139: Group writes the signed minimum of ga and gb. -/
  | gmin (f : GrpBin)
  /-- R139: Group writes the signed maximum of ga and gb. -/
  | gmax (f : GrpBin)
  /-- R139: Group writes ga AND gb. -/
  | gand (f : GrpBin)
  /-- R139: Group writes ga OR gb. -/
  | gor (f : GrpBin)
  /-- R139: Group writes ga XOR gb. -/
  | gxor (f : GrpBin)
  /-- R140: Group shifts ga left by the whole W-bit amount in gb. -/
  | gshl (f : GrpBin)
  /-- R140: Group shifts ga right logically by the amount in gb. -/
  | gshr (f : GrpBin)
  /-- R140: Group shifts ga right arithmetically by the amount in gb. -/
  | gsar (f : GrpBin)
  /-- R141: Group sets condition cd to the signed or unsigned comparison of ga and gb. -/
  | gcmp (f : GrpCmp)
  /-- R141: Group writes ga or gb according to a condition, optionally inverted. -/
  | gsel (f : GrpBin)
  /-- R139: Group writes the count of 1 bits in ga. -/
  | gpopc (f : GrpUn)
  /-- R139: Group writes the count of leading zero bits of ga within W bits. -/
  | gclz (f : GrpUn)
  /-- R143: Group adds the sign-extended 18-bit immediate to gd. -/
  | gaddi (f : GrpImm)
  /-- R143: Group writes the sign-extended 18-bit immediate to gd. -/
  | gmovi (f : GrpImm)
  /-- R143: Group shifts gd left by 18 and ORs in the immediate. -/
  | gmovh (f : GrpImm)
  /-- R139: Group writes the high half of the unsigned product of ga and gb. -/
  | gmulh (f : GrpBin)
  /-- R142: Group writes the unsigned quotient, all ones on division by zero. -/
  | gdivu (f : GrpBin)
  /-- R142: Group writes the unsigned remainder, ga on division by zero. -/
  | gremu (f : GrpBin)
  /-- R234: Moves the run's threads to a PC-relative target. -/
  | gbr (f : GrpBr)
  /-- R234: Decrements gd and branches while it is not zero. -/
  | gloop (f : GrpImm)
  /-- R234: Pushes the return address on each run thread's stack and branches. -/
  | gcall (f : GrpBr)
  /-- R234: Pops each run thread's return stack into its PC. -/
  | gret (f : GrpGuard)
  /-- R113: Pushes a uniform entry into a queue port, waiting for room. -/
  | qput (f : GrpUn)
  /-- R113: Marks gd PENDING for the next entry of a queue port, the group continuing. -/
  | qget (f : GrpUn)
  /-- R113: Closes a queue. -/
  | qclose (f : GrpQclose)
  /-- R113: Returns a queue port's status without popping. -/
  | qstat (f : GrpQstat)
  /-- R157: Group loads 32 bits zero-extended, marking gd PENDING. -/
  | gld32 (f : GrpMem)
  /-- R157: Group loads 64 bits, marking gd PENDING. -/
  | gld64 (f : GrpMem)
  /-- R157: Group stores the low 32 bits of gd. -/
  | gst32 (f : GrpMem)
  /-- R157: Group stores the 64 bits of gd. -/
  | gst64 (f : GrpMem)
  /-- R158: Group performs a 64-bit device-scope atomic and receives the old value. -/
  | gatom (f : GrpAtom)
  /-- R114: Pushes N per-thread entries of affine indices into a queue and advances the base. -/
  | agen (f : GrpAgen)
  /-- R114: Pushes N per-thread entries of two-level affine indices into a queue. -/
  | agenx (f : GrpAgen)
  /-- R159: Group prefetches a device-memory line at ga + gb. -/
  | gpref (f : GrpTwo)
  /-- R98: Waits for earlier commands naming the barrier and resets it with a new EXPECT. -/
  | cbinit (f : GrpCbinit)
  /-- R98: Releases at team scope and arrives at the barrier, optionally with an error record. -/
  | cbarv (f : GrpCbarv)
  /-- R98: Waits until a barrier phase has passed, then returns a word and acquires. -/
  | cbwait (f : GrpCbwait)
  /-- R98: Sets a condition to whether a barrier phase has passed, without waiting. -/
  | cbtest (f : GrpCbtest)
  /-- R94: Issues a linear copy command and returns its promise. -/
  | cpy (f : GrpCpy)
  /-- R94: Issues a strided row copy command. -/
  | cpys (f : GrpCpy)
  /-- R94: Issues a gather copy command driven by an index list. -/
  | cpyg (f : GrpCpy)
  /-- R94: Issues a scatter copy command driven by an index list. -/
  | cpyx (f : GrpCpy)
  /-- R208: Group sends a remote load, marking gd PENDING. -/
  | rgld (f : GrpRemote)
  /-- R208: Group sends a remote store to one target. -/
  | rgst (f : GrpRemote)
  /-- R208: Group sends a multicast remote store. -/
  | rmst (f : GrpRemote)
  /-- R354: Group sends a remote atomic, marking gd PENDING. -/
  | rgatm (f : GrpRgatm)
  /-- R241: Sets a bin's flush time and returns its old status. -/
  | binsetFlush (f : GrpThree)
  /-- R241: Makes a bin refuse new records. -/
  | binsetClose (f : GrpDA)
  /-- R241: Makes a bin accept records again. -/
  | binsetOpen (f : GrpDA)
  /-- R241: Group appends one record to a local bin, waiting for room. -/
  | spawngLoc (f : GrpSpawnLoc)
  /-- R241: Group sends a spawn record through a BIN window to every target of a pattern. -/
  | spawngRemote (f : GrpSpawnRem)
  /-- R241: Makes every record of a bin eligible, optionally waiting until it is empty. -/
  | binfl (f : GrpBinfl)
  /-- R102: A load, atomic or remote load completes, making its destination FULL or FAULTED. -/
  | longLatencyComplete (g op : Nat) (mask : BitVec 32)
  /-- R62: A write to XLATE_INV_CTL starts an invalidation, clears ERR or is refused. -/
  | xlateInvCtlWrite (vd : Nat) (val : BitVec 64)
  /-- R62: A write to XLATE_ROOT starts a whole-virtual-device invalidation. -/
  | xlateRootWrite (vd : Nat) (val : BitVec 64)
  /-- R62: A write to XLATE_KEYS starts a whole-virtual-device invalidation. -/
  | xlateKeysWrite (vd : Nat) (val : BitVec 64)
  /-- R185: A write to FAB_WTAB empties the window-entry caches. -/
  | fabWtabWrite (vd : Nat) (val : BitVec 64)
  /-- R185: A write to FAB_ITAB empties the import-entry caches. -/
  | fabItabWrite (vd : Nat) (val : BitVec 64)
  /-- R293: A write to EVBASE restarts the event ring. -/
  | evbaseWrite (vd : Nat) (val : BitVec 64)
  /-- R293: A write to EVCTL enables, disables or resizes the event ring, restarting it where required. -/
  | evctlWrite (vd : Nat) (val : BitVec 64)
  /-- R296: A write to CAPLEN turns replay capture on for later launches or off. -/
  | caplenWrite (vd : Nat) (val : BitVec 64)
  /-- R262: A TFCMD resume ends a held team's report or trap as RTE would. -/
  | tfcmdResume (vd : Nat) (val : BitVec 64)
  /-- R262: A TFCMD abort flushes a held team and retires its launch with the cause. -/
  | tfcmdAbort (vd : Nat) (val : BitVec 64)
  /-- R284: QCTL RESET stops a queue, zeroes its indices and clears QSTAT. -/
  | qctlReset (vd q : Nat) (val : BitVec 64)
  /-- R284: QCTL ACK restarts a HALTED queue at the halting packet. -/
  | qctlAck (vd q : Nat) (val : BitVec 64)
  /-- R284: Writing EN 1 in STOPPED makes a queue RUNNING. -/
  | qctlEnable (vd q : Nat) (val : BitVec 64)
  /-- R284: Writing EN 0 stops a queue after the packet in progress. -/
  | qctlDisable (vd q : Nat) (val : BitVec 64)
  /-- R282: A host write to a function register with no behaviour of its own updates its fields. -/
  | registerWrite (vd offset : Nat) (val : BitVec 64)
  /-- R285: A store to a write index line makes the device re-read the index, halting on an invalid value. -/
  | writeIndexStore (vd q : Nat) (val : BitVec 64)
  /-- R190: An incoming read request is checked against the import table and performed. -/
  | fabricRead (vd : Nat) (r : FabReq)
  /-- R190: An incoming write request is checked and performed by the fabric import agent. -/
  | fabricWrite (vd : Nat) (r : FabReq)
  /-- R193: An incoming multicast write is performed independently at this target. -/
  | fabricMulticastWrite (vd : Nat) (r : FabReq)
  /-- R194: A completed gathering's result is written at the destination and its signal raised. -/
  | fabricReduction (vd : Nat) (at_ : GathKey)
  /-- R191: An incoming atomic is performed at its home. -/
  | fabricAtomic (vd : Nat) (r : FabReq)
  /-- R192: An incoming signal add adds to a signal's VALUE. -/
  | fabricSignalAdd (vd : Nat) (r : FabReq)
  /-- R241: An incoming spawn record is settled at its bin. -/
  | fabricSpawnRecord (vd : Nat) (r : FabReq)
  /-- R190: An incoming bulk write, a CPYW row or remote CMBPUT, is performed. -/
  | fabricBulkWrite (vd : Nat) (r : FabReq)
  /-- R196: A read data reply matches an outstanding tag and completes its request. -/
  | readData (tag : BitVec 16) (data : List Byte)
  /-- R196: An acknowledgement completes a posted request's target. -/
  | acknowledgement (tag : BitVec 16)
  /-- R202: An error reply completes a request in error or updates the remote error record. -/
  | errorReply (tag : BitVec 16) (cause : BitVec 8)
  /-- R199: A link-control pause stops sending on a virtual channel. -/
  | linkPause (port : Fin 16) (vc : Fin 6)
  /-- R199: A link-control resume restarts sending on a virtual channel. -/
  | linkResume (port : Fin 16) (vc : Fin 6)
  /-- R194: A col node accepts, holds or refuses a reducing-store contribution. -/
  | gatheringContribution (m : GathMsg)
  /-- R195: A gathering's timer expires incomplete and records REMOTE_TIMEOUT in the signal. -/
  | reductionTimerExpiry (vd : Nat) (at_ : GathKey)
  /-- R197: The fabric manager declares a member dead and its coordinate is contained. -/
  | containment (grid : BitVec 16) (member : Nat)
  /-- R184: A port leaves or returns to service after outstanding requests drain, and requests remap. -/
  | portServiceChange (port : Fin 16) (up : Bool)
  /-- R200: A port whose buffer banks retire folds virtual channels or leaves service. -/
  | portFold (port : Fin 16) (banks : Nat)
  /-- R200: A port that loses a lane swaps in its spare or narrows its width. -/
  | fabricLaneSwap (port : Fin 16)
  /-- R55: A host CXL.mem write is performed at the home-side cache. -/
  | hostCxlMemWrite (addr : Nat) (data : List Byte)
  /-- R66: A corrected memory error is counted and reported, possibly starting repair. -/
  | correctedError (mem : MemKind) (addr : Nat)
  /-- R66: A patrol scrub pass runs over a memory every 24 hours. -/
  | patrolScrub (mem : MemKind)
  /-- R310: A staged firmware update is verified and applied to standby then active core. -/
  | firmwareUpdate (version : Nat) (signed : Bool)
  /-- R309: Sensors are sampled every 1 ms and power and thermal limits acted on. -/
  | sensorSample (r : SensorReading)
  /-- R31: A word with an unassigned opcode issues and raises ILLEGAL_OPCODE. -/
  | illegalOpcodeWord (w : BitVec 32)
  /-- R197: The fabric manager clears a member's containment through col-node management. -/
  | containmentCleared (grid : BitVec 16) (member : Nat)
  /-- R201: A port locked by repeated tag failure is re-attested and returns to service. -/
  | reattestation (port : Fin 16)
  /-- R301: The SPDM responder answers a request taken over DOE. -/
  | spdmRequest (r : SpdmReq)
  /-- R310: A PLDM monitoring and control message reads sensors or sets the power cap. -/
  | platformMonitoringAndControl (m : PldmMsg)
  /-- R298: The physical function creates a virtual device by granting clusters, a journal partition and a stow pool. -/
  | virtualDeviceCreation (vd : Nat) (clusters : List Nat) (journalMiB stowPa stowLen : Nat)
  /-- The words R330 to R398 of the opcode maps. -/
  | unlisted (u : Unlisted)
  /-- R113: A pending QGET pops an arriving entry, or faults when the queue closes empty. Operands: `on.a` the g, `on.b` the q. -/
  | qgetFill
  /-- R105: A CPYST, MSTAT or BINFL status wait fills its destination once its condition holds. Operands: `on.a` the g, `on.b` the reg. -/
  | statusWaitFill
  /-- R98: A waiting CBWAIT ends when its phase passes, writes its word and acquires. Operands: `on.a` the g. -/
  | barrierWaitEnd
  /-- R91: cyc reaches a promise before its command completes and the issuing group traps. Operands: `on.a` the g. -/
  | missedPromise
  /-- R231: When every named live thread waits at a collective or BAR, instances are formed and performed. Operands: `on.a` the g. -/
  | collectiveFormation
  /-- R236: A settled group performs its lowest waiting REGN, or reports its parked threads. Operands: `on.a` the g. -/
  | regnPerform
  /-- R252: A ready group reaching age 125 suspends its lane's run and issues its own run. Operands: `on.a` the g. -/
  | ageCap
  /-- R88: A waiting destination claim is granted in claim order. Operands: `on.a` the cmd. -/
  | copyClaimGrant
  /-- R85: A copy engine starts a queued command once its claims are granted and a slot is free. Operands: `on.a` the cmd. -/
  | copyCommandStart
  /-- R89: A copy command writes the last byte of a claimed unit and releases it. Operands: `on.a` the cmd, `on.b` the unit. -/
  | copyUnitRelease
  /-- R93: A copy command completes, releases its claims and arrives at its barrier. Operands: `on.a` the cmd. -/
  | copyCommandComplete
  /-- R80: A segment's image is complete in the stow pool and its granules are freed. Operands: `on.a` the vd, `on.b` the seg. -/
  | stowComplete
  /-- R81: A segment's image is written back to new granules and waiting attaches are granted. Operands: `on.a` the vd, `on.b` the seg. -/
  | restoreComplete
  /-- R385: An eligible launch's bin rings are allocated all together once room exists. Operands: `on.a` the launch. -/
  | binRingAllocation
  /-- R239: A bin's flush timer expires, making its records eligible to launch. Operands: `on.a` the launch, `on.b` the bin. -/
  | binFlushTimerExpiry
  /-- R239: A bin launches a spawn group from its oldest records once a slot and registers are free. Operands: `on.a` the launch, `on.b` the bin. -/
  | spawnGroupLaunch
  /-- R277: An OPEN slot's deadline is reached and it completes with its present entries. Operands: `on.a` the vd, `on.b` the seg, `on.c` the slot. -/
  | combineDeadline
  /-- R245: The scheduler chooses and places or restores the next eligible team on a fitting core. Operands: `on.a` the vd. -/
  | teamPlacement
  /-- R246: A team held for a residency preference for 8,192 cycles moves to the next preference. Operands: `on.a` the launch. -/
  | residencyHoldExpiry
  /-- R249: A team unplaced for 65,536 cycles causes victims on one core to be chosen and pre-empted. Operands: `on.a` the launch. -/
  | victimWaitExpiry
  /-- R266: A drain not ended D cycles after its decision becomes a save. Operands: `on.a` the team. -/
  | drainBudgetExpiry
  /-- R266: A team's save completes after its outstanding work settles, the save area is written and resources freed. Operands: `on.a` the team. -/
  | saveEnd
  /-- R237: A team whose threads have all exited drains, detaches, writes back and completes. Operands: `on.a` the team. -/
  | teamEnd
  /-- R56: The L1 evicts a line, writing back only its dirty bytes. Operands: `on.a` the core, `on.b` the line. -/
  | l1Eviction
  /-- R61: A page walk ends and its translation or fault goes to every waiting miss. Operands: `on.a` the vd, `on.b` the page. -/
  | pageWalkComplete
  /-- R63: A translation invalidation finishes and BUSY reads 0. Operands: `on.a` the vd. -/
  | invalidationComplete
  /-- R299: A read of DBDATA returns one dirty-bitmap word and clears it atomically. Operands: `on.a` the vd. -/
  | dbdataRead
  /-- R300: Writing RUN 0 stops queues and saves every team of the virtual device. Operands: `on.a` the vd. -/
  | runStop
  /-- R300: Once saves, write-backs and running copies end, STOPPED reads 1 and a STOPPED event is posted. Operands: `on.a` the vd. -/
  | stopComplete
  /-- R300: Writing RUN 1 resumes the virtual device. Operands: `on.a` the vd. -/
  | runResume
  /-- R285: The device copies a packet, journals it and counts it in QRIDX. Operands: `on.a` the vd, `on.b` the q. -/
  | packetAccept
  /-- R289: A LAUNCH packet starts, becoming eligible for placement or retiring on a malformed record. Operands: `on.a` the vd, `on.b` the q. -/
  | launch
  /-- R290: A BARRIER packet starts and tests its signals. Operands: `on.a` the vd, `on.b` the q. -/
  | barrier
  /-- R290: A waiting BARRIER re-tests its signals on a write and completes, retires or aborts the queue. Operands: `on.a` the vd, `on.b` the q. -/
  | barrierResolve
  /-- R291: In an ABORTED queue a later packet retires with the abort status without acting. Operands: `on.a` the vd, `on.b` the q. -/
  | abortedPacketRetire
  /-- R292: A SIGNAL packet adds its operand to a signal as a release. Operands: `on.a` the vd, `on.b` the q. -/
  | signalAdd
  /-- R292: A SIGNAL packet sets a signal's VALUE as a release. Operands: `on.a` the vd, `on.b` the q. -/
  | signalSet
  /-- R292: A SEGMENT packet stows a named segment as SGSTOW. Operands: `on.a` the vd, `on.b` the q. -/
  | segmentStow
  /-- R292: A SEGMENT packet drops a named segment as SGDROP by name. Operands: `on.a` the vd, `on.b` the q. -/
  | segmentDrop
  /-- R82: A SEGMENT packet pins a segment, restoring or cutting a stow short as needed. Operands: `on.a` the vd, `on.b` the q. -/
  | segmentPin
  /-- R292: A SEGMENT packet unpins a segment. Operands: `on.a` the vd, `on.b` the q. -/
  | segmentUnpin
  /-- R292: A MARKER packet writes its words into a journal record. Operands: `on.a` the vd, `on.b` the q. -/
  | marker
  /-- R293: A buffered event is posted once the ring has room and is enabled. Operands: `on.a` the vd. -/
  | bufferedEventPost
  /-- R294: The active command processor writes its heartbeat every 100 µs. -/
  | heartbeat
  /-- R294: On a lockstep mismatch or late heartbeat the standby takes over from the journal. -/
  | standbyTakeover
  /-- R196: A request's TMO expires, completing it with REMOTE_TIMEOUT and quarantining its slot. Operands: `on.a` the slot. -/
  | requestTimeout
  /-- R196: A tag slot's 524 µs quarantine ends and it becomes free. Operands: `on.a` the slot. -/
  | slotQuarantineEnd
  /-- R196: A packet's LIFE reaches 0 and a node drops it. Operands: `on.a` the n. -/
  | packetLifeExpiry
  /-- R55: A host CXL.mem read is served at the home-side cache. Operands: `on.a` the addr, `on.b` the len. -/
  | hostCxlMemRead
  /-- R311: An SRAM row is copied to a spare row while accesses wait. Operands: `on.a` the addr. -/
  | sramRowRepair
  /-- R311: A retiring LPDDR5X channel is copied to the spare channel. Operands: `on.a` the channel. -/
  | channelSparing
  /-- R311: A failing core's team is saved and a spare takes over the core's number and slice. Operands: `on.a` the core. -/
  | spareCoreSubstitution
  /-- R311: Each virtual device migrates and the old module leaves through hot-plug. -/
  | moduleReplacement
  /-- R307: After power is good the module runs its boot sequence. -/
  | powerGoodBoot
  /-- R307: A hot reset or physical-function reset repeats boot steps 3 to 6. -/
  | cxlHotReset
  /-- R307: A virtual function's reset discards that virtual device's state. Operands: `on.a` the vd. -/
  | vfFunctionLevelReset
  /-- R72: A virtual device is destroyed and all its granules are freed. Operands: `on.a` the vd. -/
  | virtualDeviceDestruction
  /-- R271: A core is lost to an uncorrectable fault and its team restarts or its launch retires. Operands: `on.a` the core. -/
  | coreLostToUncorrectableFault
  /-- R241: A remote spawn record held at a full bin times out with REMOTE_TIMEOUT. Operands: `on.a` the vd, `on.b` the n. -/
  | heldSpawnRecordTimeout
deriving DecidableEq, Repr

end Sys2Proof
end

