-- ==== Sys2Proof/Machine/State.lean ====
section
/-! DEFINITION. The state of the machine, as plain data: everything the spec gives the Etrum S768, and beside it the
model's own fields (marked MODEL, named in the log). A register that a map does not list reads as the value its
accessor names: its value at release. -/

namespace Sys2Proof.Machine

/-! ## Causes and fault records -/

/-- Cause codes (15_faults R258), by name. -/
inductive Cause where
  | none | illegalOpcode | reservedField | privileged | emptyRead | misaligned | pageNotPresent | pageProtection
  | sliceRange | hostAtomicUnsupported | maskMismatch | stackOverflow | windowInvalid | windowBounds | windowKey
  | windowPerm | patternInvalid | remoteTimeout | remoteContained | tableStale | tableIndex | shapeTruncated
  | attachMiss | segmentConflict | missedPromise | queueClosed | combineSlots | generationRetired | restoreCapacity
  | uncorrectable | breakpoint | softwareTrap
deriving DecidableEq, Repr

/-- A fault record (15_faults R259). All fields at their defaults is the record whose V is 0. -/
structure FaultRec where
  addr : W64 := 0
  cause : BitVec 8 := 0
  fpc : VA := 0
  rpc : VA := 0
  entries : W32 := 0
  v : Bool := false
  malf : Bool := false
  wr : Bool := false
  ex : Bool := false
  host : Bool := false
  rmt : Bool := false
  deferred : Bool := false
  grp : Bool := false
  reg : BitVec 6 := 0
  code : BitVec 18 := 0
deriving DecidableEq, Repr

/-! ## Threads (13_execution R228, R234, R242) -/

/-- The states of a thread (R228). -/
inductive TState where
  | ready | wait | parked | exited | absent
deriving DecidableEq, Repr

/-- Full/empty states (07_registers R101). -/
inductive Full where
  | full | pending | empty | faulted
deriving DecidableEq, Repr

/-- One thread of a group. -/
structure Thread where
  pc : VA := 0
  entry : VA := 0
  st : TState := .absent
  wsat : Bool := false
  stack : List VA := []
  /-- vector registers: an unlisted one reads 0 -/
  v : FMap W32 := []
  /-- states of vector registers: an unlisted one is FULL -/
  vst : FMap Full := []
  /-- p0 to p7; bit 0 is never read -/
  preds : BitVec 8 := 0
  fault : FaultRec := {}
  /-- a store's error that parks the thread at its next REGN or EXIT (09_access R150) -/
  storeFault : Option FaultRec := none
  /-- the collective, BAR or REGN at which a thread in WAIT stands (R231, R236) -/
  waitAt : Option Instr := none
deriving DecidableEq, Repr

/-! ## Groups -/

/-- An entry of an operand queue (07_registers R109): a list shorter than 32 reads 0 beyond its end. -/
inductive QEntry where
  | perThread (vals : List W32)
  | uniform (v : W64)
deriving DecidableEq, Repr

/-- An operand queue (R108 to R113). -/
structure Queue where
  entries : List QEntry := []
  closed : Bool := false
  /-- pending QGETs, oldest first: the register, whether 64 bits are taken, and where the word stands -/
  gets : List (Nat × Bool × VA) := []
deriving DecidableEq, Repr

/-- One part of an outstanding long-latency operation (R102): what one thread (or, at 32, the group) will receive. -/
structure Piece where
  t : Nat := 0
  /-- register and value, for each register of the destination -/
  regs : List (Nat × W64) := []
  /-- the fault it completes with -/
  fault : Option FaultRec := none
  /-- the reply is here: false while a remote reply is awaited -/
  ready : Bool := true
deriving DecidableEq, Repr

/-- An outstanding long-latency operation of a group. -/
structure OutOp where
  id : Nat := 0
  pieces : List Piece := []
  /-- a remote acquire: later accesses of the group wait for it (12_consistency R219) -/
  acq : Bool := false
deriving DecidableEq, Repr

/-- What a status wait waits for (R105). -/
inductive StatusKind where
  | cpyst (cb : Nat)
  /-- the sequencer words issued before it -/
  | mstat (sel : Nat) (seqs : List Nat)
  | binfl (bin : Nat)
deriving DecidableEq, Repr

/-- A group of up to 32 threads. -/
structure Group where
  team : Nat := 0
  idx : Nat := 0
  /-- 0 none, 1 producer, 2 consumer -/
  role : Nat := 0
  roleIdx : Nat := 0
  budget : Nat := 56
  lane : Nat := 0
  slot : Nat := 0
  /-- released and resident -/
  live : Bool := false
  threads : FMap Thread := []
  /-- group registers: an unlisted one reads 0 -/
  g : FMap W64 := []
  gst : FMap Full := []
  /-- c0 to c3; bit 0 is never read -/
  conds : BitVec 4 := 0
  fault : FaultRec := {}
  queues : FMap Queue := []
  fpm : W64 := 0
  klen : W64 := 1
  runmask : W32 := 0
  regctr : W64 := 0
  abase : W64 := 0x00FE000000000000
  wsel : W64 := 0
  wpat : W64 := 0
  gentag : BitVec 16 := 0
  trapcause : BitVec 8 := 0
  trapaddr : W64 := 0
  trappc : VA := 0
  trapmask : W32 := 0
  trap : Bool := false
  report : Bool := false
  fw : Bool := false
  tvec : VA := 0
  tcmask : W32 := 0
  rerrCause : BitVec 8 := 0
  rerrCount : BitVec 16 := 0
  /-- program counter in trap context (R261) -/
  hpc : VA := 0
  held : Bool := false
  ops : List OutOp := []
  /-- status waits, oldest first: destination register and kind -/
  waits : List (Nat × StatusKind) := []
  /-- entries already pushed by a waiting AGEN or AGENX (R114) -/
  agen : Nat := 0
  /-- remaining cycles of a restored SLEEP (15_faults R374) -/
  sleepLeft : Option Nat := none
  /-- the word at which the group waits, and where it stands -/
  waitWord : Option Instr := none
  /-- the command that a waiting copy word has created and whose claim is not yet granted (06_copy R88) -/
  copyWait : Option Nat := none
  /-- CPYC's matched commands that have not delivered their arrival, and the count that it will write (R361) -/
  cancelWait : Option (List Nat × Nat) := none
  /-- the copy commands and sequences, issued before it, whose arrivals a waiting CBINIT awaits (06_copy R98) -/
  cbWait : Option (List Nat × List Nat) := none
  /-- serial numbers of the requests that a waiting GENTAG.rem or RFENCE awaits, and acknowledgements counted -/
  replyWait : Option (List Nat × Nat) := none
  /-- posted remote words of this group not yet answered: for each, the serial numbers of its requests -/
  posted : List (List Nat) := []
  /-- descriptor addresses of commands that completed after their promised time, whose MISSED_PROMISE is still to be taken
  (06_copy R91) -/
  late : List W64 := []
  /-- the key of the signal whose HINT counts this group (11_fabric R192) -/
  hint : Option Nat := none
  /-- time of the last issue, or of release (14_scheduling R251) -/
  lastIssue : Nat := 0
  /-- after YIELD: the groups that its lane has chosen since (R253) -/
  yielded : Option (List Nat) := none
  /-- its waiting word stands in the accumulator pipe (10_table R175) -/
  inPipe : Bool := false
deriving DecidableEq, Repr

/-! ## Teams -/

/-- A completion barrier (06_copy R95). -/
structure Barrier where
  errIdx : BitVec 16 := 0
  phase : BitVec 8 := 0
  ew : Bool := false
  curErr : Bool := false
  lastErr : Bool := false
  arrived : Nat := 0
  expect : Nat := 1
  cause : BitVec 8 := 0
  addr : VA := 0
deriving DecidableEq, Repr

/-- States of a tile (10_table R171). -/
inductive TileState where
  | empty | valid | stale | rebuild | faulted | building
deriving DecidableEq, Repr

/-- A tile: its build descriptor (R171) and its entries (an unlisted one reads 0). -/
structure Tile where
  src : W64 := 0
  ars : W32 := 0
  cause : BitVec 8 := 0
  rows : Nat := 0
  /-- granules covered, minus 1 -/
  ngr : Nat := 0
  gran0 : Nat := 0
  trunc : Bool := false
  hi : Bool := false
  state : TileState := .empty
  /-- 0 G1, 1 G4 SGN, 2 G4 SUB -/
  mode : Nat := 0
  sp : Bool := false
  bfmt : Nat := 0
  afmt : Nat := 0
  gens : List W32 := []
  /-- a write hit the extent since the build's first read (R172) -/
  hit : Bool := false
  entries : FMap W32 := []
deriving DecidableEq, Repr

/-- An accumulator (07_registers R99, 10_table R176): element r * 128 + c, unlisted reads +0. -/
structure Acc where
  vals : FMap W32 := []
  full : Bool := true
  /-- the sequence that holds it -/
  hold : Option Nat := none
deriving DecidableEq, Repr

/-- An entry of the binding table (12_consistency R212). -/
structure Binding where
  obj : W64 := 0
  base : W64 := 0
  len : W64 := 0
deriving DecidableEq, Repr

/-- What a team is doing (15_faults R266). -/
inductive TeamPhase where
  /-- resources are reserved and the attaches of its launch are being made (14_scheduling R247) -/
  | placing
  | running
  /-- draining; the core time at which the drain becomes a save -/
  | draining (until_ : Nat)
  | saving
  /-- every thread has exited, or TEAMEND was performed: the end sequence runs -/
  | ending
  | ended
deriving DecidableEq, Repr

/-- A team. -/
structure Team where
  vd : Nat := 0
  launch : Nat := 0
  core : Nat := 0
  /-- linearised index in the grid -/
  index : Nat := 0
  placedAt : Nat := 0
  groups : List Nat := []
  cbs : FMap Barrier := []
  nTiles : Nat := 0
  tiles : FMap Tile := []
  nAccs : Nat := 0
  accs : FMap Acc := []
  /-- step counter (10_table R178) -/
  steps : Nat := 0
  bindings : FMap Binding := []
  ovf : Bool := false
  /-- first scratch granule and number of them (05_slices R73) -/
  scratch : Nat := 0
  nScratch : Nat := 0
  /-- attaches held: directory index and whether for write -/
  attaches : List (Nat × Bool) := []
  exited : Nat := 0
  launched : Nat := 0
  /-- current base priority (R379), and the launch's effective priority when the team was placed (R244) -/
  base : Nat := 0
  effective : Nat := 0
  /-- progress counted before the present placement (15_faults R265) -/
  progress : Nat := 0
  completion : W32 := 0
  domExit : Bool := false
  phase : TeamPhase := .running
  /-- groups whose waits are still to be settled with the decision to save (14_scheduling R255) -/
  settle : List Nat := []
  /-- the cause last reported for a held group (15_faults R261) -/
  reported : BitVec 8 := 0
  /-- the bin that made a spawn team, and the records that it took -/
  spawnBin : Option Nat := none
  records : List (List Byte) := []
  /-- the vector budgets: producer or sole, consumer -/
  budgets : Nat × Nat := (56, 0)
  /-- saved for a spare-core substitution: the core number that the spare takes, onto which the team is restored with its scratch where it
  was (18_platform R311, R312) -/
  onto : Option Nat := none
deriving DecidableEq, Repr

/-! ## Copy engines (06_copy) -/

/-- The copy commands. -/
inductive CopyKind where
  | cpy | cpys | cpyg | cpyx | cpyq | cpywPut | cpywGet
  /-- the image write of a stow and the image read of a restore (05_slices R80, R81) -/
  | stow | restore
deriving DecidableEq, Repr

/-- Where a command stands. -/
inductive CopyPhase where
  | claiming | queued | running | done
deriving DecidableEq, Repr

/-- A command's descriptor (R86). -/
structure CopyDesc where
  src : W64 := 0
  dst : W64 := 0
  sstride : W32 := 0
  dstride : W32 := 0
  len : W32 := 0
  qin : Bool := false
  qfmt : BitVec 2 := 0
  idx : W64 := 0
  aux : W64 := 0
  pat : W64 := 0
  tag : W32 := 0
deriving DecidableEq, Repr

/-- The allocation that stows make room for (05_slices R80): an SGNEW of a group, a restore of a segment of a virtual device, the scratch of
a team (its launch and the key under which it waits), or the bin rings of a launch. -/
inductive RoomFor where
  | sgnew (group : Nat)
  | restore (vd seg : Nat)
  | scratch (launch key : Nat)
  | rings (launch : Nat)
deriving DecidableEq, Repr

/-- One row (or 4 KiB block of a CPY) that a running command will write: where, and the bytes. -/
structure CopyRow where
  /-- row index -/
  i : Nat := 0
  /-- memory key and byte -/
  cells : List Host.Cell := []
  /-- where the row goes: addresses and lengths of its ranges, and their pieces in order, for the address of an error (R92) -/
  ranges : List (W64 × Nat) := []
  pieces : List (Nat × Nat) := []
deriving DecidableEq, Repr

/-- A piece of a row that a CPYW moves in one request. -/
structure CopyPiece where
  row : Nat := 0
  off : Nat := 0
  n : Nat := 0
  key : Nat := 0
  data : List Byte := []
deriving DecidableEq, Repr

/-- A copy command. -/
structure CopyCmd where
  vd : Nat := 0
  team : Nat := 0
  group : Nat := 0
  core : Nat := 0
  kind : CopyKind := .cpy
  desc : CopyDesc := {}
  /-- address of the descriptor, for MISSED_PROMISE (R91) -/
  descAt : W64 := 0
  count : Nat := 0
  cb : Nat := 0
  np : Bool := false
  /-- register of the issuing group that receives P (56 and above: a queue port) -/
  gd : Nat := 0
  phase : CopyPhase := .claiming
  /-- extents of the destination, as memory keys: first key and length -/
  extents : List (Nat × Nat) := []
  /-- first keys of the claimed units that are not yet released: units that the command writes into (R89) -/
  held : List Nat := []
  granted : Bool := false
  promise : Option W64 := none
  missed : Bool := false
  /-- where each row or block goes, as translated at issue (R88): pieces of first key and length -/
  places : List (List (Nat × Nat)) := []
  /-- rows still to be written, ascending -/
  rows : List CopyRow := []
  /-- a CPYC has cancelled it while requests were outstanding (R361) -/
  cancelled : Bool := false
  /-- the fault that ends it: cause, address, index -/
  err : Option (Cause × W64 × Nat) := none
  qunder : Bool := false
  qover : Bool := false
  /-- pieces of a CPYW not yet sent: row, offset in the window, length, key at this device, bytes of a put -/
  pieces : List CopyPiece := []
  /-- serial numbers of the requests of a CPYW that await replies -/
  tags : List Nat := []
  gentag : BitVec 16 := 0
  /-- the segment that a stow or restore moves -/
  seg : Nat := 0
  /-- the allocation that a stow makes room for -/
  forRoom : Option RoomFor := none
  /-- a CPYW's window entry, as its issue read it -/
  window : List W64 := []
deriving DecidableEq, Repr

/-! ## Table unit (10_table) -/

/-- Sequencer words. -/
inductive SeqKind where
  | tbld | tbld4 | tinv | tspl | tfil | mloop | mloop4 | mstep
deriving DecidableEq, Repr

/-- The shape record as a word keeps it (10_table R168). -/
structure Shape where
  abase : W64 := 0
  bbase : W64 := 0
  astep : W32 := 0
  bstep : W32 := 0
  ars : W32 := 0
  rcp : W64 := 0
  ks : Nat := 0
  s0 : Nat := 0
  ne : Nat := 0
  ns : Nat := 0
  strict : Bool := false
  sp : Bool := false
  kind : Bool := false
  p : Nat := 0
  mb : Nat := 0
  bfmt : Nat := 0
  afmt : Nat := 0
deriving DecidableEq, Repr

/-- A sequencer word that has been enqueued. -/
structure SeqCmd where
  id : Nat := 0
  team : Nat := 0
  group : Nat := 0
  kind : SeqKind := .tinv
  tile : Nat := 0
  acc : Nat := 0
  cb : Nat := 0
  pm : Bool := false
  g4 : Bool := false
  shape : Shape := {}
  /-- A block or image address -/
  addr : W64 := 0
  /-- rows of the sequence (R170) and whether the count was clamped -/
  rows : Nat := 0
  trunc : Bool := false
  /-- the count read, for the SHAPE_TRUNCATED record -/
  count : Nat := 0
  /-- the next step -/
  step : Nat := 0
  /-- the table of the next step is built -/
  built : Bool := false
  /-- what the next step, of a partial-mode word, has formed and waits to write into its slot: rows of columns (10_table R173, R177) -/
  sums : Option (List (List W32)) := none
  started : Bool := false
  /-- the word as it issued, for its sequencer record (15_faults R268) -/
  word : Option Instr := none
deriving DecidableEq, Repr

/-- What is kept of a saved team (15_faults R268, R269): the team and its groups as they stood. -/
structure SavedTeam where
  team : Team := {}
  groups : FMap Group := []
  /-- commands not yet started, and sequencer words, to be issued again -/
  copies : List CopyCmd := []
  seqs : List SeqCmd := []
  /-- scratch contents: offset and byte, unlisted 0 -/
  scratchBytes : List Host.Cell := []
  savedAt : Nat := 0
  /-- for a group on which a CMBOPEN waited, the base of its buffer (16_experts R382) -/
  opens : FMap W64 := []
  /-- address of the save area (17_command R295) -/
  area : Nat := 0
deriving DecidableEq, Repr

/-! ## Cores and clusters -/

/-- A line of an L1 (04_memory R56): bytes held, and of them the dirty ones. -/
structure L1Line where
  /-- physical address divided by 128 -/
  line : Nat := 0
  present : BitVec 128 := 0
  dirty : BitVec 128 := 0
  data : BitVec 1024 := 0
  /-- dirty bytes that are uncorrectable: parity covers each 32-bit word (R66) -/
  bad : BitVec 128 := 0
  /-- virtual device whose page marked the line -/
  vd : Nat := 0
deriving DecidableEq, Repr

/-- A translation held in a TLB (R61): the leaf that a walk of one 64 KiB virtual page met, and where that entry lies. It serves the
whole page that the leaf maps. -/
structure TlbEntry where
  vd : Nat := 0
  page : Nat := 0
  leaf : W64 := 0
  /-- 0: 64 KiB; 1: 2 MiB; 2: 512 MiB -/
  size : Nat := 0
  /-- physical address of the leaf entry -/
  at_ : Nat := 0
  /-- in a 2 MiB run: the 64 KiB pages known to show A and D (R58) -/
  seenA : W32 := 0
  seenD : W32 := 0
deriving DecidableEq, Repr

/-- A page walk that is pending at the I/O die (R61): its page, the cores that joined it, and its result. -/
structure PendingWalk where
  vd : Nat := 0
  page : Nat := 0
  cores : List Nat := []
  leaf : W64 := 0
  at_ : Nat := 0
  size : Nat := 0
deriving DecidableEq, Repr

/-- A core. -/
structure Core where
  l1 : List L1Line := []
  tlb : List TlbEntry := []
  /-- sequencer words, in issue order; the first may be running -/
  seqs : List SeqCmd := []
  /-- groups whose accumulator-pipe word waits, in issue order (10_table R175) -/
  accPipe : List Nat := []
  /-- last issue time of each engine class (14_scheduling R251), 0 LANE to 6 TABLE -/
  classAt : FMap Nat := []
  /-- out of service: lost, or no spare left (18_platform R312) -/
  out : Bool := false
  /-- uncorrectable errors counted toward substitution: command-processor times, newest first (R311) -/
  errors : List Nat := []
deriving DecidableEq, Repr

/-- A cluster: the shared TLB and the window-entry cache (04_memory R61, 11_fabric R185). -/
structure Cluster where
  tlb : List TlbEntry := []
  /-- window entries held: virtual device, handle, the four words -/
  windows : List (Nat × Nat × List W64) := []
deriving DecidableEq, Repr

/-! ## Segments (05_slices) -/

/-- States of a segment (R74, R76). -/
inductive SegState where
  | free | local_ | resident | stowing | stowed | restoring
deriving DecidableEq, Repr

/-- Who waits at a segment for its turn (R76): a group at a segment word, a placed team with its attach list, or a SEGMENT packet: virtual
device, queue and packet index. -/
inductive SegWaiter where
  | group (k : Nat)
  | team (t : Nat)
  | packet (vd q index : Nat)
deriving DecidableEq, Repr

/-- A segment descriptor (R74) and what the directory keeps beside it. -/
structure Seg where
  name : W64 := 0
  cluster : Bool := false
  state : SegState := .free
  pin : Bool := false
  /-- the write attach's team -/
  writer : Option Nat := none
  /-- the read attaches' teams -/
  readers : List Nat := []
  core : Nat := 0
  gran : Nat := 0
  ng : Nat := 0
  stowPa : Nat := 0
  lseq : W32 := 0
  dseq : W32 := 0
  /-- the name was removed by a drop that waits for the last detach (R334) -/
  dropped : Bool := false
  /-- releases recorded by REL (12_consistency R349) -/
  releases : Nat := 0
  /-- a combine buffer has been configured at the base -/
  buffer : Bool := false
  /-- while RESTORING: granules have been allocated (R81) -/
  placed : Bool := true
  /-- the operations that have arrived and wait, oldest first (R76) -/
  waiting : List SegWaiter := []
deriving DecidableEq, Repr

/-! ## Launches, bins and queues -/

/-- A spawn bin of a launch (13_execution R238 to R241). -/
structure Bin where
  core : Nat := 0
  size : Nat := 16
  entry : VA := 0
  flush : Nat := 1
  open_ : Bool := true
  discarded : Nat := 0
  /-- the records held, oldest first, as their bytes -/
  records : List (List Byte) := []
  /-- core time at which the timer started -/
  timerAt : Option Nat := none
  /-- records that the timer or BINFL has made eligible -/
  eligible : Nat := 0
  /-- the ring's granule, once allocated (R385), and records written to it -/
  gran : Option Nat := none
  written : Nat := 0
deriving DecidableEq, Repr

/-- How far one team of a launch has come. -/
inductive TeamFate where
  | unplaced | placed | saved | done
deriving DecidableEq, Repr

/-- A launch: its packet, its kernel record and its progress (17_command R289, R303). -/
structure Launch where
  vd : Nat := 0
  queue : Nat := 0
  /-- packet index in the queue -/
  packet : Nat := 0
  cookie : W32 := 0
  csig : W64 := 0
  kobj : W64 := 0
  grid : Nat × Nat × Nat := (1, 0, 0)
  hint : Nat := 0
  prio : Nat := 0
  idem : Bool := false
  noRestore : Bool := false
  /-- attach list: name and whether for write -/
  attach : List (W64 × Bool) := []
  scratch : Nat := 0
  binBase : Nat := 0
  tvec : VA := 0
  tcmask : W32 := 0
  code : VA := 0
  entryP : VA := 0
  entryC : VA := 0
  nP : Nat := 1
  nC : Nat := 0
  budgetP : Nat := 56
  budgetC : Nat := 0
  tiles : Nat := 0
  accs : Nat := 0
  roles : Bool := false
  /-- queue links: producer group, port, consumer group, port -/
  links : List (Nat × Nat × Nat × Nat) := []
  bins : FMap Bin := []
  /-- device memory as fetch sees it: the cells as they stood at the launch (02_encoding R17) -/
  image : List Host.Cell := []
  eligible : Bool := false
  ringsReady : Bool := true
  /-- command-processor time since which the launch ages (R244) -/
  ageFrom : Nat := 0
  /-- command-processor time at which it became eligible, and at which a flush returned a team to it: since then the team has
  stayed unplaced (R249) -/
  waitFrom : Nat := 0
  flushedAt : FMap Nat := []
  /-- for each of its waiting teams, by the team's key: command-processor time since which it is held for a preference, and the
  preference given up (R246) -/
  holdFrom : FMap Nat := []
  prefTaken : FMap Nat := []
  /-- base priorities that PRIO has set in teams that a flush or a lost core returned to the launch (15_faults R379) -/
  bases : FMap Nat := []
  /-- the team index that has never been placed, and what became of those below it -/
  next : Nat := 0
  fates : FMap TeamFate := []
  /-- for each of its waiting teams, by the team's key: the core on which victims make room for it (14_scheduling R249) -/
  victimCore : FMap Nat := []
  started : Bool := false
  /-- the cause with which it will retire -/
  failed : Option Cause := none
  /-- completion values of teams, where not 0 -/
  values : FMap W32 := []
  retired : Bool := false
  /-- firmware made the launch (15_faults R262) -/
  firmware : Bool := false
deriving DecidableEq, Repr

/-- States of a queue (17_command R284). -/
inductive QState where
  | stopped | running | halted | aborted
deriving DecidableEq, Repr

/-- A packet that has been accepted (R285). -/
structure Packet where
  index : Nat := 0
  words : List W64 := []
  ext : List W64 := []
  started : Bool := false
  /-- a LAUNCH's key -/
  launch : Option Nat := none
  /-- what a SEGMENT packet's stow returned (R288) -/
  stow : Nat := 0
deriving DecidableEq, Repr

/-- A queue block (R284). -/
structure HQueue where
  base : W64 := 0
  age : Bool := false
  log2n : Nat := 4
  widxAt : W64 := 0
  /-- the write index as last read -/
  widx : Nat := 0
  ridx : Nat := 0
  pidx : W32 := 0
  errCount : Nat := 0
  cause : BitVec 8 := 0
  en : Bool := false
  state : QState := .stopped
  packets : List Packet := []
deriving DecidableEq, Repr

/-- An event of the event ring (R293). -/
structure Event where
  type_ : Nat := 0
  cause : BitVec 8 := 0
  queue : Nat := 0
  cookie : W32 := 0
  index : W64 := 0
  a : W64 := 0
  b : W64 := 0
deriving DecidableEq, Repr

/-- A journal record (R295). -/
structure JRecord where
  seq : Nat := 0
  type_ : Nat := 0
  queue : Nat := 0
  status : BitVec 8 := 0
  index : W32 := 0
  a : W64 := 0
  b : W64 := 0
deriving DecidableEq, Repr

/-- A spawn record that a full bin holds (13_execution R241): its tag of R272, and the transaction tag and port of its reply. -/
structure HeldRecord where
  launch : Nat := 0
  bin : Nat := 0
  bytes : List Byte := []
  gentag : BitVec 16 := 0
  tag : BitVec 16 := 0
  port : Nat := 0
deriving DecidableEq, Repr

/-- A virtual device (17_command R282, R298). -/
structure VDev where
  live : Bool := false
  clusters : List Nat := []
  -- translation block (04_memory R62)
  root : W64 := 0
  keys : W64 := 0
  invVa : W64 := 0
  invCount : W32 := 0
  invErr : Bool := false
  invScope : BitVec 2 := 0
  invBusy : Bool := false
  /-- the invalidation in progress: its first page, and whether it covers the whole virtual device -/
  invPage : Nat := 0
  invAll : Bool := false
  -- fabric block (11_fabric R185)
  fabGrid : W64 := 0
  fabCoord : W64 := 0
  fabWtab : W64 := 0
  fabItab : W64 := 0
  -- control block (17_command R283)
  evBase : W64 := 0
  evEn : Bool := false
  evVec : BitVec 8 := 0
  evLog2n : Nat := 6
  stowBase : W64 := 0
  stowLen : W32 := 0
  dbm : W64 := 0
  track : Bool := false
  dbIdx : Nat := 0
  tflSeq : W32 := 0
  tfCmd : W64 := 0
  capBase : W64 := 0
  capLen : W32 := 0
  run : Bool := true
  stopped : Bool := false
  /-- drain budgets: an unlisted one is 65,536 -/
  drain : FMap Nat := []
  -- event ring (R293)
  evWidx : Nat := 0
  evFresh : Bool := false
  /-- a write of the ring failed, and EVBASE and EVCTL have not been written since -/
  evStuck : Bool := false
  evBuffer : List Event := []
  queues : FMap HQueue := []
  -- journal (R295)
  journal : List JRecord := []
  jseq : Nat := 0
  journalMiB : Nat := 2
  -- segments (05_slices)
  segs : FMap Seg := []
  dseq : W32 := 0
  /-- retired generation tags (16_experts R272) -/
  retired : List Nat := []
  saved : FMap SavedTeam := []
  heldRecords : List HeldRecord := []
  /-- replay capture (R296): words captured, oldest first -/
  capture : List W64 := []
  /-- capture has been turned on and its buffer is not full -/
  capOn : Bool := false
  /-- placement rotation pointers by priority (R245) -/
  rotation : FMap Nat := []
deriving DecidableEq, Repr

/-! ## Fabric -/

/-- A fabric port (11_fabric R183, R199 to R201). -/
structure Port where
  up : Bool := false
  lanes : Nat := 4
  spareUsed : Bool := false
  /-- folds made: 0 none, 1 MGT, 2 and BULK, 3 and ATM -/
  folds : Nat := 0
  paused : List Nat := []
  locked : Bool := false
  discarded : Nat := 0
  /-- the port leaves or returns to service once nothing is outstanding -/
  draining : Option Bool := none
  /-- protected mode: an SPDM session with the col node gives keys, and flits are counted in each direction (R201) -/
  session : Bool := false
  sentFlits : Nat := 0
  gotFlits : Nat := 0
  /-- a flit that arrived has failed, and its replay is awaited; replays made so far (R198, R201) -/
  failed : Bool := false
  replays : Nat := 0
  /-- virtual channels that the device has asked to pause (R199) -/
  asked : List Nat := []
deriving DecidableEq, Repr

/-- What a request is, for its replies (R196, R202). -/
inductive ReqKind where
  /-- fills a destination: operation, piece, bytes wanted -/
  | load (op piece : Nat) (bytes : Nat)
  | posted
  /-- a CPYW piece: command, row, where a get puts its bytes, and its window address -/
  | copy (cmd row key : Nat) (addr : W64)
  /-- RGET: destination slice key, team, barrier, source address -/
  | rget (key team cb : Nat) (addr : VA)
  /-- GENTAG.rem -/
  | tag
deriving DecidableEq, Repr

/-- A transaction tag slot (R196). -/
structure TagSlot where
  incarnation : BitVec 5 := 0
  busy : Bool := false
  /-- the number of the request, never used again -/
  serial : Nat := 0
  vd : Nat := 0
  group : Nat := 0
  kind : ReqKind := .posted
  /-- coordinates (linearised) whose reply has not come -/
  targets : List Nat := []
  /-- port time at which TMO expires, and end of the quarantine -/
  deadline : Nat := 0
  quarantine : Option Nat := none
  /-- GRID of the request, for containment -/
  grid : BitVec 16 := 0
deriving DecidableEq, Repr

/-- A packet that the device has sent and the fabric has not yet taken: virtual channel, KIND, tag, target and the
64-bit words it carries (R198). -/
structure SentPkt where
  vc : Nat := 0
  kind : Nat := 0
  tag : BitVec 16 := 0
  gentag : BitVec 16 := 0
  port : Nat := 0
  /-- port time at which it was sent, with LIFE 4,095 (R196) -/
  sentAt : Nat := 0
  words : List W64 := []
  data : List Byte := []
deriving DecidableEq, Repr

/-- A gathering open at the col node beside a destination of this device (R194). -/
structure Gathering where
  at_ : GathKey
  vd : Nat := 0
  op : Nat := 0
  size : Nat := 0
  pattern : W64 := 0
  expected : Nat := 0
  /-- contributor's linearised coordinate and its data -/
  got : FMap (List Byte) := []
  /-- it closes with an error: the cause and MISSING that its signal is to record -/
  fail : Option (BitVec 8 × Nat) := none
  /-- contributions held for the next gathering -/
  held : List GathMsg := []
deriving DecidableEq, Repr

/-! ## Platform -/

/-- Platform state (18_platform). -/
structure Platform where
  /-- power is good and the boot sequence has run -/
  power : Bool := true
  bootFailed : Bool := false
  /-- arithmetic clock in kHz -/
  clockKHz : Nat := 1250000
  powerCap : Nat := 2400
  sensors : Option SensorReading := none
  refreshDouble : Bool := false
  /-- versions that the active and the other command-processor core run, and one that is staged (R310) -/
  firmware : Nat := 3
  standby : Nat := 3
  /-- and whether the core that took it has taken over -/
  staged : Option (Nat × Bool) := none
  /-- the firmware image carries a signature that the boot ROM verifies (17_command R301) -/
  signed : Bool := true
  rollback : Nat := 0
  /-- active command-processor core: 0 or 1 -/
  active : Nat := 0
  takeovers : Nat := 0
  heartbeats : Nat := 0
  /-- command-processor time of the last heartbeat -/
  beatAt : Nat := 0
  spdm : Nat := 0
  /-- answers given to SPDM and PLDM requests, newest first -/
  answers : List (List Nat) := []
  /-- the host has enabled protected mode of the fabric (R307) -/
  protected_ : Bool := false
  /-- corrected errors of an LPDDR5X channel within 24 hours above which it is spared: the threshold that firmware sets (04_memory R66) -/
  channelLimit : Nat := 16
  /-- AtomicOp Requester Enable of the physical function (04_memory R65) -/
  atomicEnable : Bool := false
  hostAtomics : BitVec 2 := 0
  /-- spare substitutions made per compute die -/
  spares : FMap Nat := []
  /-- corrected errors, per memory and address: command-processor times, newest first (04_memory R66) -/
  corrected : FMap (List Nat) := []
  /-- cores whose substitution has been triggered, in that order (R312) -/
  jobs : List Nat := []
  repairedRows : List Nat := []
  sparedChannels : List Nat := []
  scrubs : Nat := 0
  /-- the module has left CXL -/
  removed : Bool := false
  /-- the arithmetic clock is being lowered until its condition clears: power above the cap, a hot junction (R309) -/
  overPower : Bool := false
  overHot : Bool := false
  /-- every virtual device is being stopped: then power goes (false), or the module leaves CXL (true) -/
  leaving : Option Bool := none
deriving DecidableEq, Repr

/-! ## The model's own fields -/

/-- MODEL (log entry 7): the parts of the machine that the next event concerns. -/
structure On where
  a : Nat := 0
  b : Nat := 0
  c : Nat := 0
deriving DecidableEq, Repr

/-- MODEL (log entry 7): one step of the interleaving of agents, as plain data. -/
inductive Action where
  /-- the group issues its next word -/
  | issue (group : Nat)
  /-- an event of the opcode table comes about -/
  | event (i : Instr) (on_ : On)
  /-- the engine step of a core's sequencer that the table has no row for -/
  | engine (core : Nat)
  /-- a soft error makes the protection granule of a key uncorrectable (04_memory R67), in the home-side cache (`home`) or in the memory
  behind it; or the host no longer answers for its word with Successful Completion (R65) -/
  | spoil (key : Nat) (home : Bool)
  /-- a parity error in a 32-bit word of a line of a core's L1 (R66) -/
  | spoilL1 (core line word : Nat)
  /-- the host stores bytes into its own memory -/
  | hostStore (addr : Nat) (data : List Byte)
  /-- cycles of a clock domain pass -/
  | tick (domain n : Nat)
  /-- a command of the host's configuration space: AtomicOp Requester Enable (04_memory R65) -/
  | hostConfig (atomicEnable : Bool)
  /-- a GENTAG.rem of another device arrives: virtual device, packet, tag, operation (16_experts R380) -/
  | manage (vd : Nat) (r : FabReq)
  /-- a flit that arrives at a port fails its CRC, or its GCM tag (`tag`) (11_fabric R198, R201) -/
  | linkError (port : Nat) (tag : Bool)
  /-- a flit with this VC and KIND arrives that the other events do not stand for (R198) -/
  | oddFlit (port vc kind : Nat)
  /-- the host turns protected mode of the fabric on or off (18_platform R307) -/
  | protect (on_ : Bool)
  /-- the stored firmware image is replaced: its version, and whether its signature verifies (17_command R301) -/
  | image (version : Nat) (signed : Bool)
  /-- an uncorrectable error in a core's lane or tile storage (18_platform R311) -/
  | coreError (core : Nat)
  /-- firmware sets the threshold of channel sparing (04_memory R66) -/
  | channelLimit (n : Nat)
  /-- the command processor makes a launch of its own, from the words of a LAUNCH packet (15_faults R262) -/
  | firmwareLaunch (vd queue : Nat) (words ext : List W64)
  /-- firmware directs the restore of a saved team onto a core from the bytes of a save area (14_scheduling R246, 15_faults R270) -/
  | firmwareRestore (vd team core : Nat) (area : List Byte)
  /-- the host reads `n` bytes of a BAR of a function (17_command R282) -/
  | barRead (vd bar offset n : Nat)
deriving DecidableEq, Repr

/-- The state of the machine. -/
structure State where
  /-- one memory: device memory by physical address, slices by aperture address, host memory above 2^56 (log entry 1);
  rising addresses, no byte 0 listed -/
  mem : List Host.Cell := []
  /-- protection granules that are uncorrectable: their first key and size (04_memory R67); a host word whose accesses complete
  without success (R65) -/
  poison : List (Nat × Nat) := []
  groups : FMap Group := []
  teams : FMap Team := []
  cores : FMap Core := []
  clusters : FMap Cluster := []
  vdevs : FMap VDev := []
  launches : FMap Launch := []
  /-- owner of each granule that is not free: core * 40 + granule -> virtual device + 1 -/
  granules : FMap Nat := []
  /-- write generation and sampled bit of each granule (05_slices R71) -/
  gens : FMap (W32 × Bool) := []
  copies : FMap CopyCmd := []
  /-- claim order: commands whose claims are granted or wait -/
  claims : List Nat := []
  /-- pointer cache of the I/O die: physical address of the entry and the entry (04_memory R61) -/
  pointers : List (Nat × Nat × W64) := []
  /-- page walks pending, oldest first -/
  walks : List PendingWalk := []
  ports : FMap Port := []
  slots : FMap TagSlot := []
  sent : List SentPkt := []
  /-- replies that a paused port holds back, oldest first (11_fabric R199) -/
  outbox : List SentPkt := []
  gatherings : List Gathering := []
  contained : List (Nat × Nat) := []
  /-- incoming requests and host accesses that wait on a claim (06_copy R89), oldest first -/
  arrivals : List (Instr × On) := []
  platform : Platform := {}
  /-- last launch sequence number given (17_command R289) -/
  launchSeq : Nat := 0
  -- MODEL
  /-- arithmetic, command-processor and port cycles that have passed (log entry 2) -/
  now : Nat := 0
  cpNow : Nat := 0
  portNow : Nat := 0
  /-- the group whose word is being executed -/
  cur : Nat := 0
  on : On := {}
  agenda : List Action := []
  /-- groups that found their word not ready since the last effect (log entry 8) -/
  stalled : List Nat := []
  /-- steps taken, and free values drawn (log entry 2) -/
  steps : Nat := 0
  free : Nat := 0
  /-- events that had an effect (log entry 7) -/
  fired : Nat := 0
  /-- requests sent over the fabric so far -/
  sends : Nat := 0
  /-- keys of teams, groups and copy commands made so far: they are never used again -/
  made : Nat := 0
  /-- last answer to a host read: the bytes and the poison mark -/
  hostReply : List Byte × Bool := ([], false)
deriving DecidableEq, Repr

/-- Why a step stops with a fault. -/
inductive Fault where
  /-- raised by `step`: power has been removed (18_platform R309), and the module executes nothing until it boots. Safe: nothing is
  claimed of what follows -/
  | powerOff
deriving DecidableEq, Repr

/-- Why the model has no meaning for an instruction. -/
inductive Refusal where
  /-- raised by an arm of `exec` whose instruction has no meaning yet. Safe -/
  | notModelled (mnemonic : String)
deriving DecidableEq, Repr

/-- The machine right after reset (18_platform R307): slices and system SRAM zero, every register block at its reset
value, no team resident; virtual device 0 owns every cluster (log entry 5). -/
def State.reset : State :=
  { vdevs := [(0, { live := true, clusters := List.range 96 })] }

end Sys2Proof.Machine
end

