-- ==== Sys2Proof/Machine/Memory.lean ====
section
/-! DEFINITION. The one memory (04_memory R53 to R55, R67; 05_slices R68, R71): cells in one canonical form, keys of the
three kinds of memory, wide accesses little-endian (00_scope R4), uncorrectable granules, and what a write does beside
writing: write generations, the dirty bitmap. -/

namespace Sys2Proof.Machine

/-! ## Cells in canonical form -/

/-- What a byte that is not listed reads as (log entry 1; for slices R72, R307). -/
def Memory.blank : Byte := 0

/-- The byte at key `k`. -/
def Memory.get (m : List Host.Cell) (k : Nat) : Byte :=
  match m with
  | [] => Memory.blank
  | (k', b) :: r => if k = k' then b else Memory.get r k

/-- Writes a byte; writing the blank byte removes the entry. -/
def Memory.set (m : List Host.Cell) (k : Nat) (b : Byte) : List Host.Cell :=
  match m with
  | [] => if b = Memory.blank then [] else [(k, b)]
  | (k', b') :: r =>
    if k = k' then (if b = Memory.blank then r else (k, b) :: r)
    else if k < k' then (if b = Memory.blank then (k', b') :: r else (k, b) :: (k', b') :: r)
    else (k', b') :: Memory.set r k b

/-- Keys above `lo`, strictly rising, no blank byte listed. -/
def Memory.wfFrom (lo : Nat) (m : List Host.Cell) : Bool :=
  match m with
  | [] => true
  | (k, b) :: r => decide (lo ≤ k) && b != Memory.blank && Memory.wfFrom (k + 1) r

/-- The canonical form. -/
def Memory.wf (m : List Host.Cell) : Bool := Memory.wfFrom 0 m

/-- Writes bytes at rising keys from `k`. -/
def Memory.setBytes (m : List Host.Cell) (k : Nat) (bs : List Byte) : List Host.Cell :=
  match bs with
  | [] => m
  | b :: r => Memory.setBytes (Memory.set m k b) (k + 1) r

/-- Writes a list of cells in order. -/
def Memory.setCells (m : List Host.Cell) (cs : List Host.Cell) : List Host.Cell :=
  cs.foldl (fun m c => Memory.set m c.1 c.2) m

/-- `n` bytes from key `k`. -/
def Memory.getBytes (m : List Host.Cell) (k n : Nat) : List Byte :=
  (List.range n).map (fun i => Memory.get m (k + i))

/-- Little-endian value of bytes (R4). -/
def leValue (bs : List Byte) : Nat :=
  match bs with
  | [] => 0
  | b :: r => b.toNat + 2 ^ 8 * leValue r

/-- The `n` low bytes of a number, little-endian. -/
def leBytes (n v : Nat) : List Byte :=
  match n with
  | 0 => []
  | k + 1 => BitVec.ofNat 8 v :: leBytes k (v / 2 ^ 8)

/-! ## Keys -/

/-- Aperture address of the first byte of core 0's slice (R68). -/
def sliceBase : Nat := 0x00FE000000000000
/-- Aperture address of the own-slice alias (R53). -/
def aliasBase : Nat := 0x00FF000000000000
/-- Distance of two slices in the aperture (R68). -/
def sliceStride : Nat := 0x400000
/-- Key of a slice byte: its aperture address. -/
def sliceKey (core off : Nat) : Nat := sliceBase + core * sliceStride + off
/-- Key of the byte of device memory at a physical address. -/
def deviceKey (pa : Nat) : Nat := pa
/-- Key of a host byte. -/
def hostKey (a : Nat) : Nat := 2 ^ 56 + a
/-- The key is a slice byte's. -/
def isSliceKey (k : Nat) : Bool := decide (sliceBase ≤ k) && decide (k < aliasBase)
/-- The key is a device byte's. -/
def isDeviceKey (k : Nat) : Bool := decide (k < Config.deviceBytes)
/-- The key is a host byte's. -/
def isHostKey (k : Nat) : Bool := decide (2 ^ 56 ≤ k)
/-- Core of a slice key. -/
def keyCore (k : Nat) : Nat := (k - sliceBase) / sliceStride
/-- Offset of a slice key in its slice. -/
def keyOff (k : Nat) : Nat := (k - sliceBase) % sliceStride
/-- Granule number of a slice key, over all slices (R68). -/
def keyGranule (k : Nat) : Nat := keyCore k * 40 + keyOff k / 0x10000

/-- Channel of a physical address (R55). -/
def channelOf (pa : Nat) : Nat :=
  ((natField pa 8 5 ^^^ natField pa 13 5) ^^^ natField pa 18 5) ^^^ natField pa 23 5

/-- Channel-local address (R55). -/
def channelLocal (pa : Nat) : Nat := natField pa 13 26 * 2 ^ 8 + natField pa 0 8

/-! ## Reading and writing the machine's memory -/

/-- Bytes at a key. -/
def State.bytes (s : State) (k n : Nat) : List Byte := Memory.getBytes s.mem k n

/-- A little-endian value of `n` bytes at a key. -/
def State.loadLe (s : State) (k n : Nat) : Nat := leValue (s.bytes k n)

/-- A 64-bit word at a key. -/
def State.load64 (s : State) (k : Nat) : W64 := BitVec.ofNat 64 (s.loadLe k 8)

/-- A 32-bit word at a key. -/
def State.load32 (s : State) (k : Nat) : W32 := BitVec.ofNat 32 (s.loadLe k 4)

/-- Protection granule that covers a key (04_memory R66): a burst of 32 bytes in LPDDR5X, 64 bits in the home-side cache (`home`) and in
slices. -/
def protGranule (home : Bool) (k : Nat) : Nat × Nat :=
  if isDeviceKey k && !home then (k / 32 * 32, 32) else (k / 8 * 8, 8)

/-- Some byte of the range lies in an uncorrectable granule (R67). -/
def State.poisoned (s : State) (k n : Nat) : Bool :=
  s.poison.any (fun p => decide (p.1 < k + n) && decide (k < p.1 + p.2))

/-- The write covers some uncorrectable granule only in part: it is refused with UNCORRECTABLE (R67). -/
def State.poisonPartial (s : State) (k n : Nat) : Bool :=
  s.poison.any (fun p => decide (p.1 < k + n) && decide (k < p.1 + p.2) &&
    !(decide (k ≤ p.1) && decide (p.1 + p.2 ≤ k + n)))

/-- A byte of the range that a write to it does not reach: it lies in an uncorrectable granule that the range covers in part (R67). -/
def State.lostByte (s : State) (k n j : Nat) : Bool :=
  s.poison.any (fun p => decide (p.1 ≤ j) && decide (j < p.1 + p.2) &&
    !(decide (k ≤ p.1) && decide (p.1 + p.2 ≤ k + n)))

/-- A write that covers whole granules makes them correctable again (R67). -/
def State.healed (s : State) (k n : Nat) : List (Nat × Nat) :=
  s.poison.filter (fun p => !(decide (k ≤ p.1) && decide (p.1 + p.2 ≤ k + n)))

/-! ## What a write does beside writing -/

/-- The write generation of a granule after a write (05_slices R71). -/
def bumpGen (g : W32 × Bool) : W32 × Bool :=
  if g.2 then (if g.1 = 0xFFFFFFFF then g.1 else g.1 + 1, false) else g

/-- The granules that a range of slice keys touches. -/
def granulesOf (k n : Nat) : List Nat :=
  if n = 0 then []
  else (List.range (keyGranule (k + n - 1) - keyGranule k + 1)).map (fun i => keyGranule k + i)

/-- The slice key of an untranslated address, the own-slice alias taken for the core that accesses (R53). -/
def ownSlice (core a : Nat) : Nat := if a < aliasBase then a else sliceKey core (a - aliasBase)

/-- The byte range of a table: from SRC to the last byte of row ROWS - 1 (10_table R171), as keys. -/
def Tile.extent (t : Tile) (core rowBytes : Nat) : Nat × Nat :=
  if t.rows = 0 then (ownSlice core t.src.toNat, 0)
  else (ownSlice core t.src.toNat, (t.rows - 1) * t.ars.toNat + rowBytes)

/-- Bytes of `n` elements of an A format (10_table R162). -/
def aRowBytes (afmt n : Nat) : Nat :=
  if afmt = 4 then n / 2 else if afmt = 6 ∨ afmt = 7 then 2 * n else n

/-- K extent of one step of a table (10_table R161). -/
def Tile.k (t : Tile) : Nat :=
  if t.mode = 0 then (if t.sp then 64 else 32) else if t.mode = 1 then 128 else 64

/-- A write overlapping a watched extent sets the tile STALE (10_table R172). -/
def Tile.afterWrite (t : Tile) (core k n : Nat) : Tile :=
  let e := t.extent core (aRowBytes t.afmt t.k)
  if e.2 != 0 && decide (e.1 < k + n) && decide (k < e.1 + e.2) then
    match t.state with
    | .valid => { t with state := .stale }
    | .building => { t with hit := true }
    | _ => t
  else t

/-- Every range monitor sees a write to a slice (R172). -/
def State.noteTables (s : State) (k n : Nat) : FMap Team :=
  s.teams.mapKV (fun _ tm => { tm with tiles := tm.tiles.mapKV (fun _ t => t.afterWrite tm.core k n) })

/-- The dirty bitmap at a physical address sees a write to the 64 KiB page `page` (17_command R299). -/
def markPage (dbm : W64) (m : List Host.Cell) (page : Nat) : List Host.Cell :=
  let at_ := dbm.field 20 36 * 2 ^ 20 + page / 8
  if at_ < Config.deviceBytes then Memory.set m at_ (Memory.get m at_ ||| BitVec.ofNat 8 (2 ^ (page % 8))) else m

/-- The dirty bitmap of every tracking virtual device sees a write of `n` bytes to device memory at the home (R299). -/
def State.noteDirty (s : State) (m : List Host.Cell) (pa n : Nat) : List Host.Cell :=
  let pages := (List.range ((pa + n - 1) / 2 ^ 16 - pa / 2 ^ 16 + 1)).map (fun i => pa / 2 ^ 16 + i)
  s.vdevs.foldl (fun m v => if v.2.track then pages.foldl (markPage v.2.dbm) m else m) m

/-- Bytes become what was written at a slice: the cells, the generations and the range monitors (R71, R172). -/
def State.putSlice (s : State) (k : Nat) (bs : List Byte) : State :=
  { s with
    mem := Memory.setBytes s.mem k bs
    poison := s.healed k bs.length
    gens := (granulesOf k bs.length).foldl (fun g i => g.set i (bumpGen (g.get i (0, false)))) s.gens
    teams := s.noteTables k bs.length }

/-- A segment's granules hold its bytes. -/
def Seg.present (g : Seg) : Bool :=
  match g.state with
  | .free => false
  | .local_ => true
  | .resident => true
  | .stowing => true
  | .stowed => false
  | .restoring => false

/-- Bytes of a combine buffer whose header's first word is given (16_experts R274). -/
def bufferBytes (w : W64) : Nat :=
  64 * (w.field 0 12 + 2) + (w.field 0 12 + 1) * (w.field 12 3 + 1) * (64 * (w.field 15 7 + 1))

/-- The combine buffers that a write of slice bytes touches: first key and length of each. -/
def State.buffersAt (s : State) (k n : Nat) : List (Nat × Nat) :=
  (s.vdevs.flatMap (fun v => v.2.segs.filterMap (fun p =>
    if p.2.buffer && p.2.present then
      (let base := sliceKey p.2.core (p.2.gran * 0x10000)
       some (base, bufferBytes (s.load64 base)))
    else none))).filter (fun p => decide (p.1 < k + n) && decide (k < p.1 + p.2))

/-- The contents of the listed ranges become undefined: free values (16_experts R274, log entry 15). -/
def State.scrambled (s : State) (l : List (Nat × Nat)) : State :=
  l.foldl (fun s p =>
    { s with mem := Memory.setBytes s.mem p.1 ((List.range p.2).map (fun i => Config.freeByte (s.free + i)))
             free := s.free + p.2 }) s

/-- An agent other than the combine engine writes bytes at a slice; a combine buffer that it writes into is then undefined. -/
def State.writeSlice (s : State) (k : Nat) (bs : List Byte) : State :=
  (s.putSlice k bs).scrambled (s.buffersAt k bs.length)

/-- Bytes are written at a home-side cache (04_memory R55), marking the dirty bitmap (R299). -/
def State.writeHome (s : State) (pa : Nat) (bs : List Byte) : State :=
  { s with
    mem := if bs.isEmpty then s.mem else s.noteDirty (Memory.setBytes s.mem pa bs) pa bs.length
    poison := s.healed pa bs.length }

/-- Bytes are written at any place: slice, home or host. -/
def State.writeKey (s : State) (k : Nat) (bs : List Byte) : State :=
  if isSliceKey k then s.writeSlice k bs
  else if isDeviceKey k then s.writeHome k bs
  else { s with mem := Memory.setBytes s.mem k bs }

/-- The device keeps a signal's HINT at its home: no write for any other rule (11_fabric R192). -/
def State.writeQuiet (s : State) (k : Nat) (bs : List Byte) : State :=
  { s with mem := Memory.setBytes s.mem k bs }

end Sys2Proof.Machine
end

