-- ==== Sys2Proof/Machine/Translate.lean ====
section
/-! DEFINITION. Device virtual addresses (04_memory R53, R54, R57 to R63, R65): the walk, the TLBs, permissions and keys,
the A and D bits, and the check of one access in the order of R59. -/

namespace Sys2Proof.Machine

/-- Cause code of a cause (15_faults R258). -/
def Cause.code : Cause → BitVec 8
  | .none => 0x00
  | .illegalOpcode => 0x01
  | .reservedField => 0x02
  | .privileged => 0x03
  | .emptyRead => 0x04
  | .misaligned => 0x05
  | .pageNotPresent => 0x06
  | .pageProtection => 0x07
  | .sliceRange => 0x08
  | .hostAtomicUnsupported => 0x09
  | .maskMismatch => 0x0A
  | .stackOverflow => 0x0B
  | .windowInvalid => 0x0C
  | .windowBounds => 0x0D
  | .windowKey => 0x0E
  | .windowPerm => 0x0F
  | .patternInvalid => 0x10
  | .remoteTimeout => 0x11
  | .remoteContained => 0x12
  | .tableStale => 0x13
  | .tableIndex => 0x14
  | .shapeTruncated => 0x15
  | .attachMiss => 0x16
  | .segmentConflict => 0x17
  | .missedPromise => 0x18
  | .queueClosed => 0x19
  | .combineSlots => 0x1A
  | .generationRetired => 0x1B
  | .restoreCapacity => 0x1C
  | .uncorrectable => 0x1D
  | .breakpoint => 0x1E
  | .softwareTrap => 0x1F

/-- A fault of an access: its cause and the marks of its record (R259). -/
structure AccFault where
  cause : Cause := .none
  addr : W64 := 0
  malf : Bool := false
  wr : Bool := false
  ex : Bool := false
  host : Bool := false
  rmt : Bool := false
deriving DecidableEq, Repr

/-- Kinds of access for the permissions (R59). -/
inductive AccKind where
  | load | store | atomic | fetch
deriving DecidableEq, Repr

/-- The access is a write or an atomic. -/
def AccKind.writes : AccKind → Bool
  | .store => true
  | .atomic => true
  | .load => false
  | .fetch => false

/-! ## Accessors of the parts of the machine -/

/-- A virtual device. -/
def State.vdev (s : State) (vd : Nat) : VDev := s.vdevs.get vd {}
/-- Writes a virtual device. -/
def State.setVdev (s : State) (vd : Nat) (v : VDev) : State := { s with vdevs := s.vdevs.set vd v }
/-- A core. -/
def State.core (s : State) (c : Nat) : Core := s.cores.get c {}
/-- Writes a core. -/
def State.setCore (s : State) (c : Nat) (x : Core) : State := { s with cores := s.cores.set c x }
/-- A cluster. -/
def State.cluster (s : State) (c : Nat) : Cluster := s.clusters.get c {}
/-- Writes a cluster. -/
def State.setCluster (s : State) (c : Nat) (x : Cluster) : State := { s with clusters := s.clusters.set c x }

/-! ## Page-table entries (R57) -/

/-- Reserved bits of every entry: [57:56] and [15:9]. -/
def pteReserved (e : W64) : Bool := e.field 56 2 != 0 || e.field 9 7 != 0
/-- A pointer is well-formed: bits [15:1] and [63:56] are 0. -/
def ptrOk (e : W64) : Bool := e.field 1 15 == 0 && e.field 56 8 == 0
/-- Physical address of an entry's frame. -/
def frameOf (e : W64) : Nat := e.field 16 40 * 2 ^ 16

/-- What a walk ends with. -/
inductive Walk where
  /-- a leaf: the entry, its physical address, its size (0 64 KiB, 1 2 MiB run, 2 512 MiB) and the pointers met -/
  | leaf (e : W64) (at_ size : Nat)
  /-- not valid (false) or malformed (true) -/
  | missing (malf : Bool)
  /-- the entry at this address is uncorrectable (R67) -/
  | uncorrectable (at_ : Nat)
deriving DecidableEq, Repr

/-- Reads a page-table entry at the home (R60). A frame outside device memory reads a free word (log entry 14). -/
def State.readPte (s : State) (pa : Nat) : W64 :=
  if pa < Config.deviceBytes then s.load64 pa else Config.freeWord pa

/-- A leaf is well-formed at its level (R57): target, frame, size and contiguity bits. -/
def leafOk (level : Nat) (e : W64) : Bool :=
  !pteReserved e && decide (e.field 62 2 < 2) &&
    (if level = 1 then !e.bit 2 && e.field 16 13 == 0 else !e.bit 1) &&
    (e.field 62 2 != 0 || decide (frameOf e + (if level = 1 then 2 ^ 29 else 2 ^ 16) ≤ Config.deviceBytes))

/-- The 32 entries of a contiguous run agree (R58): valid, C, same TGT, KEY, HC, X, W, R, consecutive frames from a
multiple of 32. -/
def State.runOk (s : State) (base : Nat) : Bool :=
  let first := s.readPte base
  (e32 first) && (List.range 32).all (fun i =>
    let e := s.readPte (base + 8 * i)
    e.bit 0 && e.bit 2 && leafOk 0 e && e.field 62 2 == first.field 62 2 && e.field 58 4 == first.field 58 4 &&
      e.field 3 4 == first.field 3 4 && e.field 16 40 == first.field 16 40 + i)
where
  /-- The first frame of the run is a multiple of 32. -/
  e32 (e : W64) : Bool := e.field 16 5 == 0

/-- The level-0 part of a walk, from the table at physical address `tab`. An entry with V 0 or C 0 inside a run whose other entries have
C 1 is judged by itself, as a missing page or a 64 KiB leaf: a walk that does not find C 1 reads no other entry (DEDUCED, log entry 79). -/
def State.walk0 (s : State) (tab va : Nat) : Walk :=
  let at_ := tab + natField va 16 13 * 8
  if s.poisoned at_ 8 then .uncorrectable at_
  else
    let e := s.readPte at_
    if !e.bit 0 then .missing false
    else if !leafOk 0 e then .missing true
    else if e.bit 2 then
      (let base := tab + natField va 21 8 * 256
       match (List.range 32).find? (fun i => s.poisoned (base + 8 * i) 8) with
       | some i => .uncorrectable (base + 8 * i)
       | none => if s.runOk base then .leaf e at_ 1 else .missing true)
    else .leaf e at_ 0

/-- The level-1 part of a walk. -/
def State.walk1 (s : State) (tab va : Nat) : Walk :=
  let at_ := tab + natField va 29 13 * 8
  if s.poisoned at_ 8 then .uncorrectable at_
  else
    let e := s.readPte at_
    if !e.bit 0 then .missing false
    else if e.bit 1 then (if leafOk 1 e then .leaf e at_ 2 else .missing true)
    else if !ptrOk e then .missing true
    else s.walk0 (frameOf e) va

/-- The pointer held for a root or level-1 entry by the I/O die's pointer cache (R61). -/
def State.heldPointer (s : State) (vd at_ : Nat) : Option W64 :=
  (s.pointers.find? (fun p => p.1 == vd && p.2.1 == at_)).map (·.2.2)

/-- The walk of a virtual address (R57). -/
def State.walk (s : State) (vd va : Nat) : Walk :=
  let v := s.vdev vd
  if !v.root.bit 0 then .missing false
  else
    let at_ := v.root.field 17 39 * 2 ^ 17 + natField va 42 14 * 8
    match s.heldPointer vd at_ with
    | some e => s.walk1 (frameOf e) va
    | none =>
      if s.poisoned at_ 8 then .uncorrectable at_
      else
        let e := s.readPte at_
        if !e.bit 0 then .missing false
        else if !ptrOk e then .missing true
        else s.walk1 (frameOf e) va

/-! ## TLBs (R61) -/

/-- Cluster of a core (01_machine R10). -/
def clusterOf (core : Nat) : Nat := core / 8

/-- 64 KiB pages that a leaf of a size maps. -/
def leafPages (size : Nat) : Nat := if size = 0 then 1 else if size = 1 then 32 else 8192

/-- The entry covers the address. -/
def TlbEntry.covers (t : TlbEntry) (vd va : Nat) : Bool :=
  t.vd == vd && t.page / leafPages t.size == va / 2 ^ 16 / leafPages t.size

/-- The leaf as the entry gives it for an address that it covers: in a 2 MiB run the frame and the A and D bits of the 64 KiB page
(R58). -/
def TlbEntry.leafFor (t : TlbEntry) (va : Nat) : W64 :=
  if t.size = 1 then
    let i := va / 2 ^ 16 % 32
    (t.leaf &&& ~~~0x1F0180) ||| BitVec.ofNat 64 (i * 2 ^ 16 + bitNat (t.seenA.getLsbD i) * 2 ^ 7 + bitNat (t.seenD.getLsbD i) * 2 ^ 8)
  else t.leaf

/-- Where the entry of the page table lies that maps an address: each page of a run has its own. -/
def TlbEntry.entryAt (t : TlbEntry) (va : Nat) : Nat :=
  if t.size = 1 then t.at_ / 256 * 256 + 8 * (va / 2 ^ 16 % 32) else t.at_

/-- A leaf that a walk met, as a TLB entry. -/
def tlbEntryOf (vd page : Nat) (leaf : W64) (at_ size : Nat) : TlbEntry :=
  { vd := vd, page := page, leaf := leaf, size := size, at_ := at_
    seenA := if size = 1 ∧ leaf.bit 7 then BitVec.ofNat 32 (2 ^ (page % 32)) else 0
    seenD := if size = 1 ∧ leaf.bit 8 then BitVec.ofNat 32 (2 ^ (page % 32)) else 0 }

/-- The entry shows marks that hardware has set at an address that it covers. -/
def TlbEntry.marked (t : TlbEntry) (va : Nat) (write : Bool) : TlbEntry :=
  if t.size = 1 then
    let m : W32 := BitVec.ofNat 32 (2 ^ (va / 2 ^ 16 % 32))
    { t with seenA := t.seenA ||| m, seenD := if write then t.seenD ||| m else t.seenD }
  else { t with leaf := t.leaf ||| (if write then 0x180 else 0x80) }

/-- A translation held in the core's or its cluster's TLB. -/
def State.tlbFind (s : State) (core vd va : Nat) : Option TlbEntry :=
  match (s.core core).tlb.find? (fun t => t.covers vd va) with
  | some t => some t
  | none => (s.cluster (clusterOf core)).tlb.find? (fun t => t.covers vd va)

/-- The pending walk of a page (R61). -/
def State.walkFind (s : State) (vd page : Nat) : Option PendingWalk :=
  s.walks.find? (fun w => w.vd == vd && w.page == page)

/-- A leaf as it is used: entry, its physical address, its size. A miss in both TLBs joins the pending walk of its page and takes its
result, or walks (R61). A walk that ends with a fault is over at once, so that an access that faults walks again when it is retried. -/
def State.translate (s : State) (core vd va : Nat) : Walk :=
  match s.tlbFind core vd va with
  | some t => .leaf (t.leafFor va) (t.entryAt va) t.size
  | none =>
    match s.walkFind vd (va / 2 ^ 16) with
    | some w => .leaf w.leaf w.at_ w.size
    | none => s.walk vd va

/-- Distinct pages that the pending table holds (R61). -/
def walkLimit : Nat := 4096

/-- An access misses while the pending table is full and none of its walks is for the page: it waits (R61). -/
def State.walkFull (s : State) (core vd : Nat) (ea : W64) : Bool :=
  decide (walkLimit ≤ s.walks.length) && decide (ea.toNat < sliceBase) && (s.tlbFind core vd ea.toNat).isNone &&
    (s.walkFind vd (ea.toNat / 2 ^ 16)).isNone

/-- The physical or host address that a leaf gives (R57). -/
def leafAddress (e : W64) (size va : Nat) : Nat :=
  if size = 2 then frameOf e + natField va 0 29 else frameOf e + natField va 0 16

/-- Memory key that a leaf gives: device or host. -/
def leafKey (e : W64) (size va : Nat) : Nat :=
  if e.field 62 2 = 1 then hostKey (leafAddress e size va) else deviceKey (leafAddress e size va)

/-- A miss joins the pending walk of its page, or stands behind the others with a walk of its own `n` (R61); the answer goes to the
TLBs at PAGE_WALK_COMPLETE (log entry 24). -/
def joinWalk (ws : List PendingWalk) (n : PendingWalk) (core : Nat) : List PendingWalk :=
  match ws with
  | [] => [{ n with cores := [core] }]
  | w :: r =>
    if w.vd = n.vd ∧ w.page = n.page then
      (if w.cores.contains core then w :: r else { w with cores := w.cores ++ [core] } :: r)
    else w :: joinWalk r n core

/-- The state after a translation was needed: a miss has joined the pending walk. -/
def State.missed (s : State) (core vd va : Nat) : State :=
  match s.tlbFind core vd va with
  | some _ => s
  | none =>
    match s.translate core vd va with
    | .leaf e at_ sz => { s with walks := joinWalk s.walks { vd := vd, page := va / 2 ^ 16, leaf := e, at_ := at_, size := sz } core }
    | .missing _ => s
    | .uncorrectable _ => s

/-! ## Permissions and keys (R59) -/

/-- The leaf's permissions allow the access. -/
def permOk (e : W64) (k : AccKind) : Bool :=
  match k with
  | .load => e.bit 3
  | .store => e.bit 4
  | .atomic => e.bit 3 && e.bit 4
  | .fetch => e.bit 5 && e.field 62 2 == 0

/-- The key of the leaf allows the access: AD forbids every access, WD writes and atomics. -/
def keyOk (keys e : W64) (k : AccKind) : Bool :=
  let kk := e.field 58 4
  !keys.bit (2 * kk) && !(k.writes && keys.bit (2 * kk + 1))

/-- Hardware sets A at an access and D at a write, by an atomic OR at the entry's home, and the copies in the TLBs
follow (R59). An entry that already shows the marks is left alone. -/
def State.markAD (s : State) (core vd va at_ : Nat) (e : W64) (write : Bool) : State :=
  if e.bit 7 && (e.bit 8 || !write) then s
  else
    let bits : W64 := if write then 0x180 else 0x80
    let s1 := if at_ < Config.deviceBytes then s.writeHome at_ (leBytes 8 (s.load64 at_ ||| bits).toNat) else s
    let fix := fun (l : List TlbEntry) => l.map (fun t => if t.covers vd va then t.marked va write else t)
    let s1w := { s1 with walks := s1.walks.map (fun (w : PendingWalk) =>
      if w.vd = vd ∧ w.page = va / 2 ^ 16 then { w with leaf := w.leaf ||| bits } else w) }
    let s2 := s1w.setCore core { s1w.core core with tlb := fix (s1w.core core).tlb }
    let cl := clusterOf core
    s2.setCluster cl { s2.cluster cl with tlb := fix (s2.cluster cl).tlb }

/-! ## One access checked in the order of R59 -/

/-- Where an access goes. -/
inductive Place where
  /-- a slice byte, by its key -/
  | slice (key : Nat)
  /-- device memory: physical address, leaf, and where the leaf lies -/
  | device (pa : Nat) (e : W64) (at_ : Nat)
  /-- host memory: host address, leaf, and where the leaf lies -/
  | host (addr : Nat) (e : W64) (at_ : Nat)
deriving DecidableEq, Repr

/-- Memory key of a place. -/
def Place.key : Place → Nat
  | .slice k => k
  | .device pa _ _ => deviceKey pa
  | .host a _ _ => hostKey a

/-- The place is host memory. -/
def Place.isHost : Place → Bool
  | .host _ _ _ => true
  | .slice _ => false
  | .device _ _ _ => false

/-- Bits above the 56 of a device virtual address are 0 (R53). -/
def addrOk (ea : W64) : Bool := decide (ea.toNat < 2 ^ 56)

/-- The slice key of an untranslated address, or none (R53, R54): `vd` is the accessing virtual device. -/
def State.sliceAt (s : State) (core vd a : Nat) : Option Nat :=
  if aliasBase ≤ a then
    (if a - aliasBase < Config.sliceBytes then some (sliceKey core (a - aliasBase)) else none)
  else
    let c := (a - sliceBase) / sliceStride
    let off := (a - sliceBase) % sliceStride
    if c < Config.nCores ∧ off < Config.sliceBytes ∧ (s.vdev vd).clusters.contains (clusterOf c) then
      some (sliceKey c off)
    else none

/-- The check of one access of `size` bytes at `ea`: the place, or the first fault of R59. For a walk that reads an uncorrectable entry
the spec names no address, and the record holds the physical address of that entry (DESIGN CHOICE, log entry 80). -/
def State.check (s : State) (core vd : Nat) (ea : W64) (size : Nat) (k : AccKind) : Except AccFault Place :=
  let f : AccFault := { addr := ea, wr := k.writes, ex := k == .fetch }
  if !addrOk ea then .error { f with cause := .pageNotPresent }
  else
    let a := ea.toNat
    if sliceBase ≤ a then
      if k == .fetch then .error { f with cause := .pageProtection }
      else
        match s.sliceAt core vd a with
        | none => .error { f with cause := .sliceRange }
        | some key => if a % size != 0 then .error { f with cause := .misaligned } else .ok (.slice key)
    else if a % size != 0 then .error { f with cause := .misaligned }
    else
      match s.translate core vd a with
      | .missing malf => .error { f with cause := .pageNotPresent, malf := malf }
      | .uncorrectable at_ => .error { f with cause := .uncorrectable, addr := BitVec.ofNat 64 at_ }
      | .leaf e at_ sz =>
        let host := e.field 62 2 == 1
        if !permOk e k || !keyOk (s.vdev vd).keys e k then
          .error { f with cause := .pageProtection, host := host }
        else if host then .ok (.host (leafAddress e sz a) e at_)
        else .ok (.device (leafAddress e sz a) e at_)

/-- The marks that a checked access leaves: a joined walk, A and D (R59, R61). -/
def State.touch (s : State) (core vd : Nat) (ea : W64) (p : Place) (write : Bool) : State :=
  match p with
  | .slice _ => s
  | .device _ e at_ => (s.missed core vd ea.toNat).markAD core vd ea.toNat at_ e write
  | .host _ e at_ => (s.missed core vd ea.toNat).markAD core vd ea.toNat at_ e write

/-- Why an atomic on host memory is refused, if it is (R65): `bits64` the width, `simple` an ADD, XCH or CAS. -/
def State.hostAtomicOk (s : State) (bits64 simple : Bool) : Bool :=
  simple && s.platform.atomicEnable && (if bits64 then s.platform.hostAtomics.getLsbD 1 else s.platform.hostAtomics.getLsbD 0)

end Sys2Proof.Machine
end

