-- ==== Sys2Proof/Machine/HostLink.lean ====
section
/-! DEFINITION. What the device tells the host: journal records (17_command R295) and the event ring (R293). -/

namespace Sys2Proof.Machine

/-- A queue of a virtual device. -/
def State.hqueue (s : State) (vd q : Nat) : HQueue := (s.vdev vd).queues.get q {}
/-- Writes a queue. -/
def State.setHqueue (s : State) (vd q : Nat) (x : HQueue) : State :=
  s.setVdev vd { s.vdev vd with queues := (s.vdev vd).queues.set q x }

/-- Records that a journal partition holds (R295). -/
def VDev.journalSize (v : VDev) : Nat := v.journalMiB * 2 ^ 20 / 32

/-- Appends a journal record, newest first; the oldest are overwritten (R295). -/
def State.journal (s : State) (vd type_ queue : Nat) (status : BitVec 8) (index : Nat) (a b : W64) : State :=
  let v := s.vdev vd
  let r : JRecord :=
    { seq := v.jseq + 1, type_ := type_, queue := queue, status := status,
      index := BitVec.ofNat 32 index, a := a, b := b }
  s.setVdev vd { v with jseq := v.jseq + 1, journal := (r :: v.journal).take v.journalSize }

/-- First word of a journal record's second half and of an event, packed as R295 gives. -/
def JRecord.word1 (r : JRecord) (vd : Nat) : W64 :=
  BitVec.ofNat 64 (r.type_ + vd * 2 ^ 8 + r.queue * 2 ^ 12 + r.status.toNat * 2 ^ 24 + r.index.toNat * 2 ^ 32)

/-- First word of an event (R293). -/
def Event.word0 (e : Event) : W64 :=
  BitVec.ofNat 64 (e.type_ + e.cause.toNat * 2 ^ 8 + e.queue * 2 ^ 16 + e.cookie.toNat * 2 ^ 32)

/-- The 32 bytes of an event (R293). -/
def Event.bytes (e : Event) : List Byte :=
  leBytes 8 e.word0.toNat ++ leBytes 8 e.index.toNat ++ leBytes 8 e.a.toNat ++ leBytes 8 e.b.toNat

/-- The place of `size` bytes at a virtual address, as the I/O die reaches it: through the tables, in no TLB. No core makes the access,
so the own-slice alias names no slice: SLICE_RANGE (DESIGN CHOICE, log entry 81). -/
def State.ioPlace (s : State) (vd a size : Nat) (k : AccKind) : Except AccFault Nat :=
  let f : AccFault := { addr := BitVec.ofNat 64 a, wr := k.writes }
  if 2 ^ 56 ≤ a then .error { f with cause := .pageNotPresent }
  else if sliceBase ≤ a then
    (match s.sliceAt 0 vd a with
    | none => .error { f with cause := .sliceRange }
    | some key =>
      if aliasBase ≤ a then .error { f with cause := .sliceRange }
      else if a % size != 0 then .error { f with cause := .misaligned }
      else .ok key)
  else if a % size != 0 then .error { f with cause := .misaligned }
  else
    match s.walk vd a with
    | .missing malf => .error { f with cause := .pageNotPresent, malf := malf }
    | .uncorrectable at_ => .error { f with cause := .uncorrectable, addr := BitVec.ofNat 64 at_ }
    | .leaf e _ sz =>
      if !permOk e k || !keyOk (s.vdev vd).keys e k then
        .error { f with cause := .pageProtection, host := e.field 62 2 == 1 }
      else .ok (leafKey e sz a)

/-- An access of the I/O die: its place, unless the data there are uncorrectable (04_memory R67). -/
def State.ioCheck (s : State) (vd a size : Nat) (k : AccKind) : Except AccFault Nat :=
  match s.ioPlace vd a size k with
  | .error f => .error f
  | .ok key =>
    if k.writes && s.poisonPartial key size || !k.writes && s.poisoned key size then
      .error { cause := .uncorrectable, addr := BitVec.ofNat 64 a, wr := k.writes }
    else .ok key

/-- The marks A, and D at a write, that an access of the I/O die leaves in the leaf of its page (R59). -/
def State.ioMark (s : State) (vd a : Nat) (write : Bool) : State :=
  if sliceBase ≤ a then s
  else
    match s.walk vd a with
    | .leaf e at_ _ =>
      if e.bit 7 && (e.bit 8 || !write) then s
      else if at_ < Config.deviceBytes then
        s.writeHome at_ (leBytes 8 (s.load64 at_ ||| (if write then 0x180 else 0x80)).toNat)
      else s
    | .missing _ => s
    | .uncorrectable _ => s

/-- A write by the I/O die. -/
def State.ioWrite (s : State) (vd a : Nat) (bs : List Byte) : Except AccFault State :=
  match s.ioCheck vd a (if bs.length = 0 then 1 else bs.length) .store with
  | .error f => .error f
  | .ok key => .ok ((s.ioMark vd a true).writeKey key bs)

/-- A read by the I/O die of `size` bytes. -/
def State.ioRead (s : State) (vd a size : Nat) : Except AccFault (List Byte) :=
  match s.ioCheck vd a size .load with
  | .error f => .error f
  | .ok key => .ok (s.bytes key size)

/-- What an attempt to put an event into the ring comes to. -/
inductive RingEnd where
  | done (s : State)
  | full
  /-- a write of the entry or of the header could not be made -/
  | broken

/-- Puts one event into the ring, if it is enabled and has room (R293): a fresh ring's header is zeroed first, then the
entry is written, then WIDX. -/
def State.ringPut (s : State) (vd : Nat) (e : Event) : RingEnd :=
  let v := s.vdev vd
  let base := v.evBase.toNat
  if !v.evEn || v.evStuck then .full
  else
    match s.ioRead vd (base + 8) 8 with
    | .error _ => .broken
    | .ok rb =>
      let ridx := leValue rb
      if v.evWidx - ridx = 2 ^ v.evLog2n ∧ !v.evFresh then .full
      else
        let s0 : Except AccFault State :=
          if v.evFresh then
            (match s.ioWrite vd base (leBytes 8 0) with
            | .error f => .error f
            | .ok s1 => s1.ioWrite vd (base + 16) (leBytes 8 0))
          else .ok s
        match s0 with
        | .error _ => .broken
        | .ok s1 =>
          match s1.ioWrite vd (base + 64 + 32 * (v.evWidx % 2 ^ v.evLog2n)) e.bytes with
          | .error _ => .broken
          | .ok s2 =>
            match s2.ioWrite vd base (leBytes 8 (v.evWidx + 1)) with
            | .error _ => .broken
            | .ok s3 => .done (s3.setVdev vd { s3.vdev vd with evWidx := v.evWidx + 1, evFresh := false })

/-- An event that the ring did not take waits in the device's buffer; a queue error becomes an OVERFLOW event, and OVF is set in
the header (R293). After a write that failed, nothing is tried until EVBASE or EVCTL is written. -/
def State.buffer (s : State) (vd : Nat) (e : Event) (broken : Bool) : State :=
  let v := s.vdev vd
  let e' : Event := if e.type_ = 2 then { type_ := 3, queue := e.queue } else e
  let s1 := s.setVdev vd { v with evBuffer := v.evBuffer ++ [e'], evStuck := v.evStuck || broken }
  if e.type_ = 2 && v.evEn then
    (match s1.ioWrite vd (v.evBase.toNat + 16) (leBytes 8 1) with
    | .ok s2 => s2
    | .error _ => s1)
  else s1

/-- Posts an event: at once where the ring takes it and none waits before it, else into the device's buffer. -/
def State.post (s : State) (vd : Nat) (e : Event) : State :=
  if (s.vdev vd).evBuffer.isEmpty then
    match s.ringPut vd e with
    | .done s' => s'
    | .full => s.buffer vd e false
    | .broken => s.buffer vd e true
  else s.buffer vd e false

/-! ## Replay capture (R296) -/

/-- What a captured record tells. -/
inductive CaptureKind where
  | launch | hostRead | fabricWrite | atomic
deriving DecidableEq, Repr

/-- Number of a kind of record. -/
def CaptureKind.num : CaptureKind → Nat
  | .launch => 1
  | .hostRead => 2
  | .fabricWrite => 3
  | .atomic => 4

/-- A record as it stands in the buffer: one word with the kind in [63:56] and the number of words that follow, then these. The spec names
what is recorded and gives no layout (DESIGN CHOICE, log entry 100). -/
def captureRecord (k : CaptureKind) (ws : List W64) : List W64 := BitVec.ofNat 64 (k.num * 2 ^ 56 + ws.length) :: ws

/-- Capture stops, with a QUEUE_ERROR on queue 0. -/
def State.stopCapture (s : State) (vd : Nat) : State := (s.setVdev vd { s.vdev vd with capOn := false }).post vd { type_ := 2 }

/-- A record goes to the buffer at CAPBASE, where capture is on; a full buffer, or one that cannot be written, stops it. -/
def State.capture (s : State) (vd : Nat) (k : CaptureKind) (ws : List W64) : State :=
  let v := s.vdev vd
  let rs := captureRecord k ws
  let n := 8 * v.capture.length
  if !v.capOn then s
  else if v.capLen.toNat * 0x10000 < n + 8 * rs.length then s.stopCapture vd
  else
    match (List.range rs.length).foldl (fun (r : Except AccFault State) i => match r with
        | .error f => .error f
        | .ok s1 => s1.ioWrite vd (v.capBase.toNat + n + 8 * i) (leBytes 8 (rs.getD i 0).toNat)) (.ok s) with
    | .error _ => s.stopCapture vd
    | .ok s1 => s1.setVdev vd { s1.vdev vd with capture := v.capture ++ rs }

/-- An input of the launches captured: a host-memory read, a fabric write at a slice, an atomic. -/
def State.captureInput (s : State) (vd : Nat) (k : CaptureKind) (ws : List W64) : State :=
  if (s.vdev vd).capture.isEmpty then s else s.capture vd k ws

/-- The bytes of a host-memory read, with its address. -/
def State.captureRead (s : State) (vd : Nat) (a : W64) (bs : List Byte) : State :=
  s.captureInput vd .hostRead (a :: (List.range ((bs.length + 7) / 8)).map (fun i => BitVec.ofNat 64 (leValue ((bs.drop (8 * i)).take 8))))

end Sys2Proof.Machine
end

