-- ==== Sys2Proof/Machine/Ops.lean ====
section
/-! DEFINITION. The named operations over groups, threads, registers and queues, and the exceptions: parking a thread,
taking a trap, the double fault, the report, and the return from a trap (15_faults R259 to R262, R376). -/

namespace Sys2Proof.Machine

/-! ## Groups, threads, teams -/

/-- A group. -/
def State.group (s : State) (k : Nat) : Group := s.groups.get k {}
/-- Writes a group. -/
def State.setGroup (s : State) (k : Nat) (g : Group) : State := { s with groups := s.groups.set k g }
/-- The group whose word is executed. -/
def State.grp (s : State) : Group := s.group s.cur
/-- Writes the group whose word is executed. -/
def State.setGrp (s : State) (g : Group) : State := s.setGroup s.cur g
/-- A team. -/
def State.team (s : State) (k : Nat) : Team := s.teams.get k {}
/-- Writes a team. -/
def State.setTeam (s : State) (k : Nat) (t : Team) : State := { s with teams := s.teams.set k t }
/-- A launch. -/
def State.launch (s : State) (k : Nat) : Launch := s.launches.get k {}
/-- Writes a launch. -/
def State.setLaunch (s : State) (k : Nat) (l : Launch) : State := { s with launches := s.launches.set k l }
/-- Team key, team, core, virtual device and launch of the executing group. -/
def State.curTeam (s : State) : Team := s.team s.grp.team
/-- Core of the executing group. -/
def State.curCore (s : State) : Nat := s.curTeam.core
/-- Virtual device of the executing group. -/
def State.curVd (s : State) : Nat := s.curTeam.vd
/-- A thread of a group. -/
def Group.thread (g : Group) (t : Nat) : Thread := g.threads.get t {}
/-- Writes a thread. -/
def Group.setThread (g : Group) (t : Nat) (x : Thread) : Group := { g with threads := g.threads.set t x }

/-- The indices of the threads of a group. -/
def threadIds : List Nat := List.range 32

/-- A predicate as a guard or an operand reads it: p0 reads true (07_registers R99). -/
def Thread.pred (x : Thread) (p : Fin 8) : Bool := p == 0 || x.preds.getLsbD p.val
/-- Writes a predicate; a write to p0 is discarded (02_encoding R26). -/
def Thread.setPred (x : Thread) (p : Fin 8) (b : Bool) : Thread :=
  if p = 0 then x
  else { x with preds := if b then x.preds ||| BitVec.ofNat 8 (2 ^ p.val) else x.preds &&& ~~~BitVec.ofNat 8 (2 ^ p.val) }
/-- A condition as a guard or an operand reads it: c0 reads true. -/
def Group.cond (g : Group) (c : Fin 4) : Bool := c == 0 || g.conds.getLsbD c.val
/-- Writes a condition; a write to c0 is discarded (R26). -/
def Group.setCond (g : Group) (c : Fin 4) (b : Bool) : Group :=
  if c = 0 then g
  else { g with conds := if b then g.conds ||| BitVec.ofNat 4 (2 ^ c.val) else g.conds &&& ~~~BitVec.ofNat 4 (2 ^ c.val) }

/-- A thread's vector register. -/
def Thread.reg (x : Thread) (r : Nat) : W32 := x.v.get r 0
/-- State of a thread's vector register (R101). -/
def Thread.regState (x : Thread) (r : Nat) : Full := x.vst.get r .full
/-- A group register. -/
def Group.reg (g : Group) (r : Nat) : W64 := g.g.get r 0
/-- State of a group register. -/
def Group.regState (g : Group) (r : Nat) : Full := g.gst.get r .full

/-- A thread's record is discarded once none of its registers is FAULTED, it is not parked (R101) and it holds no error of a store
(09_access R150). -/
def Thread.tidy (x : Thread) : Thread :=
  if x.st = .parked ∨ x.vst.any (fun p => p.2 == .faulted) ∨ x.storeFault.isSome then x else { x with fault := {} }
/-- A group's record is discarded once none of its registers is FAULTED and it is not in trap context (R101). -/
def Group.tidy (g : Group) : Group :=
  if g.trap ∨ g.gst.any (fun p => p.2 == .faulted) then g else { g with fault := {} }

/-- Gives a vector register a state, which may discard the fault record. -/
def Thread.setState (x : Thread) (r : Nat) (f : Full) : Thread :=
  if x.regState r = .faulted ∧ f ≠ .faulted then Thread.tidy { x with vst := x.vst.set r f }
  else { x with vst := x.vst.set r f }
/-- Writes a vector register: the value, FULL (R104). -/
def Thread.write (x : Thread) (r : Nat) (w : W32) : Thread :=
  Thread.setState { x with v := x.v.set r w } r .full
/-- Gives a group register a state, which may discard the fault record. -/
def Group.setState (g : Group) (r : Nat) (f : Full) : Group :=
  if g.regState r = .faulted ∧ f ≠ .faulted then Group.tidy { g with gst := g.gst.set r f }
  else { g with gst := g.gst.set r f }
/-- Writes a group register: the value, FULL (R104). -/
def Group.write (g : Group) (r : Nat) (w : W64) : Group :=
  Group.setState { g with g := g.g.set r w } r .full

/-! ## The head run (13_execution R229) -/

/-- The lowest PC that a READY thread holds. -/
def Group.headPc (g : Group) : Option VA :=
  g.threads.foldl (fun m p =>
    if p.2.st = .ready then
      (match m with
      | none => some p.2.pc
      | some x => if p.2.pc.toNat < x.toNat then some p.2.pc else some x)
    else m) none

/-- The threads of the head run, ascending. -/
def Group.run (g : Group) : List Nat :=
  match g.headPc with
  | none => []
  | some pc => g.threads.keysWhere (fun _ x => x.st == .ready && x.pc == pc)

/-- The address from which the group issues: the head run's PC, or in trap context the handler's. -/
def Group.issuePc (g : Group) : Option VA := if g.trap then some g.hpc else g.headPc

/-- The address of the word being executed; 0 where there is none. -/
def Group.pc (g : Group) : VA :=
  match g.issuePc with
  | some pc => pc
  | none => 0

/-- A 32-bit mask of thread indices. -/
def maskOf (ts : List Nat) : W32 := ts.foldl (fun m t => m ||| BitVec.ofNat 32 (2 ^ t)) 0

/-- Applies a function to the threads listed. -/
def Group.mapThreads (g : Group) (ts : List Nat) (f : Nat → Thread → Thread) : Group :=
  { g with threads := g.threads.mapKV (fun t x => if ts.contains t then f t x else x) }

/-- The word after the one being executed: each thread of the run, or the handler, goes on to it. -/
def Group.advance (g : Group) : Group :=
  if g.trap then { g with hpc := g.hpc + 4 }
  else g.mapThreads g.run (fun _ x => { x with pc := x.pc + 4 })

/-- The run, or the handler, goes to an address. -/
def Group.jump (g : Group) (a : VA) : Group :=
  if g.trap then { g with hpc := a }
  else g.mapThreads g.run (fun _ x => { x with pc := a })

/-! ## Counters of time -/

/-- A core's cycle counter (15_faults R263; log entry 2). -/
def State.cyc (s : State) (core : Nat) : W64 := BitVec.ofNat 64 s.now + Config.cycOffset core

/-- A free value is drawn. -/
def State.draw (s : State) : State := { s with free := s.free + 1 }

/-! ## Waiting and having an effect (log entry 8) -/

/-- The executing group found its word not ready: it waits at it. -/
def State.stall (s : State) (i : Instr) : State :=
  { s.setGrp { s.grp with waitWord := some i } with
    stalled := if s.stalled.contains s.cur then s.stalled else s.cur :: s.stalled }

/-- Something happened: whoever waits may look again. -/
def State.fire (s : State) : State := { s with stalled := [], fired := s.fired + 1 }

/-- A group no longer waits on a signal: the signal's HINT counts it no more, held at 0 (11_fabric R192). -/
def State.unhint (s : State) (k : Nat) : State :=
  match (s.group k).hint with
  | none => s
  | some key =>
    (s.writeQuiet key (leBytes 4 (s.loadLe key 4 - 1))).setGroup k { s.group k with hint := none }

/-- A group begins to wait on the signal whose word 1 has this key. -/
def State.addHint (s : State) (k key : Nat) : State :=
  match (s.group k).hint with
  | some _ => s
  | none =>
    (s.writeQuiet key (leBytes 4 (min (s.loadLe key 4 + 1) 0xFFFFFFFF))).setGroup k { s.group k with hint := some key }

/-- The executing group's word has been performed or has faulted: the group no longer waits at it. -/
def State.finish (s0 : State) : State :=
  let s := s0.unhint s0.cur
  (s.setGrp { s.grp with waitWord := none, agen := 0, replyWait := none, cbWait := none,
                         cancelWait := none, sleepLeft := none, inPipe := false, lastIssue := s.now }).fire

/-! ## Fault records, parking (15_faults R259, 13_execution R235) -/

/-- ENTRIES field of `regctr` (R236). -/
def Group.entriesCount (g : Group) : W32 := BitVec.ofNat 32 (g.regctr.field 32 32)

/-- The record of a fault of a word at `fpc`. -/
def faultRec (f : AccFault) (fpc rpc : VA) (entries : W32) : FaultRec :=
  { addr := f.addr, cause := f.cause.code, fpc := fpc, rpc := rpc, entries := entries, v := true,
    malf := f.malf, wr := f.wr, ex := f.ex, host := f.host, rmt := f.rmt }

/-- The record of a fault that a thread holds. -/
def Group.threadRec (g : Group) (x : Thread) (f : AccFault) : FaultRec :=
  faultRec f x.pc x.entry g.entriesCount

/-- The thread parks at its word with a new record, DEF 0 (R101, R235). -/
def Group.parkThread (g : Group) (t : Nat) (f : AccFault) : Group :=
  let x := g.thread t
  g.setThread t { x with st := .parked, fault := g.threadRec x f }

/-- The thread parks at the first read of a FAULTED register: the record that it holds is kept (R101). -/
def Group.parkDeferred (g : Group) (t : Nat) : Group :=
  g.setThread t { g.thread t with st := .parked }

/-- A fault that has no address of its own. -/
def plainFault (c : Cause) : AccFault := { cause := c }

/-! ## Traps (R261) -/

/-- An event of a team, with the packet of its launch: 4 TEAM_FAULT, 5 RESTORE_REFUSED (17_command R293). -/
def State.postTeam (s : State) (tm : Team) (type_ : Nat) (cause : BitVec 8) : State :=
  let l := s.launch tm.launch
  s.post tm.vd
    { type_ := type_, cause := cause, queue := l.queue, cookie := l.cookie, index := BitVec.ofNat 64 l.packet,
      a := BitVec.ofNat 64 tm.launch, b := BitVec.ofNat 64 tm.index }

/-- The TEAM_FAULT event of a resident team. -/
def State.reportTeam (s : State) (team : Nat) (cause : BitVec 8) : State :=
  let tm := s.team team
  (s.setTeam team { tm with reported := cause }).postTeam tm 4 cause

/-- What a trap writes. -/
structure TrapInfo where
  cause : BitVec 8
  addr : W64
  /-- resume address for `trappc` -/
  pc : VA
  mask : W32
  report : Bool := false

/-- Taking an exception (R261): in trap context a double fault, which holds the group and reports the second cause;
otherwise the trap CSRs are written, and control passes to `tvec`, or the group is held and reported. -/
def State.enterTrap (s : State) (k : Nat) (i : TrapInfo) : State :=
  let g := s.group k
  if g.trap then
    (s.setGroup k { g with held := true }).reportTeam g.team i.cause
  else
    let handled := g.tvec != 0 && g.tcmask.getLsbD i.cause.toNat
    let g1 : Group :=
      { g with trapcause := i.cause, trapaddr := i.addr, trappc := i.pc, trapmask := i.mask, trap := true,
               report := i.report, hpc := if handled then g.tvec else 0, held := !handled }
    let s1 := s.setGroup k g1
    if handled then s1 else s1.reportTeam g.team i.cause

/-- A group's own record of a fault at its word: GRP 1, RPC 0 (R259). -/
def Group.ownRec (g : Group) (f : AccFault) : FaultRec := { faultRec f g.pc 0 g.entriesCount with grp := true }

/-- A group traps: its new record, unless it is in trap context, then the entry (R261). `pc` is `trappc`. -/
def State.trapWith (s : State) (k : Nat) (r : FaultRec) (pc : VA) (mask : W32) : State :=
  let g := s.group k
  let s1 := if g.trap then s else s.setGroup k { g with fault := r }
  s1.enterTrap k { cause := r.cause, addr := r.addr, pc := pc, mask := mask }

/-- The executing group's word faults and was not performed: `trappc` is the word (R261). -/
def State.trap (s : State) (f : AccFault) : State :=
  s.finish.trapWith s.cur (s.grp.ownRec f) s.grp.pc (maskOf s.grp.run)

/-- The executing group reads a FAULTED register: the record that it holds is kept and reported (R101, R103). -/
def State.trapDeferred (s : State) : State :=
  let g := s.grp
  s.finish.enterTrap s.cur { cause := g.fault.cause, addr := g.fault.addr, pc := g.pc, mask := maskOf g.run }

/-- The lowest-numbered parked thread (R262). -/
def Group.firstParked (g : Group) : Option Nat := (g.threads.keysWhere (fun _ x => x.st == .parked)).head?

/-- A settled group with parked threads enters trap context as a report (R262). -/
def State.enterReport (s : State) (k : Nat) : State :=
  let g := s.group k
  match g.firstParked with
  | none => s
  | some t =>
    let waitPc := (g.threads.filter (fun p => p.2.st == .wait)).foldl
      (fun m p => match m with
        | none => some p.2.pc
        | some x => if p.2.pc.toNat < x.toNat then some p.2.pc else some x) (none : Option VA)
    s.enterTrap k
      { cause := (g.thread t).fault.cause, addr := (g.thread t).fault.addr,
        pc := match waitPc with
          | some a => a
          | none => 0,
        mask := maskOf (g.threads.keysWhere (fun _ x => x.st == .parked)), report := true }

/-! ## Return from a trap (R262, R376) -/

/-- A parked thread goes on when its report ends: record discarded, FAULTED registers EMPTY, READY at RPC (R262). -/
def Thread.resume (x : Thread) : Thread :=
  { x with st := .ready, pc := x.fault.rpc, fault := {}, storeFault := none, waitAt := none,
           vst := x.vst.mapKV (fun _ f => if f = .faulted then .empty else f) }

/-- RTE (R376), and the resume of a held group (R262): a report ends, or the threads of `trapmask` take `trappc`. The group's own record
is discarded, and with it its FAULTED registers become EMPTY, as a resumed thread's do (DEDUCED, log entry 78). -/
def Group.leaveTrap (g : Group) : Group :=
  let g1 :=
    if g.report then { g with threads := g.threads.mapKV (fun _ x => if x.st = .parked then x.resume else x) }
    else { g with threads := g.threads.mapKV (fun t x => if g.trapmask.getLsbD t then { x with pc := g.trappc } else x) }
  { g1 with trap := false, report := false, fault := {}, held := false, hpc := 0
            gst := g1.gst.mapKV (fun _ f => if f = .faulted then .empty else f) }

/-! ## Operand queues (07_registers R108 to R113) -/

/-- How a port of a group is linked (R108). -/
inductive PortUse where
  | unlinked
  /-- producer side: the consumer group and its port -/
  | producer (group port : Nat)
  | consumer
deriving DecidableEq, Repr

/-- A queue of a group. -/
def Group.queue (g : Group) (q : Nat) : Queue := g.queues.get q {}
/-- Writes a queue. -/
def Group.setQueue (g : Group) (q : Nat) (x : Queue) : Group := { g with queues := g.queues.set q x }

/-- The group of a team that has a role and an index in it. -/
def State.groupOfRole (s : State) (team role idx : Nat) : Option Nat :=
  (s.team team).groups.find? (fun k => (s.group k).role == role && (s.group k).roleIdx == idx)

/-- How port `q` of group `k` is linked: the table is fixed at launch (R108). -/
def State.portUse (s : State) (k q : Nat) : PortUse :=
  let g := s.group k
  let tm := s.team g.team
  match tm.spawnBin with
  | some _ => .unlinked
  | none =>
    let links := (s.launch tm.launch).links
    match links.find? (fun l => g.role == 1 && l.1 == g.roleIdx && l.2.1 == q) with
    | some l =>
      (match s.groupOfRole g.team 2 l.2.2.1 with
      | some c => .producer c l.2.2.2
      | none => .producer k q)
    | none =>
      if links.any (fun l => g.role == 2 && l.2.2.1 == g.roleIdx && l.2.2.2 == q) then .consumer else .unlinked

/-- Group and queue that hold the entries of a port. -/
def State.portHome (s : State) (k q : Nat) : Nat × Nat :=
  match s.portUse k q with
  | .producer c m => (c, m)
  | .unlinked => (k, q)
  | .consumer => (k, q)

/-- The queue behind a port; that of a group that has ended counts as closed (R111). -/
def State.portQueue (s : State) (k q : Nat) : Queue :=
  let h := s.portHome k q
  let g := s.group h.1
  if g.live then g.queue h.2 else { g.queue h.2 with closed := true }

/-- What a pop of a port finds (R103, R110, R111). -/
inductive PopState where
  | ready (e : QEntry)
  | empty
  | closed
  /-- an entry that pending QGETs do not claim stands behind theirs: the pop waits for them -/
  | behind
deriving DecidableEq, Repr

/-- What a pop finds: the pending QGETs pop before it (R113), and an entry that they claim is not there for it. -/
def Queue.front (q : Queue) : PopState :=
  match q.entries.drop q.gets.length with
  | [] => if q.closed then .closed else .empty
  | e :: _ => if q.gets.isEmpty then .ready e else .behind

/-- Removes the head entry. -/
def Queue.popped (q : Queue) : Queue := { q with entries := q.entries.tail }

/-- Pops the executing group's port. -/
def State.popPort (s : State) (q : Nat) : State :=
  s.setGrp (s.grp.setQueue q ((s.grp.queue q).popped))

/-- Pushes an entry through a port of the executing group. -/
def State.pushPort (s : State) (q : Nat) (e : QEntry) : State :=
  let h := s.portHome s.cur q
  let g := s.group h.1
  let x := g.queue h.2
  s.setGroup h.1 (g.setQueue h.2 { x with entries := x.entries ++ [e] })

/-- Value that a lane thread takes from an entry (R109). -/
def QEntry.lane (e : QEntry) (t : Nat) : W32 :=
  match e with
  | .perThread vs => vs.getD t 0
  | .uniform v => v.truncate 32

/-- Value that a group word takes from an entry (R109): thread 0's value, zero-extended, or the 64 bits. -/
def QEntry.group (e : QEntry) (w : Bool) : W64 :=
  match e with
  | .perThread vs => (vs.getD 0 0).zeroExtend 64
  | .uniform v => if w then v else (v.truncate 32).zeroExtend 64

/-! ## Outstanding operations (14_scheduling R254) -/

/-- The request is an RGET's. -/
def ReqKind.isGet : ReqKind → Bool
  | .rget _ _ _ _ => true
  | .load _ _ _ => false
  | .posted => false
  | .copy _ _ _ _ => false
  | .tag => false

/-- Copy commands of a group that have not completed. -/
def State.groupCopies (s : State) (k : Nat) : List Nat :=
  s.copies.keysWhere (fun _ c => c.group == k && c.phase != .done && c.kind != .stow && c.kind != .restore)

/-- The group's outstanding-operation counter (R254): long-latency operations, pending QGETs, status waits, copy
commands and posted remote requests. -/
def State.outstanding (s : State) (k : Nat) : Nat :=
  let g := s.group k
  g.ops.length + g.waits.length + (g.queues.foldl (fun n q => n + q.2.gets.length) 0) +
    (s.groupCopies k).length + g.posted.length + s.slots.countP (fun p => p.2.busy && p.2.group == k && p.2.kind.isGet)

/-- A group awaits a remote load or atomic, or an RGET, which counts as one (12_consistency R219). -/
def State.awaitsRemote (s : State) (k : Nat) : Bool :=
  (s.group k).ops.any (fun o => o.pieces.any (fun p => !p.ready)) ||
    s.slots.any (fun p => p.2.busy && p.2.group == k && p.2.kind.isGet)

/-- The counter stands at its maximum: a word that adds to it is not ready (R250, R254). -/
def State.counterFull (s : State) (k : Nat) : Bool := decide (63 ≤ s.outstanding k)

/-! ## Privilege (02_encoding R30, 15_faults R262) -/

/-- The group executes in trap context or in firmware. -/
def Group.privileged (g : Group) : Bool := g.trap || g.fw

end Sys2Proof.Machine
end

