-- ==== Sys2Proof/Machine/Flags.lean ====
section
/-! DEFINITION. The `fpm` CSR (03_numbers R44 to R46): rounding mode, saturation, sticky flags. -/

namespace Sys2Proof.Machine

/-- The rounding modes (R44). -/
inductive Rnd where
  | rn | rz | rp | rm
deriving DecidableEq, Repr

/-- The conditions that a floating-point operation raises (R45). -/
structure FFlags where
  nv : Bool := false
  of_ : Bool := false
  uf : Bool := false
  nx : Bool := false
deriving DecidableEq, Repr

/-- Both sets of conditions. -/
def FFlags.or (a b : FFlags) : FFlags :=
  { nv := a.nv || b.nv, of_ := a.of_ || b.of_, uf := a.uf || b.uf, nx := a.nx || b.nx }

/-- The sticky bits of `fpm` that conditions set: NV [4], OF [5], UF [6], NX [7] (R45). -/
def FFlags.bits (f : FFlags) : W64 :=
  (if f.nv then 0x10 else 0) ||| (if f.of_ then 0x20 else 0) ||| (if f.uf then 0x40 else 0) |||
    (if f.nx then 0x80 else 0)

/-- The rounding mode of `fpm` (R44, R45). -/
def Group.rm (g : Group) : Rnd :=
  match g.fpm.field 0 2 with
  | 0 => .rn
  | 1 => .rz
  | 2 => .rp
  | _ => .rm

/-- SAT of `fpm` (R45). -/
def Group.sat (g : Group) : Bool := g.fpm.bit 2

/-- Sets the sticky flags that conditions raise (R45). -/
def Group.raise (g : Group) (f : FFlags) : Group := { g with fpm := g.fpm ||| f.bits }

/-- The conditions of all executing threads together: the order does not matter (08_compute R122). -/
def flagsOf (ts : List Nat) (f : Nat → FFlags) : FFlags := ts.foldl (fun a t => a.or (f t)) {}

/-- QUNDER [8] and QOVER [9], set in the group that issued a CPYQ at its completion (R45). -/
def Group.raiseQ (g : Group) (qu qo : Bool) : Group :=
  { g with fpm := g.fpm ||| ((if qu then 0x100 else 0) ||| (if qo then 0x200 else 0)) }

/-- A value that CSRWR may put into `fpm`: reserved bits [63:10] and [3] are 0 (R45). -/
def fpmOk (v : W64) : Bool := v.field 10 54 == 0 && !v.bit 3

end Sys2Proof.Machine
end

