-- ==== Sys2Proof/Machine/Numbers.lean ====
section
/-! DEFINITION. Number formats, exact values and rounding (03_numbers R37 to R49): every floating result is formed from
an exact dyadic value with one rounding. -/

namespace Sys2Proof.Machine

/-- An exact value (R48): (-1)^neg * m * 2^e with signed zeros, an infinity, or NaN. -/
inductive Ext where
  | nan
  | inf (neg : Bool)
  | fin (neg : Bool) (m : Nat) (e : Int)
deriving DecidableEq, Repr

/-- The floating-point element formats (R38). -/
inductive Fmt where
  | fp32 | fp16 | bf16 | e4m3 | e5m2 | e2m3 | e3m2 | e2m1
deriving DecidableEq, Repr

/-- Width in bits. -/
def Fmt.bits : Fmt → Nat
  | .fp32 => 32
  | .fp16 => 16
  | .bf16 => 16
  | .e4m3 => 8
  | .e5m2 => 8
  | .e2m3 => 6
  | .e3m2 => 6
  | .e2m1 => 4

/-- Mantissa bits. -/
def Fmt.mant : Fmt → Nat
  | .fp32 => 23
  | .fp16 => 10
  | .bf16 => 7
  | .e4m3 => 3
  | .e5m2 => 2
  | .e2m3 => 3
  | .e3m2 => 2
  | .e2m1 => 1

/-- Exponent bias. -/
def Fmt.bias : Fmt → Nat
  | .fp32 => 127
  | .fp16 => 15
  | .bf16 => 127
  | .e4m3 => 7
  | .e5m2 => 15
  | .e2m3 => 1
  | .e3m2 => 3
  | .e2m1 => 1

/-- Code of the largest finite value, sign 0. -/
def Fmt.maxCode : Fmt → Nat
  | .fp32 => 0x7F7FFFFF
  | .fp16 => 0x7BFF
  | .bf16 => 0x7F7F
  | .e4m3 => 0x7E
  | .e5m2 => 0x7B
  | .e2m3 => 0x1F
  | .e3m2 => 0x1F
  | .e2m1 => 0x7

/-- The format has infinities. -/
def Fmt.hasInf : Fmt → Bool
  | .fp32 => true
  | .fp16 => true
  | .bf16 => true
  | .e4m3 => false
  | .e5m2 => true
  | .e2m3 => false
  | .e3m2 => false
  | .e2m1 => false

/-- The format has a NaN. -/
def Fmt.hasNan : Fmt → Bool
  | .fp32 => true
  | .fp16 => true
  | .bf16 => true
  | .e4m3 => true
  | .e5m2 => true
  | .e2m3 => false
  | .e3m2 => false
  | .e2m1 => false

/-- The canonical NaN (R40); +0 where the format has none (R47). -/
def Fmt.nanCode : Fmt → Nat
  | .fp32 => 0x7FC00000
  | .fp16 => 0x7E00
  | .bf16 => 0x7FC0
  | .e4m3 => 0x7F
  | .e5m2 => 0x7F
  | .e2m3 => 0
  | .e3m2 => 0
  | .e2m1 => 0

/-- `exact(x)` (R48): the value of a code; bits above the format's are ignored (R39). -/
def exact (f : Fmt) (x : Nat) : Ext :=
  let neg := natBit x (f.bits - 1)
  let mag := x % 2 ^ (f.bits - 1)
  let m := mag % 2 ^ f.mant
  let e := mag / 2 ^ f.mant
  if f.hasInf && decide (mag = f.maxCode + 1) then .inf neg
  else if f.hasNan && decide (f.maxCode < mag) then .nan
  else if e = 0 then .fin neg m (1 - (f.bias : Int) - f.mant)
  else .fin neg (2 ^ f.mant + m) ((e : Int) - f.bias - f.mant)

/-- A magnitude divided by `2 ^ d` and rounded to an integer in a mode, and whether that was inexact (R44). -/
def roundShift (r : Rnd) (neg : Bool) (m d : Nat) : Nat × Bool :=
  let k := m / 2 ^ d
  let rest := m % 2 ^ d
  let up := match r with
    | .rn => decide (2 ^ d < 2 * rest) || (decide (2 * rest = 2 ^ d) && k % 2 == 1)
    | .rz => false
    | .rp => !neg && rest != 0
    | .rm => neg && rest != 0
  (if up then k + 1 else k, rest != 0)

/-- A magnitude times `2 ^ e`, rounded to a multiple of `2 ^ q`: the multiple, and whether that was inexact. -/
def roundTo (r : Rnd) (neg : Bool) (m : Nat) (e q : Int) : Nat × Bool :=
  if q ≤ e then (m * 2 ^ (e - q).toNat, false) else roundShift r neg m (q - e).toNat

/-- A sign on a code. -/
def Fmt.signed (f : Fmt) (neg : Bool) (mag : Nat) : Nat := if neg then 2 ^ (f.bits - 1) + mag else mag

/-- The IEEE 754 overflow result of a mode is infinite (R47). -/
def overflowsToInf (r : Rnd) (neg : Bool) : Bool :=
  match r with
  | .rn => true
  | .rz => false
  | .rp => !neg
  | .rm => neg

/-- The code of a finite overflow (R47). -/
def Fmt.overflow (f : Fmt) (r : Rnd) (sat neg : Bool) : Nat :=
  if !f.hasNan || sat || !overflowsToInf r neg then f.signed neg f.maxCode
  else if f.hasInf then f.signed neg (f.maxCode + 1)
  else f.nanCode

/-- A finite exact value that is not zero, as a code of a format (R44, R45, R47). Tininess is detected after rounding. -/
def Fmt.encodeFin (f : Fmt) (r : Rnd) (sat neg : Bool) (m : Nat) (e : Int) : Nat × FFlags :=
  let top : Int := e + Nat.log2 m
  let emin : Int := 1 - f.bias
  let q := max top emin - f.mant
  let k := roundTo r neg m e q
  let code := (q + f.mant - emin).toNat * 2 ^ f.mant + k.1
  if f.maxCode < code then (f.overflow r sat neg, { of_ := true, nx := true })
  else
    let full := roundTo r neg m e (top - f.mant)
    let tiny := decide (top < emin) && !(decide (top + 1 = emin) && decide (2 ^ (f.mant + 1) ≤ full.1))
    (f.signed neg code, { nx := k.2, uf := tiny && k.2 })

/-- `fp8_encode(x, fmt, sat)` (R47, R48), and with FP32 `round_fp32`. -/
def Fmt.encode (f : Fmt) (r : Rnd) (sat : Bool) (x : Ext) : Nat × FFlags :=
  match x with
  | .nan => (f.nanCode, { nv := !f.hasNan })
  | .inf neg =>
    if f.hasInf then (f.signed neg (f.maxCode + 1), {})
    else if f.hasNan then (if sat then f.signed neg f.maxCode else f.nanCode, {})
    else (f.signed neg f.maxCode, { nv := true })
  | .fin neg m e => if m = 0 then (f.signed neg 0, {}) else f.encodeFin r sat neg m e

/-- `round_fp32(x, mode)` (R48). -/
def roundFp32 (r : Rnd) (x : Ext) : W32 × FFlags :=
  let y := Fmt.encode .fp32 r false x
  (BitVec.ofNat 32 y.1, y.2)

/-- The exact value of an FP32 register. -/
def fp32 (w : W32) : Ext := exact .fp32 w.toNat

/-! ## Exact arithmetic (R44, R48) -/

/-- Sign change. -/
def Ext.neg : Ext → Ext
  | .nan => .nan
  | .inf n => .inf (!n)
  | .fin n m e => .fin (!n) m e

/-- Product, and whether it is 0 times an infinity. -/
def Ext.mul (a b : Ext) : Ext × Bool :=
  match a, b with
  | .nan, _ => (.nan, false)
  | _, .nan => (.nan, false)
  | .inf n, .inf n' => (.inf (n != n'), false)
  | .inf n, .fin n' m _ => if m = 0 then (.nan, true) else (.inf (n != n'), false)
  | .fin n m _, .inf n' => if m = 0 then (.nan, true) else (.inf (n != n'), false)
  | .fin n m e, .fin n' m' e' => (.fin (n != n') (m * m') (e + e'), false)

/-- Sum, and whether it is the difference of two infinities. An exact zero takes its sign by R44. -/
def Ext.add (r : Rnd) (a b : Ext) : Ext × Bool :=
  match a, b with
  | .nan, _ => (.nan, false)
  | _, .nan => (.nan, false)
  | .inf n, .inf n' => if n = n' then (.inf n, false) else (.nan, true)
  | .inf n, .fin _ _ _ => (.inf n, false)
  | .fin _ _ _, .inf n => (.inf n, false)
  | .fin n m e, .fin n' m' e' =>
    let lo := min e e'
    let x : Int := m * 2 ^ (e - lo).toNat
    let y : Int := m' * 2 ^ (e' - lo).toNat
    let z := (if n then -x else x) + (if n' then -y else y)
    if z = 0 then (.fin (if m = 0 ∧ n = n' then n else r == .rm) 0 0, false)
    else (.fin (decide (z < 0)) z.natAbs lo, false)

/-- Fused multiply and add, with NV (08_compute R130). -/
def Ext.fma (r : Rnd) (a b c : Ext) : Ext × Bool :=
  let p := a.mul b
  if p.2 then (.nan, true) else p.1.add r c

/-- A value times a power of two. -/
def Ext.scale (x : Ext) (k : Int) : Ext :=
  match x with
  | .nan => .nan
  | .inf n => .inf n
  | .fin n m e => .fin n m (e + k)

/-- An integer as an exact value. -/
def Ext.ofInt (i : Int) : Ext := .fin (decide (i < 0)) i.natAbs 0

/-- The value is NaN. -/
def Ext.isNan : Ext → Bool
  | .nan => true
  | .inf _ => false
  | .fin _ _ _ => false

/-- Order of two values neither of which is NaN: minus the first is below the second. Zeros are equal. -/
def Ext.lt (a b : Ext) : Bool :=
  match a, b with
  | .nan, _ => false
  | _, .nan => false
  | .inf n, .inf n' => n && !n'
  | .inf n, .fin _ _ _ => n
  | .fin _ _ _, .inf n' => !n'
  | .fin n m e, .fin n' m' e' =>
    let lo := min e e'
    let x : Int := m * 2 ^ (e - lo).toNat
    let y : Int := m' * 2 ^ (e' - lo).toNat
    decide ((if n then -x else x) < (if n' then -y else y))

/-! ## Integers (R37, R47, R48) -/

/-- `sat_int(x, bits)` or with `u` `sat_int(x, bits, U)`. -/
def satInt (u : Bool) (bits : Nat) (x : Int) : Int :=
  if u then (if x < 0 then 0 else if (2 : Int) ^ bits - 1 < x then (2 : Int) ^ bits - 1 else x)
  else if x < -(2 : Int) ^ (bits - 1) then -(2 : Int) ^ (bits - 1)
  else if (2 : Int) ^ (bits - 1) - 1 < x then (2 : Int) ^ (bits - 1) - 1
  else x

/-- A floating value to an integer of 32 bits (08_compute R137). -/
def toInt32 (r : Rnd) (u : Bool) (x : Ext) : W32 × FFlags :=
  match x with
  | .nan => (0, { nv := true })
  | .inf neg => (if u then (if neg then 0 else 0xFFFFFFFF) else (if neg then 0x80000000 else 0x7FFFFFFF), { nv := true })
  | .fin neg m e =>
    let k := roundTo r neg m e 0
    let i : Int := if neg then -(k.1 : Int) else k.1
    let y := satInt u 32 i
    (w32OfInt y, if y = i then { nx := k.2 } else { nv := true })

/-! ## Minimum, maximum and comparison (08_compute R131, R132) -/

/-- FMIN (`max` false) and FMAX (`max` true) on codes of a format: the chosen operand's bits. -/
def Fmt.minMax (f : Fmt) (mx : Bool) (a b : Nat) : Nat :=
  let x := exact f a
  let y := exact f b
  if x.isNan && y.isNan then f.nanCode
  else if x.isNan then b
  else if y.isNan then a
  else
    let less := x.lt y || (!y.lt x && natBit a (f.bits - 1) && !natBit b (f.bits - 1))
    let more := y.lt x || (!x.lt y && natBit b (f.bits - 1) && !natBit a (f.bits - 1))
    if mx then (if less then b else a) else (if more then b else a)

/-- Comparison codes of FCMP (R132). -/
def fltCompare (c : FltCond) (x y : Ext) : Bool :=
  let un := x.isNan || y.isNan
  match c with
  | .eq => !un && !x.lt y && !y.lt x
  | .ne => un || x.lt y || y.lt x
  | .lt => !un && x.lt y
  | .le => !un && !y.lt x
  | .gt => !un && y.lt x
  | .ge => !un && !x.lt y
  | .un => un
  | .ord => !un

/-! ## Block scales and DS8 (R41, R42, R49) -/

/-- An E8M0 scale's exponent, none for NaN (R41). -/
def e8m0 (c : Nat) : Option Int := if c % 256 = 255 then none else some ((c % 256 : Nat) - 127 : Int)

/-- A value times a block scale: NaN for 0xFF, a zero element included (R41). -/
def Ext.scaleBy (x : Ext) (c : Nat) : Ext :=
  match e8m0 c with
  | none => .nan
  | some k => x.scale k

/-- Exponent of a format's largest finite value (R49). -/
def Fmt.emax : Fmt → Int
  | .fp32 => 127
  | .fp16 => 15
  | .bf16 => 127
  | .e4m3 => 8
  | .e5m2 => 15
  | .e2m3 => 2
  | .e3m2 => 4
  | .e2m1 => 2

/-- `e8m0_of(maxabs, fmt)` (R49): the code, QUNDER, QOVER. -/
def e8m0Of (maxabs : Ext) (f : Fmt) : Nat × Bool × Bool :=
  match maxabs with
  | .nan => (0xFF, false, false)
  | .inf _ => (0xFF, false, false)
  | .fin _ m e =>
    if m = 0 then (0, false, false)
    else
      let k : Int := e + Nat.log2 m - f.emax
      if k < -127 then (0, true, false) else if 127 < k then (0xFE, false, true) else ((k + 127).toNat, false, false)

/-- A DS8 code's value in units of 2^-7 (R42). -/
def ds8Value (c : Nat) : Int :=
  let a : Int := 2 ^ (7 - natField c 4 3)
  let b : Int := 2 ^ (7 - natField c 0 3)
  (if natBit c 7 then -a else a) + (if natBit c 3 then -b else b)

/-- A DS8 code's exact value: zero is +0. -/
def ds8Exact (c : Nat) : Ext := .fin (decide (ds8Value c < 0)) (ds8Value c).natAbs (-7)

/-- The better of two DS8 codes for the scaled value `x`: nearer, then of smaller magnitude, then lower (R389, R42). -/
def ds8Better (x : Int) (s : Nat) (a b : Nat) : Nat :=
  let da := (x - ds8Value a * 2 ^ s).natAbs
  let db := (x - ds8Value b * 2 ^ s).natAbs
  if da < db then a
  else if db < da then b
  else if (ds8Value a).natAbs < (ds8Value b).natAbs then a
  else if (ds8Value b).natAbs < (ds8Value a).natAbs then b
  else min a b

/-- The canonical DS8 code nearest a value, with the flags of R389. -/
def ds8Encode (x : Ext) : Nat × FFlags :=
  match x with
  | .nan => (0x08, { nv := true })
  | .inf neg => (if neg then 0x88 else 0x00, { nv := true })
  | .fin neg m e =>
    let s := (-7 - e).toNat
    let v : Int := m * 2 ^ (e + 7 + s).toNat
    let w := if neg then -v else v
    let c := (List.range 256).foldl (fun b c => ds8Better w s b c) 0
    (c, { nx := decide (ds8Value c * 2 ^ s ≠ w), of_ := decide ((256 * 2 ^ s : Int) < v) })

end Sys2Proof.Machine
end

