-- ==== Sys2Proof/WellFormed.lean ====
section
/-! DEFINITION. Which terms of `Instr` stand for an instruction: the checks that a word alone decides at step 3 of
02_encoding R24 (R18 to R29, R31). Checks that depend on the executing group (budget, links, counts) are made by the
meanings. -/

namespace Sys2Proof

/-- The operand is a register. -/
def Opnd.isReg : Opnd → Bool
  | .reg _ => true
  | .port _ => false

/-- The operand is a queue port. -/
def Opnd.isPort : Opnd → Bool
  | .reg _ => false
  | .port _ => true

/-- The field holds 0, as a field that must be zero does. -/
def Opnd.isZero : Opnd → Bool
  | .reg n => n.val == 0
  | .port _ => false

/-- A block of `size` registers whose first number is a multiple of `al` and which ends at or below register 55 (R21). -/
def Opnd.isBlock (o : Opnd) (size al : Nat) : Bool :=
  match o with
  | .reg n => n.val % al == 0 && n.val + size ≤ 56
  | .port _ => false

/-- A mask register of the collective layout: 0 to 54 (R27). -/
def Opnd.isMaskReg : Opnd → Bool
  | .reg n => n.val ≤ 54
  | .port _ => false

/-- Bytes of a spawn record. -/
def RecSize.bytes : RecSize → Nat
  | .s16 => 16
  | .s32 => 32
  | .s64 => 64

/-- Scope and strength accepted by a load: no release, and plain only with scope field 0 (R20). -/
def loadMode (sc : Scope) (st : Strength) : Bool := st != .release && (st != .plain || sc == .group)

/-- Scope and strength accepted by a store: no acquire, and plain only with scope field 0 (R20). -/
def storeMode (sc : Scope) (st : Strength) : Bool := st != .acquire && (st != .plain || sc == .group)

/-- The CSR number is listed in 15_faults R263. -/
def csrListed (n : Nat) : Bool :=
  n ≤ 0x008 || (0x010 ≤ n && n ≤ 0x015) || (0x020 ≤ n && n ≤ 0x028) || (0x100 ≤ n && n < 0x184)

/-- The CSR is marked P: privileged to write (R263). -/
def csrPrivileged (n : Nat) : Bool :=
  (0x020 ≤ n && n ≤ 0x022) || (0x100 ≤ n && n < 0x180 && n % 4 == 2)

/-- The CSR may be written at all: it is listed and not marked RO (R263). -/
def csrWritable (n : Nat) : Bool :=
  n == 0x001 || n == 0x002 || (0x005 ≤ n && n ≤ 0x007) || csrPrivileged n

/-- The static checks of the words that the table does not list. -/
def Unlisted.wf : Unlisted → Bool
  | .imad _ => true
  | .dsenc _ => true
  | .dsmul _ => true
  | .kinit k _ => k.toNat == 1 || k.toNat == 2 || k.toNat == 4 || k.toNat == 8
  | .kins f => f.d.isBlock 2 2
  | .kext _ a _ _ _ => a.isBlock 2 2
  | .mxscl _ => true
  | .trap _ _ => true
  | .bkpt _ _ => true
  | .glea _ => true
  | .gbfx _ => true
  | .acq _ _ => true
  | .rel _ _ => true
  | .fence _ => true
  | .bind _ => true
  | .unbind _ => true
  | .sgnew _ _ _ _ => true
  | .sgname _ => true
  | .sgatt _ _ _ => true
  | .sgdet _ => true
  | .sgdrop _ _ => true
  | .sgstow _ => true
  | .sgstat _ _ => true
  | .cpyq _ => true
  | .cpyw _ _ _ _ => true
  | .cpyc _ _ _ => true
  | .cpyst d wt _ => !wt || d.isReg
  | .tbld _ _ _ => true
  | .tbld4 _ _ _ => true
  | .tchk _ _ => true
  | .tinv _ => true
  | .tspl _ _ => true
  | .tfil _ _ => true
  | .mloop f => f.t.val % 2 == 0 && !f.g4
  | .mloop4 f => f.t.val % 2 == 0 && !f.g4
  | .mstep _ => true
  | .scacc d s _ _ => d != s
  | .azero _ _ => true
  | .asto _ _ _ _ => true
  | .alda _ _ _ => true
  | .acvt _ _ _ _ _ _ => true
  | .mstat d sel wt => sel.val != 3 && (!wt || d.isReg)
  | .wsel _ b dp => !dp || b.isZero
  | .rrst d _ b dp op _ => d.isBlock 2 2 && op.val != 7 && (!dp || b.isZero)
  | .sigadd _ _ b dp loc => !(dp && loc) && (!(dp || loc) || b.isZero)
  | .sigwt _ _ _ _ _ => true
  | .rwait _ _ _ _ => true
  | .rfence _ _ _ => true
  | .rget _ _ b dp _ => !dp || b.isZero
  | .coord _ a sel => sel.val < 6 && (!(sel.val < 3) || a.isZero)
  | .cmbcfg _ => true
  | .cmbopen _ _ => true
  | .cmbput _ _ => true
  | .cmbrel _ _ => true
  | .cmbstat f slot _ => slot || f.a.isZero
  | .gentag f rem op => f.d.isReg && (!rem || op.val == 1 || op.val == 2) && (rem || f.b.isZero)
  | .csrrd _ csr => csrListed csr.toNat
  | .csrwr _ csr => csrWritable csr.toNat
  | .cycle _ => true
  | .sleep _ => true
  | .gtrap _ => true
  | .rte _ => true
  | .gnop _ => true
  | .teamend _ _ => true
  | .probe _ _ => true
  | .prio _ => true

/-- Well-formed: the word passes every check of R24 step 3 that the word alone decides. An event has no word and is
well-formed. -/
def Instr.wf : Instr → Bool
  | .iadd _ => true
  | .isub _ => true
  | .imul _ => true
  | .imulhs _ => true
  | .imulhu _ => true
  | .imin _ => true
  | .imax _ => true
  | .umin _ => true
  | .umax _ => true
  | .iabs _ => true
  | .andv _ => true
  | .orv _ => true
  | .xorv _ => true
  | .andn _ => true
  | .shl _ => true
  | .shr _ => true
  | .sar _ => true
  | .popc _ => true
  | .clz _ => true
  | .brev _ => true
  | .bfx _ => true
  | .bfi _ => true
  | .icmp _ => true
  | .ucmp _ => true
  | .sel _ => true
  | .iaddi _ => true
  | .andi _ => true
  | .shli f => f.imm.toNat < 32
  | .shri f => f.imm.toNat < 32
  | .lea _ => true
  | .movi _ => true
  | .fadd _ => true
  | .fsub _ => true
  | .fmul _ => true
  | .ffma _ => true
  | .fmin _ => true
  | .fmax _ => true
  | .fcmp _ => true
  | .fcls _ => true
  | .frcp _ => true
  | .frsq _ => true
  | .fsqrt _ => true
  | .fexp2 _ => true
  | .flog2 _ => true
  | .badd2 _ => true
  | .bmul2 _ => true
  | .bfma2 _ => true
  | .bmax2 _ => true
  | .hadd2 _ => true
  | .hmul2 _ => true
  | .hfma2 _ => true
  | .cvtif f => !f.sat && f.fmt.val < 2
  | .cvtfi f => !f.sat && f.fmt.val < 2
  | .cvtfb f => f.fmt.val == 0
  | .cvtbf f => f.rnd == .fpm && !f.sat && f.fmt.val == 0
  | .cvtfh f => f.fmt.val == 0
  | .cvthf f => f.rnd == .fpm && !f.sat && f.fmt.val == 0
  | .cvtf8 f => f.fmt.val < 2
  | .cvt8f f => f.rnd == .fpm && !f.sat && f.fmt.val < 2
  | .cvtfn f => f.fmt.val < 3
  | .cvtnf f => f.rnd == .fpm && !f.sat && f.fmt.val < 3
  | .shfi f => f.d.isReg && f.a.isReg && f.b.isMaskReg
  | .shfu f => f.d.isReg && f.a.isReg && f.b.isMaskReg
  | .shfd f => f.d.isReg && f.a.isReg && f.b.isMaskReg
  | .shfx f => f.d.isReg && f.a.isReg && f.b.isMaskReg
  | .vote f => f.b.isMaskReg
  | .ballot f => f.d.isReg && f.b.isMaskReg
  | .gred f => f.d.isReg && f.a.isReg && f.b.isMaskReg
  | .matchv f => f.d.isReg && f.a.isReg && f.b.isMaskReg
  | .mkemp f => f.d.isReg
  | .mkful f => f.d.isReg
  | .pmovPack _ => true
  | .pmovUnpack _ => true
  | .getid f => f.sel.toNat < 12
  | .ld8 f => f.d.isReg && loadMode f.sc f.st
  | .ld16 f => f.d.isReg && loadMode f.sc f.st
  | .ld32 f => f.d.isReg && loadMode f.sc f.st
  | .ld64 f => f.d.isBlock 2 2 && loadMode f.sc f.st
  | .ld128 f => f.d.isBlock 4 4 && loadMode f.sc f.st
  | .st8 f => storeMode f.sc f.st
  | .st16 f => storeMode f.sc f.st
  | .st32 f => storeMode f.sc f.st
  | .st64 f => f.d.isBlock 2 2 && storeMode f.sc f.st
  | .st128 f => f.d.isBlock 4 4 && storeMode f.sc f.st
  | .ldx f => f.d.isReg && loadMode f.sc f.st
  | .stx f => storeMode f.sc f.st
  | .aadd f => f.d.isReg
  | .amin f => f.d.isReg
  | .amax f => f.d.isReg
  | .aumin f => f.d.isReg
  | .aumax f => f.d.isReg
  | .aand f => f.d.isReg
  | .aor f => f.d.isReg
  | .axor f => f.d.isReg
  | .axch f => f.d.isReg
  | .acas f => f.d.isReg
  | .afadd f => f.d.isReg
  | .pref _ => true
  | .rld32 f => f.d.isReg && f.st != .release
  | .rld64 f => f.d.isBlock 2 2 && f.st != .release
  | .rst32 f => f.st != .acquire
  | .rst64 f => f.d.isBlock 2 2 && f.st != .acquire
  | .ratom f => f.d.isReg
  | .br _ => true
  | .brx _ => true
  | .call _ => true
  | .ret _ => true
  | .exitv _ => true
  | .barv f => f.b.isMaskReg
  | .regn _ => true
  | .spawn f => f.a.isBlock (f.size.bytes / 4 - 2) 2
  | .yield _ => true
  | .nop _ => true
  | .waite _ => true
  | .gadd _ => true
  | .gsub _ => true
  | .gmul _ => true
  | .gmad _ => true
  | .gmin _ => true
  | .gmax _ => true
  | .gand _ => true
  | .gor _ => true
  | .gxor _ => true
  | .gshl _ => true
  | .gshr _ => true
  | .gsar _ => true
  | .gcmp _ => true
  | .gsel _ => true
  | .gpopc _ => true
  | .gclz _ => true
  | .gaddi _ => true
  | .gmovi _ => true
  | .gmovh _ => true
  | .gmulh _ => true
  | .gdivu _ => true
  | .gremu _ => true
  | .gbr _ => true
  | .gloop f => f.d.isReg
  | .gcall _ => true
  | .gret _ => true
  | .qput f => f.d.isPort
  | .qget f => f.d.isReg && f.a.isPort
  | .qclose f => f.d.isPort
  | .qstat f => f.d.isReg && f.a.isPort
  | .gld32 f => f.d.isReg && loadMode f.sc f.st
  | .gld64 f => f.d.isReg && loadMode f.sc f.st
  | .gst32 f => storeMode f.sc f.st
  | .gst64 f => storeMode f.sc f.st
  | .gatom f => f.d.isReg && f.op != .fadd
  | .agen f => f.d.isPort && f.a.isReg && f.w.val == 0
  | .agenx f => f.d.isPort && f.a.isReg && f.w.val < 6
  | .gpref _ => true
  | .cbinit _ => true
  | .cbarv f => f.err || f.b.isZero
  | .cbwait _ => true
  | .cbtest _ => true
  | .cpy _ => true
  | .cpys _ => true
  | .cpyg _ => true
  | .cpyx _ => true
  | .rgld f => f.d.isReg && f.st != .release && (!f.dp || f.b.isZero)
  | .rgst f => f.st != .acquire && (!f.dp || f.b.isZero)
  | .rmst f => f.st != .acquire && (!f.dp || f.b.isZero)
  | .rgatm f => f.d.isReg && (f.op != .cas || f.d.isBlock 2 2) && (f.op != .fadd || f.n32) && (!f.dp || f.b.isZero)
  | .binsetFlush _ => true
  | .binsetClose _ => true
  | .binsetOpen _ => true
  | .spawngLoc _ => true
  | .spawngRemote f => !f.dp || f.b.isZero
  | .binfl f => !f.wt || f.d.isReg
  | .longLatencyComplete _ _ _ => true
  | .qgetFill => true
  | .statusWaitFill => true
  | .barrierWaitEnd => true
  | .missedPromise => true
  | .collectiveFormation => true
  | .regnPerform => true
  | .ageCap => true
  | .copyClaimGrant => true
  | .copyCommandStart => true
  | .copyUnitRelease => true
  | .copyCommandComplete => true
  | .stowComplete => true
  | .restoreComplete => true
  | .binRingAllocation => true
  | .binFlushTimerExpiry => true
  | .spawnGroupLaunch => true
  | .combineDeadline => true
  | .teamPlacement => true
  | .residencyHoldExpiry => true
  | .victimWaitExpiry => true
  | .drainBudgetExpiry => true
  | .saveEnd => true
  | .teamEnd => true
  | .l1Eviction => true
  | .pageWalkComplete => true
  | .xlateInvCtlWrite _ _ => true
  | .xlateRootWrite _ _ => true
  | .xlateKeysWrite _ _ => true
  | .invalidationComplete => true
  | .fabWtabWrite _ _ => true
  | .fabItabWrite _ _ => true
  | .evbaseWrite _ _ => true
  | .evctlWrite _ _ => true
  | .caplenWrite _ _ => true
  | .dbdataRead => true
  | .tfcmdResume _ _ => true
  | .tfcmdAbort _ _ => true
  | .runStop => true
  | .stopComplete => true
  | .runResume => true
  | .qctlReset _ _ _ => true
  | .qctlAck _ _ _ => true
  | .qctlEnable _ _ _ => true
  | .qctlDisable _ _ _ => true
  | .registerWrite _ _ _ => true
  | .writeIndexStore _ _ _ => true
  | .packetAccept => true
  | .launch => true
  | .barrier => true
  | .barrierResolve => true
  | .abortedPacketRetire => true
  | .signalAdd => true
  | .signalSet => true
  | .segmentStow => true
  | .segmentDrop => true
  | .segmentPin => true
  | .segmentUnpin => true
  | .marker => true
  | .bufferedEventPost => true
  | .heartbeat => true
  | .standbyTakeover => true
  | .fabricRead _ _ => true
  | .fabricWrite _ _ => true
  | .fabricMulticastWrite _ _ => true
  | .fabricReduction _ _ => true
  | .fabricAtomic _ _ => true
  | .fabricSignalAdd _ _ => true
  | .fabricSpawnRecord _ _ => true
  | .fabricBulkWrite _ _ => true
  | .readData _ _ => true
  | .acknowledgement _ => true
  | .errorReply _ _ => true
  | .linkPause _ _ => true
  | .linkResume _ _ => true
  | .requestTimeout => true
  | .slotQuarantineEnd => true
  | .packetLifeExpiry => true
  | .gatheringContribution _ => true
  | .reductionTimerExpiry _ _ => true
  | .containment _ _ => true
  | .portServiceChange _ _ => true
  | .portFold _ _ => true
  | .fabricLaneSwap _ => true
  | .hostCxlMemRead => true
  | .hostCxlMemWrite _ _ => true
  | .correctedError _ _ => true
  | .patrolScrub _ => true
  | .sramRowRepair => true
  | .channelSparing => true
  | .spareCoreSubstitution => true
  | .moduleReplacement => true
  | .powerGoodBoot => true
  | .cxlHotReset => true
  | .vfFunctionLevelReset => true
  | .firmwareUpdate _ _ => true
  | .sensorSample _ => true
  | .illegalOpcodeWord _ => true
  | .containmentCleared _ _ => true
  | .reattestation _ => true
  | .spdmRequest _ => true
  | .platformMonitoringAndControl _ => true
  | .virtualDeviceCreation _ _ _ _ _ => true
  | .virtualDeviceDestruction => true
  | .coreLostToUncorrectableFault => true
  | .heldSpawnRecordTimeout => true
  | .unlisted u => u.wf

end Sys2Proof
end

