-- ==== Sys2Proof/Machine/Operands.lean ====
section
/-! DEFINITION. Every operand form, once: how a lane-set word and a group-set word check, wait, pop, read, write, push
and go on (02_encoding R19 to R24; 07_registers R103, R104, R108 to R111; 13_execution R229, R230, R235). -/

namespace Sys2Proof.Machine

/-- What a meaning answers. -/
abbrev Out := Host.Outcome State Fault Refusal

/-- A source: its operand and its trap bit (R23). -/
structure Src where
  o : Opnd
  trap : Bool := false
deriving DecidableEq, Repr

/-- How a thread or a group fares at its sources (R103). -/
inductive Verdict where
  | run
  | wait
  | fault (f : AccFault)
  /-- a FAULTED register: the record held is reported -/
  | deferred
deriving DecidableEq, Repr

/-- What a pop that is the `k`-th of its port in one word finds. -/
def Queue.frontAt (q : Queue) (k : Nat) : PopState := Queue.front { q with entries := q.entries.drop k }

/-- The verdict of a register by its state (R103). -/
def regVerdict (st : Full) (trap : Bool) : Verdict :=
  match st with
  | .full => .run
  | .pending => if trap then .fault (plainFault .emptyRead) else .wait
  | .empty => .fault (plainFault .emptyRead)
  | .faulted => .deferred

/-- The verdict of a pop (R103, R111). -/
def popVerdict (p : PopState) (trap : Bool) : Verdict :=
  match p with
  | .ready _ => .run
  | .closed => .fault (plainFault .queueClosed)
  | .empty => if trap then .fault (plainFault .emptyRead) else .wait
  | .behind => .wait

/-- How often a port is named before. -/
def portCount (os : List Src) (q : Fin 8) : Nat := os.countP (fun x => x.o == .port q)

/-- The verdict of sources in field order; `before` holds the sources already passed. -/
def verdictFrom (g : Group) (st : Nat → Full) (before : List Src) (os : List Src) : Verdict :=
  match os with
  | [] => .run
  | x :: r =>
    let v := match x.o with
      | .reg n => regVerdict (st n.val) x.trap
      | .port q => popVerdict ((g.queue q.val).frontAt (portCount before q)) x.trap
    match v with
    | .run => verdictFrom g st (before ++ [x]) r
    | .wait => .wait
    | .fault f => .fault f
    | .deferred => .deferred

/-- The verdict of a thread (lane set). -/
def Group.threadVerdict (g : Group) (x : Thread) (os : List Src) : Verdict := verdictFrom g x.regState [] os
/-- The verdict of a group word. -/
def Group.wordVerdict (g : Group) (os : List Src) : Verdict := verdictFrom g g.regState [] os

/-- A source as it has been taken: a register still to be read, or a popped entry. -/
inductive Taken where
  | reg (n : Nat)
  | entry (e : QEntry)
  | nothing
deriving DecidableEq, Repr

/-- Takes the sources in field order: a port gives up one entry for each time it is named (R22). -/
def State.take (s : State) (os : List Opnd) : List Taken × State :=
  match os with
  | [] => ([], s)
  | .reg n :: r =>
    let x := State.take s r
    (.reg n.val :: x.1, x.2)
  | .port q :: r =>
    match (s.grp.queue q.val).entries with
    | [] =>
      let x := State.take s r
      (.nothing :: x.1, x.2)
    | e :: _ =>
      let x := State.take (s.popPort q.val) r
      (.entry e :: x.1, x.2)

/-- The 32-bit value that thread `t` reads from a taken source. -/
def Taken.lane (k : Taken) (x : Thread) (t : Nat) : W32 :=
  match k with
  | .reg n => x.reg n
  | .entry e => e.lane t
  | .nothing => 0

/-- The value that a group word reads from a taken source: 64 bits, or with `w` false the low 32 (R29, R109). -/
def Taken.group (k : Taken) (g : Group) (w : Bool) : W64 :=
  match k with
  | .reg n => if w then g.reg n else ((g.reg n).truncate 32).zeroExtend 64
  | .entry e => e.group w
  | .nothing => 0

/-! ## Destinations -/

/-- Where a word writes. -/
inductive Dest where
  | none
  /-- a register, or a block of registers -/
  | regs (first size : Nat)
  | port (q : Nat)
deriving DecidableEq, Repr

/-- The destination that an operand field names. -/
def destOf (o : Opnd) (size : Nat) : Dest :=
  match o with
  | .reg n => .regs n.val size
  | .port q => .port q.val

/-- The registers of a destination. -/
def Dest.list : Dest → List Nat
  | .none => []
  | .regs n k => (List.range k).map (fun i => n + i)
  | .port _ => []

/-- A source port may be popped, a destination port pushed (R108): made at step 3 of R24. -/
def State.portsOk (s : State) (srcs : List Opnd) (dest : Dest) : Bool :=
  srcs.all (fun o =>
    match o with
    | .reg _ => true
    | .port q =>
      match s.portUse s.cur q.val with
      | .producer _ _ => false
      | .unlinked => true
      | .consumer => true) &&
  (match dest with
    | .none => true
    | .regs _ _ => true
    | .port q => s.portUse s.cur q != .consumer)

/-- What a push to the destination meets: room, a full queue or a closed one (R110, R111). -/
inductive Room where
  | free | full | closed
deriving DecidableEq, Repr

/-- The room at a destination, after the word's own pops. -/
def State.room (s : State) (dest : Dest) : Room :=
  match dest with
  | .none => .free
  | .regs _ _ => .free
  | .port q =>
    let x := s.portQueue s.cur q
    if x.closed then .closed else if 4 ≤ x.entries.length then .full else .free

/-! ## Lane-set words -/

/-- The shape of a lane-set word. -/
structure LaneWord where
  /-- register blocks named, for the budget check of R21: first register and size -/
  blocks : List (Nat × Nat) := []
  guard : Thread → Bool := fun _ => true
  srcs : List Src := []
  /-- further registers read, without a trap bit (pairs, blocks, lists) -/
  also : List Nat := []
  dest : Dest := .none
  /-- a further check of step 3 -/
  ok : Bool := true
  /-- the word adds to the outstanding-operation counter -/
  counts : Bool := false
  /-- the word itself gives the executing threads their next PC -/
  moves : Bool := false

/-- A register operand as a block of the budget check. -/
def blockOf (o : Opnd) (size : Nat) : List (Nat × Nat) :=
  match o with
  | .reg n => [(n.val, size)]
  | .port _ => []

/-- The number of the register that an operand names, 0 for a port. -/
def regNum (o : Opnd) : Nat :=
  match o with
  | .reg n => n.val
  | .port _ => 0

/-- A register operand. -/
def regOpnd (n : Nat) : Opnd := .reg (Fin.ofNat 56 n)

/-- The sources of a lane word in full. -/
def LaneWord.allSrcs (w : LaneWord) : List Src := w.srcs ++ w.also.map (fun n => { o := regOpnd n })

/-- Step 3 of R24 for a lane word: budgets and links. -/
def State.laneStatic (s : State) (w : LaneWord) : Bool :=
  w.ok && w.blocks.all (fun b => decide (b.1 + b.2 ≤ s.grp.budget)) && s.portsOk (w.srcs.map (·.o)) w.dest

/-- Every thread listed parks with a new record. -/
def Group.parkAll (g : Group) (ts : List Nat) (f : AccFault) : Group :=
  g.mapThreads ts (fun _ x => { x with st := .parked, fault := g.threadRec x f })

/-- The threads whose sources make them park, parked (R103); the verdict is that of `g0`, before the word's pops. -/
def Group.parkBySources (g g0 : Group) (ts : List Nat) (os : List Src) : Group :=
  g.mapThreads ts (fun _ x =>
    match g0.threadVerdict x os with
    | .fault f => { x with st := .parked, fault := g.threadRec x f }
    | .deferred => { x with st := .parked }
    | .run => x
    | .wait => x)

/-- A destination register is PENDING in some thread of the run (R104). -/
def Group.destPending (g : Group) (run : List Nat) (d : Dest) : Bool :=
  run.any (fun t => d.list.any (fun r => (g.thread t).regState r == .pending))

/-- The threads of the run that are still READY go on to the next word. -/
def Group.advanceThreads (g : Group) (ts : List Nat) : Group :=
  g.mapThreads ts (fun _ x => if x.st = .ready then { x with pc := x.pc + 4 } else x)

/-- The word at the executing group's PC fails a check that is made before any source is read: every thread of the run parks with the
cause, and `trappc` holds the word's address (R24). -/
def State.rejectRun (s : State) (c : Cause) : State :=
  (s.setGrp { s.grp.parkAll s.grp.run (plainFault c) with trappc := s.grp.pc }).finish

/-- A lane-set word waits at its sources: some guarded thread waits at one (R103). Where no thread has a true guard nothing is read, and
the word waits for the entries that it is to pop (R22), with trap bit 0; if such a port is closed, or empty under trap bit 1, the word goes
on and pops nothing there (DESIGN CHOICE, log entry 18). -/
def Group.laneWaits (g : Group) (acting : List Nat) (w : LaneWord) : Bool :=
  acting.any (fun t => g.threadVerdict (g.thread t) w.allSrcs == .wait) ||
    (acting.isEmpty && g.wordVerdict (w.srcs.filter (fun x => x.o.isPort)) == .wait)

/-- A lane-set word: the checks of R24 in order, the wait of the run as a whole (R103), the pops of R22, the parking of
threads, the effect on the executing threads, and each thread's next PC (R229). `body` gets the state after the pops
and parkings, the executing threads in ascending order, and the taken sources; it answers none where the word has to wait
for its target. -/
def State.laneWordM (s : State) (i : Instr) (w : LaneWord) (body : State → List Nat → List Taken → Option State) :
    State :=
  let g := s.grp
  let run := g.run
  if g.trap then s.trap (plainFault .illegalOpcode)
  else if run.isEmpty then s
  else if !s.laneStatic w then s.rejectRun .reservedField
  else
    let acting := run.filter (fun t => w.guard (g.thread t))
    if g.laneWaits acting w then s.stall i
    else if g.destPending run w.dest || (w.counts && s.counterFull s.cur) then s.stall i
    else
      let able := acting.filter (fun t => g.threadVerdict (g.thread t) w.allSrcs == .run)
      if able.isEmpty && !acting.isEmpty then
        (s.setGrp ((g.parkBySources g acting w.allSrcs).advanceThreads run)).finish
      else
      let taken := s.take (w.srcs.map (·.o))
      let s1 := taken.2.setGrp (taken.2.grp.parkBySources g acting w.allSrcs)
      match s1.room w.dest with
      | .full => s.stall i
      | .closed =>
        let g2 := s1.grp.parkAll able (plainFault .queueClosed)
        (s1.setGrp (g2.advanceThreads run)).finish
      | .free =>
        match body s1 able taken.1 with
        | none => s.stall i
        | some s2 =>
          let on := if w.moves then run.filter (fun t => !able.contains t) else run
          (s2.setGrp (s2.grp.advanceThreads on)).finish

/-- A lane-set word whose effect waits for no target. -/
def State.laneWord (s : State) (i : Instr) (w : LaneWord) (body : State → List Nat → List Taken → State) : State :=
  s.laneWordM i w (fun s1 ts ks => some (body s1 ts ks))

/-- Writes one value per executing thread: to the register, or as one per-thread entry of a queue (R22). The entry holds 0 for every other
thread; a thread with a true guard that parks at its sources while others execute is one of these, for it has no value to write (DESIGN
CHOICE, log entry 42). -/
def State.writeLane (s : State) (d : Opnd) (ts : List Nat) (f : Nat → W32) : State :=
  match d with
  | .reg n => s.setGrp (s.grp.mapThreads ts (fun t x => x.write n.val (f t)))
  | .port q => s.pushPort q.val (.perThread (threadIds.map (fun t => if ts.contains t then f t else 0)))

/-- The 32-bit value that thread `t` reads from the `n`-th taken source. -/
def State.lv (s : State) (ks : List Taken) (n t : Nat) : W32 := (ks.getD n .nothing).lane (s.grp.thread t) t

/-- Writes one result per executing thread and raises the flags of them all (08_compute R122). -/
def State.writeLaneF (s : State) (d : Opnd) (ts : List Nat) (f : Nat → W32 × FFlags) : State :=
  (s.setGrp (s.grp.raise (flagsOf ts (fun t => (f t).2)))).writeLane d ts (fun t => (f t).1)

/-- Sets a predicate of each executing thread. -/
def State.writePred (s : State) (p : Fin 8) (ts : List Nat) (f : Nat → Bool) : State :=
  s.setGrp (s.grp.mapThreads ts (fun t x => x.setPred p (f t)))

/-- An LA guard (R19). -/
def laneGuard (pg : Fin 8) (ng : Bool) (x : Thread) : Bool := x.pred pg != ng

/-- A binary LA word. -/
def binWord (f : LaneBin) : LaneWord :=
  { blocks := blockOf f.d 1 ++ blockOf f.a 1 ++ blockOf f.b 1, guard := laneGuard f.pg f.ng,
    srcs := [{ o := f.a, trap := f.ea }, { o := f.b, trap := f.eb }], dest := destOf f.d 1 }

/-- An LA word that also reads its destination, after its sources and without a trap bit (R23). -/
def triWord (f : LaneBin) : LaneWord :=
  { binWord f with srcs := [{ o := f.a, trap := f.ea }, { o := f.b, trap := f.eb }, { o := f.d }] }

/-- A unary LA word. -/
def unWord (f : LaneUn) : LaneWord :=
  { blocks := blockOf f.d 1 ++ blockOf f.a 1, guard := laneGuard f.pg f.ng,
    srcs := [{ o := f.a, trap := f.ea }], dest := destOf f.d 1 }

/-- A binary lane word that writes one value. -/
def State.laneBin (s : State) (i : Instr) (f : LaneBin) (op : W32 → W32 → W32) : Out :=
  .next (s.laneWord i (binWord f) (fun s1 ts k => s1.writeLane f.d ts (fun t => op (s1.lv k 0 t) (s1.lv k 1 t))))

/-- A three-source lane word that writes one value. -/
def State.laneTri (s : State) (i : Instr) (f : LaneBin) (op : W32 → W32 → W32 → W32) : Out :=
  .next (s.laneWord i (triWord f) (fun s1 ts k =>
    s1.writeLane f.d ts (fun t => op (s1.lv k 0 t) (s1.lv k 1 t) (s1.lv k 2 t))))

/-- A unary lane word that writes one value. -/
def State.laneUn (s : State) (i : Instr) (f : LaneUn) (op : W32 → W32) : Out :=
  .next (s.laneWord i (unWord f) (fun s1 ts k => s1.writeLane f.d ts (fun t => op (s1.lv k 0 t))))

/-- A binary lane word that raises flags; `op` gets the group's rounding mode. -/
def State.laneBinF (s : State) (i : Instr) (f : LaneBin) (op : Rnd → W32 → W32 → W32 × FFlags) : Out :=
  .next (s.laneWord i (binWord f) (fun s1 ts k =>
    s1.writeLaneF f.d ts (fun t => op s1.grp.rm (s1.lv k 0 t) (s1.lv k 1 t))))

/-- A three-source lane word that raises flags. -/
def State.laneTriF (s : State) (i : Instr) (f : LaneBin) (op : Rnd → W32 → W32 → W32 → W32 × FFlags) : Out :=
  .next (s.laneWord i (triWord f) (fun s1 ts k =>
    s1.writeLaneF f.d ts (fun t => op s1.grp.rm (s1.lv k 0 t) (s1.lv k 1 t) (s1.lv k 2 t))))

/-- A unary lane word that raises flags. -/
def State.laneUnF (s : State) (i : Instr) (f : LaneUn) (op : Rnd → W32 → W32 × FFlags) : Out :=
  .next (s.laneWord i (unWord f) (fun s1 ts k => s1.writeLaneF f.d ts (fun t => op s1.grp.rm (s1.lv k 0 t))))

/-! ## Group-set words -/

/-- What the operation of a group word comes to. -/
inductive GRes where
  /-- performed: the group goes on to the next word -/
  | done (s : State)
  /-- performed: the run goes to the address -/
  | jump (s : State) (a : VA)
  /-- performed: the operation has given the threads their next PCs -/
  | moved (s : State)
  /-- a fault of the operation: the group traps at the word, which has no effect -/
  | fault (f : AccFault)
  /-- not ready: the group waits at issue -/
  | wait
  /-- the word has begun and has not ended: the group stays at it -/
  | hold (s : State)
  /-- performed, and the group then traps at the following word -/
  | trapAfter (s : State) (cause : BitVec 8) (addr : W64) (code : BitVec 18)

/-- The shape of a group-set word. -/
structure GrpWord where
  guard : Bool := true
  srcs : List Src := []
  /-- further registers read, without a trap bit (second registers of pairs) -/
  also : List Nat := []
  dest : Dest := .none
  /-- a further check of step 3 -/
  ok : Bool := true
  counts : Bool := false
  /-- 64-bit sources (w = 1, GE, GI) -/
  wide : Bool := true

/-- Sources of a group word in full. -/
def GrpWord.allSrcs (w : GrpWord) : List Src := w.srcs ++ w.also.map (fun n => { o := regOpnd n })

/-- The group goes on after a performed word. -/
def State.goOn (s : State) : State := s.setGrp s.grp.advance

/-- A group-set word (R24, R103, R104, R110, R230): checks, waits, pops, then the operation on the values. -/
def State.groupWord (s : State) (i : Instr) (w : GrpWord) (body : State → List W64 → GRes) : State :=
  let g := s.grp
  if g.issuePc == none then s
  else if !(w.ok && s.portsOk (w.srcs.map (·.o)) w.dest) then s.trap (plainFault .reservedField)
  else if !w.guard then s.goOn.finish
  else
    match g.wordVerdict w.allSrcs with
    | .wait => s.stall i
    | .fault f => s.trap f
    | .deferred => s.trapDeferred
    | .run =>
      if w.dest.list.any (fun r => g.regState r == .pending) || (w.counts && s.counterFull s.cur) then s.stall i
      else
        let taken := s.take (w.srcs.map (·.o))
        match taken.2.room w.dest with
        | .full => s.stall i
        | .closed => s.trap (plainFault .queueClosed)
        | .free =>
          match body taken.2 (taken.1.map (fun k => k.group g w.wide)) with
          | .done s1 => s1.goOn.finish
          | .jump s1 a => (s1.setGrp (s1.grp.jump a)).finish
          | .moved s1 => s1.finish
          | .fault f => s.trap f
          | .wait => s.stall i
          | .hold s1 => (s1.setGrp { s1.grp with waitWord := some i }).fire
          | .trapAfter s1 cause addr code =>
            let s2 := s1.goOn.finish
            s2.trapWith s2.cur { addr := addr, cause := cause, fpc := g.pc, entries := g.entriesCount, v := true,
                                 grp := true, code := code } s2.grp.pc (maskOf g.run)

/-- Writes a group destination: a register, or a uniform entry of a queue (R22, R109). -/
def State.writeGroup (s : State) (d : Opnd) (v : W64) : State :=
  match d with
  | .reg n => s.setGrp (s.grp.write n.val v)
  | .port q => s.pushPort q.val (.uniform v)

/-- A GA or GB guard (R19). -/
def grpGuard (g : Group) (c : Fin 4) (ng : Bool) : Bool := g.cond c != ng

/-- The `n`-th value that a group word read. -/
def gv (vs : List W64) (n : Nat) : W64 := vs.getD n 0

/-- A result within W bits, zero-extended (R29): W is 64 with w, else 32. -/
def fitW (w : Bool) (v : W64) : W64 := if w then v else (v.truncate 32).zeroExtend 64

/-- A value read as signed within W bits. -/
def signedW (w : Bool) (v : W64) : Int := if w then v.toInt else (v.truncate 32).toInt

/-- A binary GA word. -/
def gbinWord (g : Group) (f : GrpBin) : GrpWord :=
  { guard := grpGuard g f.cg f.ng, srcs := [{ o := f.a, trap := f.ea }, { o := f.b, trap := f.eb }],
    dest := destOf f.d 1, wide := f.w }

/-- A unary GA word. -/
def gunWord (g : Group) (f : GrpUn) : GrpWord :=
  { guard := grpGuard g f.cg f.ng, srcs := [{ o := f.a, trap := f.ea }], dest := destOf f.d 1, wide := f.w }

/-- A binary group word that writes one value. -/
def State.grpBin (s : State) (i : Instr) (f : GrpBin) (op : W64 → W64 → W64) : Out :=
  .next (s.groupWord i (gbinWord s.grp f) (fun s1 v => .done (s1.writeGroup f.d (fitW f.w (op (gv v 0) (gv v 1))))))

/-- A unary group word that writes one value. -/
def State.grpUn (s : State) (i : Instr) (f : GrpUn) (op : W64 → W64) : Out :=
  .next (s.groupWord i (gunWord s.grp f) (fun s1 v => .done (s1.writeGroup f.d (fitW f.w (op (gv v 0))))))

end Sys2Proof.Machine
end

