-- ==== Sys2Proof/Machine/Access.lean ====
section
/-! DEFINITION. One access to memory by a thread or a group: the L1 (04_memory R56), claims (06_copy R89), strength and
scope (09_access R146 to R148), and the performing of a load, a store and an atomic. -/

namespace Sys2Proof.Machine

/-! ## Claimed units (R88, R89) -/

/-- Size of the unit that begins at a key: 64 bytes in a slice, 128 in device memory. -/
def unitSize (k : Nat) : Nat := if isSliceKey k then 64 else 128
/-- First key of the unit that holds a key. -/
def unitOf (k : Nat) : Nat := k / unitSize k * unitSize k

/-- A command holds a claimed unit that a range overlaps. A stow writes its whole extent, and holds it all (05_slices R335). -/
def CopyCmd.blocks (c : CopyCmd) (k n : Nat) : Bool :=
  c.granted && c.phase != .done && (c.held.any (fun u => decide (u < k + n) && decide (k < u + unitSize u)) ||
    (c.kind == .stow && c.extents.any (fun x => decide (x.1 < k + n) && decide (k < x.1 + x.2))))

/-- Some command holds a claimed unit that a range overlaps: an access that reaches the slice or the home waits. -/
def State.claimed (s : State) (k n : Nat) : Bool := s.copies.any (fun p => p.2.blocks k n)

/-! ## L1 -/

/-- The 128-byte line of a physical address. -/
def lineOf (pa : Nat) : Nat := pa / 128

/-- The line that a core's L1 holds. -/
def Core.line (c : Core) (ln : Nat) : Option L1Line := c.l1.find? (fun l => l.line == ln)

/-- A line leaves a core's L1. -/
def State.dropLine (s : State) (core ln : Nat) : State :=
  let c := s.core core
  s.setCore core { c with l1 := c.l1.filter (fun x => x.line != ln) }

/-- The bits of `n` bytes from byte `off` of a line. -/
def byteMask (off n : Nat) : BitVec 128 := BitVec.ofNat 128 ((2 ^ n - 1) * 2 ^ off)

/-- Byte `j` of a line. -/
def L1Line.byteAt (l : L1Line) (j : Nat) : Byte := BitVec.ofNat 8 (l.data.toNat / 2 ^ (8 * j))

/-- Byte `j` of a line is written. -/
def L1Line.put (l : L1Line) (j : Nat) (b : Byte) : L1Line :=
  { l with
    data := (l.data &&& ~~~(BitVec.ofNat 1024 (0xFF * 2 ^ (8 * j)))) ||| BitVec.ofNat 1024 (b.toNat * 2 ^ (8 * j))
    present := l.present ||| byteMask j 1 }

/-- Bytes of a line are written from byte `off` on. -/
def L1Line.putAll (l : L1Line) (off : Nat) (bs : List Byte) : L1Line :=
  match bs with
  | [] => l
  | b :: r => (l.put off b).putAll (off + 1) r

/-- `n` bytes of a line. -/
def L1Line.take (l : L1Line) (off n : Nat) : List Byte := (List.range n).map (fun i => l.byteAt (off + i))

/-- The line holds `n` bytes from `off`. -/
def L1Line.has (l : L1Line) (off n : Nat) : Bool := l.present &&& byteMask off n == byteMask off n

/-- A write of `n` bytes from `off` covers some uncorrectable 32-bit word of the line only in part (R67). -/
def L1Line.badPartial (l : L1Line) (off n : Nat) : Bool :=
  (List.range 32).any (fun i => l.bad &&& byteMask (4 * i) 4 != 0 && byteMask (4 * i) 4 &&& byteMask off n != 0 &&
    byteMask (4 * i) 4 &&& byteMask off n != byteMask (4 * i) 4)

/-- The runs of set bits among bits `j` and up of a mask: first bit and length. -/
def runsFrom (n j : Nat) (m : BitVec 128) : List (Nat × Nat) :=
  match n with
  | 0 => []
  | k + 1 =>
    let r := runsFrom k (j + 1) m
    if m.getLsbD j then
      match r with
      | (a, len) :: t => if a = j + 1 then (j, len + 1) :: t else (j, 1) :: r
      | [] => [(j, 1)]
    else r

/-- The event that tells of bytes of a write-back that were lost (09_access R150). -/
def State.lostEvent (s : State) (core pa : Nat) : State :=
  s.post ((s.vdevs.keysWhere (fun _ v => v.live && v.clusters.contains (clusterOf core))).headD 0)
    { type_ := 6, cause := Cause.code .uncorrectable, a := BitVec.ofNat 64 pa }

/-- The bytes of a run that reach the home: those outside the uncorrectable granules that the run covers in part. -/
def State.keptMask (s : State) (pa n : Nat) : BitVec 128 :=
  (List.range n).foldl (fun m j => if s.lostByte pa n (pa + j) then m else m ||| byteMask j 1) 0

/-- A run of dirty bytes is written at the home. Bytes of an uncorrectable granule that it covers in part are lost, which only
the event ring tells (09_access R150); the others are written. -/
def State.writeRun (s : State) (core pa : Nat) (bs : List Byte) : State :=
  if s.poisonPartial pa bs.length then
    ((runsFrom 128 0 (s.keptMask pa bs.length)).foldl (fun s r => s.writeHome (pa + r.1) ((bs.drop r.1).take r.2)) s).lostEvent core pa
  else s.writeHome pa bs

/-- A byte at the home becomes uncorrectable, with the 64 bits that the home-side cache protects together (04_memory R66). -/
def State.spoilByte (s : State) (pa : Nat) : State :=
  if s.poison.contains (protGranule true pa) then s else { s with poison := protGranule true pa :: s.poison }

/-- The dirty bytes of a line are written back, and no others (R56). Uncorrectable ones make their granules at the home uncorrectable,
so the error survives (R67). -/
def State.writeBack (s : State) (core : Nat) (l : L1Line) : State :=
  let s1 := (runsFrom 128 0 (l.dirty &&& ~~~l.bad)).foldl (fun s r => s.writeRun core (l.line * 128 + r.1) (l.take r.1 r.2)) s
  if l.bad = 0 then s1
  else ((List.range 128).filter (fun j => l.bad.getLsbD j)).foldl (fun s j => s.spoilByte (l.line * 128 + j)) s1

/-- A core's L1 holds the line in a new form. -/
def State.replaceLine (s : State) (core : Nat) (l : L1Line) : State :=
  let c := s.core core
  s.setCore core { c with l1 := l :: c.l1.filter (fun x => x.line != l.line) }

/-- A line is written back and stays, clean (12_consistency R349). -/
def State.cleanLine (s : State) (core ln : Nat) : State :=
  match (s.core core).line ln with
  | none => s
  | some l =>
    if l.dirty = 0 then s
    else (s.writeBack core l).replaceLine core { l with dirty := 0, bad := 0, present := l.present &&& ~~~l.bad }

/-- A line is written back and invalidated (R56). -/
def State.flushLine (s : State) (core ln : Nat) : State :=
  match (s.core core).line ln with
  | none => s
  | some l => (s.writeBack core l).dropLine core ln

/-- Every line of a core's L1 is written back. -/
def State.cleanAll (s : State) (core : Nat) : State :=
  (s.core core).l1.foldl (fun s l => s.cleanLine core l.line) s

/-- Every line of a core's L1 is written back and invalidated (R214). -/
def State.flushAll (s : State) (core : Nat) : State :=
  (s.core core).l1.foldl (fun s l => s.flushLine core l.line) s

/-- A dirty line of the core lies in a claimed unit: a write-back of all would have to wait (R89). -/
def State.dirtyClaimed (s : State) (core : Nat) : Bool :=
  (s.core core).l1.any (fun l => l.dirty != 0 && s.claimed (l.line * 128) 128)

/-- Lines of an L1: 64 KiB (R56). -/
def l1Lines : Nat := 512

/-- The lines that a core's L1 can evict now: a dirty one under a claim has to wait (06_copy R89). -/
def State.evictable (s : State) (core : Nat) : List Nat :=
  ((s.core core).l1.filter (fun l => !(l.dirty != 0 && s.claimed (l.line * 128) 128))).map (·.line)

/-- The L1 has room for the lines of one word, if need be by evictions. -/
def State.l1Room (s : State) (core : Nat) : Bool :=
  let n := (s.core core).l1.length
  decide (n + 32 ≤ l1Lines) || decide (n + 32 ≤ l1Lines + (s.evictable core).length)

/-- A full L1 evicts a line of its choice: a free value (R56, log entry 82). -/
def State.evictOne (s : State) (core : Nat) : State :=
  let l := s.evictable core
  match l[(Config.freeWord s.free).toNat % l.length]? with
  | none => s
  | some ln => (s.flushLine core ln).draw

/-- A line goes into a core's L1, which holds 64 KiB (R56): where it is full, another line leaves it first. -/
def State.setLine (s : State) (core : Nat) (l : L1Line) : State :=
  if (s.core core).l1.length < l1Lines || ((s.core core).line l.line).isSome then s.replaceLine core l
  else (s.evictOne core).replaceLine core l

/-- A line with the bytes that it lacks brought from the home, uncorrectable ones excepted. -/
def State.filled (s : State) (l : L1Line) : L1Line :=
  (List.range 128).foldl (fun l j =>
    if l.present.getLsbD j || s.poisoned (l.line * 128 + j) 1 then l
    else l.put j (Memory.get s.mem (l.line * 128 + j))) l

/-- The line as the L1 holds it, or an empty one. -/
def State.lineOrNew (s : State) (core ln : Nat) : L1Line :=
  match (s.core core).line ln with
  | some l => l
  | none => { line := ln }

/-! ## Strength and scope (R146, R148) -/

/-- A strong access at device or domain scope is performed at the home. -/
def atHome (sc : Scope) (st : Strength) : Bool :=
  st != .plain && (match sc with
    | .group => false
    | .team => false
    | .device => true
    | .domain => true)

/-- The access is a release at device or domain scope: earlier accesses are performed there first. -/
def releases (sc : Scope) (rel : Bool) : Bool :=
  rel && (match sc with
    | .group => false
    | .team => false
    | .device => true
    | .domain => true)

/-- What a release awaits (R148, 12_consistency R209, R219): at every scope the group's outstanding remote loads; at device or domain
scope claims on the dirty lines that it writes back; at domain scope also the acknowledgement of the group's earlier remote writes. -/
def State.releaseWaits (s : State) (sc : Scope) (rel : Bool) : Bool :=
  rel && s.awaitsRemote s.cur || releases sc rel && (s.dirtyClaimed s.curCore || (sc == .domain && !s.grp.posted.isEmpty))

/-- What a store or an atomic awaits before it is performed: a strong one every earlier remote load of the group, so that no agent sees
the two in the opposite order (12_consistency R219, R225), and a release what releases await. -/
def State.orderWaits (s : State) (sc : Scope) (strong rel : Bool) : Bool :=
  strong && s.awaitsRemote s.cur || s.releaseWaits sc rel

/-- The write-back before a release at device or domain scope. -/
def State.beforeRelease (s : State) (sc : Scope) (rel : Bool) : State :=
  if releases sc rel then s.cleanAll s.curCore else s

/-! ## What an access waits for -/

/-- An access of `n` bytes at a place waits on a claim; `home` for one that reaches the home in any case, `write` for a
store. -/
def State.placeBlocked (s : State) (core : Nat) (p : Place) (n : Nat) (home write : Bool) : Bool :=
  match p with
  | .slice k => s.claimed k n
  | .host _ _ _ => false
  | .device pa _ _ =>
    let hit := write || (match (s.core core).line (lineOf pa) with
      | some l => l.has (pa % 128) n
      | none => false)
    (home || !hit) && s.claimed (lineOf pa * 128) 128

/-- A plain access that allocates in the L1 waits for room in it: every line that could leave is dirty under a claim. -/
def State.roomBlocked (s : State) (core : Nat) (p : Place) (home : Bool) : Bool :=
  match p with
  | .slice _ => false
  | .host _ _ _ => false
  | .device _ _ _ => !home && !s.l1Room core

/-- An access at an address waits: on a claim, for room in the L1, or for a place in the pending table of walks (04_memory R61). -/
def State.blocked (s : State) (core vd : Nat) (ea : W64) (n : Nat) (k : AccKind) (home : Bool) : Bool :=
  s.walkFull core vd ea ||
    (match s.check core vd ea n k with
    | .error _ => false
    | .ok p => s.placeBlocked core p n home (k == .store) || s.roomBlocked core p home)

/-! ## Performing (R146) -/

/-- The fault UNCORRECTABLE of an access (04_memory R67). -/
def uncorrectableAt (ea : W64) (write host : Bool) : AccFault :=
  { cause := .uncorrectable, addr := ea, wr := write, host := host }

/-- `n` bytes are loaded. -/
def State.performLoad (s : State) (core vd : Nat) (ea : W64) (n : Nat) (home : Bool) :
    State × Except AccFault (List Byte) :=
  match s.check core vd ea n .load with
  | .error f => (s, .error f)
  | .ok p =>
    let s1 := s.touch core vd ea p false
    match p with
    | .slice k =>
      if s1.poisoned k n then (s1, .error (uncorrectableAt ea false false)) else (s1, .ok (s1.bytes k n))
    | .host a _ _ =>
      let bs := s1.bytes (hostKey a) n
      if s1.poisoned (hostKey a) n then (s1, .error (uncorrectableAt ea false true))
      else (s1.captureRead vd ea bs, .ok bs)
    | .device pa _ _ =>
      if home then
        let s2 := s1.flushLine core (lineOf pa)
        if s2.poisoned pa n then (s2, .error (uncorrectableAt ea false false)) else (s2, .ok (s2.bytes pa n))
      else
        let l := s1.lineOrNew core (lineOf pa)
        if l.bad &&& byteMask (pa % 128) n != 0 then (s1, .error (uncorrectableAt ea false false))
        else if l.has (pa % 128) n then (s1, .ok (l.take (pa % 128) n))
        else if s1.poisoned pa n then (s1, .error (uncorrectableAt ea false false))
        else
          let l' := s1.filled l
          (s1.setLine core l', .ok (l'.take (pa % 128) n))

/-- How a store ends. -/
inductive StoreEnd where
  | stored
  /-- its check fails: nothing is written -/
  | bad (f : AccFault)
  /-- a partial write to an uncorrectable granule (R150): nothing is written -/
  | late (f : AccFault)
deriving DecidableEq, Repr

/-- Bytes are stored. -/
def State.performStore (s : State) (core vd : Nat) (ea : W64) (bs : List Byte) (home : Bool) : State × StoreEnd :=
  let n := bs.length
  match s.check core vd ea n .store with
  | .error f => (s, .bad f)
  | .ok p =>
    let s1 := s.touch core vd ea p true
    match p with
    | .slice k =>
      if s1.poisonPartial k n then (s1, .late (uncorrectableAt ea true false)) else (s1.writeSlice k bs, .stored)
    | .host a _ _ => (s1.writeKey (hostKey a) bs, .stored)
    | .device pa _ _ =>
      if home then
        let s2 := s1.flushLine core (lineOf pa)
        if s2.poisonPartial pa n then (s2, .late (uncorrectableAt ea true false)) else (s2.writeHome pa bs, .stored)
      else
        let l0 := s1.lineOrNew core (lineOf pa)
        if l0.badPartial (pa % 128) n then (s1, .late (uncorrectableAt ea true false))
        else
          let l := l0.putAll (pa % 128) bs
          (s1.setLine core { l with dirty := l.dirty ||| byteMask (pa % 128) n, bad := l.bad &&& ~~~byteMask (pa % 128) n }, .stored)

/-- Replay capture notes an atomic: its address, and the launch, team and group that make it (17_command R296). -/
def State.captureAtomic (s : State) (vd : Nat) (ea : W64) : State :=
  s.captureInput vd .atomic
    [ea, BitVec.ofNat 64 s.curTeam.launch, BitVec.ofNat 64 s.curTeam.index, BitVec.ofNat 64 s.grp.idx]

/-- An atomic of `n` bytes: the old value, or the fault. `simple` for ADD, XCH and CAS (04_memory R65). -/
def State.performAtomic (s0 : State) (core vd : Nat) (ea : W64) (n : Nat) (simple : Bool) (f : Nat → Nat) :
    State × Except AccFault Nat :=
  match s0.check core vd ea n .atomic with
  | .error e => (s0, .error e)
  | .ok p =>
    let s := s0.captureAtomic vd ea
    match p with
    | .slice k =>
      if s.poisoned k n then (s, .error (uncorrectableAt ea true false))
      else (s.writeSlice k (leBytes n (f (s.loadLe k n))), .ok (s.loadLe k n))
    | .host a _ _ =>
      if !s.hostAtomicOk (n == 8) simple then
        (s, .error { cause := .hostAtomicUnsupported, addr := ea, wr := true, host := true })
      else
        let s1 := s.touch core vd ea p true
        if s1.poisoned (hostKey a) n then (s1, .error (uncorrectableAt ea true true))
        else (s1.writeKey (hostKey a) (leBytes n (f (s1.loadLe (hostKey a) n))), .ok (s1.loadLe (hostKey a) n))
    | .device pa _ _ =>
      let s1 := (s.touch core vd ea p true).flushLine core (lineOf pa)
      if s1.poisoned pa n then (s1, .error (uncorrectableAt ea true false))
      else (s1.writeHome pa (leBytes n (f (s1.loadLe pa n))), .ok (s1.loadLe pa n))

/-- PREF (R156): a readable device line comes into the L1, and A is set. -/
def State.prefetch (s : State) (core vd : Nat) (ea : W64) : State :=
  if !addrOk ea || decide (sliceBase ≤ ea.toNat) then s
  else
    match s.check core vd ea 1 .load with
    | .error _ => s
    | .ok p =>
      match p with
      | .slice _ => s
      | .host _ _ _ => s
      | .device pa _ _ =>
        if s.claimed (lineOf pa * 128) 128 || !s.l1Room core || s.walkFull core vd ea then s
        else
          let s1 := s.touch core vd ea p false
          s1.setLine core (s1.filled (s1.lineOrNew core (lineOf pa)))

/-! ## Atomic operations (R154, R158) -/

/-- The new value of an atomic of `bits` bits. `b` is the operand (for CAS the expected value), `nv` the new value of CAS. -/
def atomNew (op : AtomOp) (bits : Nat) (old b nv : Nat) : Nat :=
  let so := signedOf bits old
  let sb := signedOf bits b
  match op with
  | .add => (old + b) % 2 ^ bits
  | .smin => if so ≤ sb then old else b
  | .smax => if sb ≤ so then old else b
  | .umin => if old ≤ b then old else b
  | .umax => if b ≤ old then old else b
  | .and => old &&& b
  | .or => old ||| b
  | .xor => old ^^^ b
  | .xch => b
  | .cas => if old = b then nv else old
  | .fadd => (roundFp32 .rn ((exact .fp32 old).add .rn (exact .fp32 b)).1).1.toNat

/-- The operation has a host AtomicOp (04_memory R65). -/
def simpleOp : AtomOp → Bool
  | .add => true
  | .xch => true
  | .cas => true
  | .smin => false
  | .smax => false
  | .umin => false
  | .umax => false
  | .and => false
  | .or => false
  | .xor => false
  | .fadd => false

end Sys2Proof.Machine
end

