-- ==== Sys2Proof/Decode.lean ====
section
/-! DEFINITION. Reading and writing instruction words (02_encoding R17 to R31): fields by division and remainder, so
that a field read back from an encoding is plain arithmetic. -/

namespace Sys2Proof

/-- A 6-bit register field as a number (R21). -/
def Opnd.enc : Opnd → Nat
  | .reg n => n.val
  | .port q => 56 + q.val

/-- A 6-bit register field read (R21): 0 to 55 a register, 56 to 63 a queue port. -/
def Opnd.dec (n : Nat) : Opnd :=
  if h : n < 56 then .reg ⟨n, h⟩ else .port (Fin.ofNat 8 (n - 56))

/-- The code of each IntCond (R20, R26, R28, R29, R238). -/
def IntCond.enc : IntCond → Nat
  | .eq => 0
  | .ne => 1
  | .lt => 2
  | .le => 3
  | .gt => 4
  | .ge => 5

/-- The IntCond of a code. A code that names none is refused beside this reading. -/
def IntCond.dec : Nat → IntCond
  | 0 => .eq
  | 1 => .ne
  | 2 => .lt
  | 3 => .le
  | 4 => .gt
  | _ => .ge

/-- The code of each FltCond (R20, R26, R28, R29, R238). -/
def FltCond.enc : FltCond → Nat
  | .eq => 0
  | .ne => 1
  | .lt => 2
  | .le => 3
  | .gt => 4
  | .ge => 5
  | .un => 6
  | .ord => 7

/-- The FltCond of a code. A code that names none is refused beside this reading. -/
def FltCond.dec : Nat → FltCond
  | 0 => .eq
  | 1 => .ne
  | 2 => .lt
  | 3 => .le
  | 4 => .gt
  | 5 => .ge
  | 6 => .un
  | _ => .ord

/-- The code of each GrpCond (R20, R26, R28, R29, R238). -/
def GrpCond.enc : GrpCond → Nat
  | .eq => 0
  | .ne => 1
  | .lt => 2
  | .le => 3
  | .gt => 4
  | .ge => 5
  | .ltu => 6
  | .leu => 7
  | .gtu => 8
  | .geu => 9

/-- The GrpCond of a code. A code that names none is refused beside this reading. -/
def GrpCond.dec : Nat → GrpCond
  | 0 => .eq
  | 1 => .ne
  | 2 => .lt
  | 3 => .le
  | 4 => .gt
  | 5 => .ge
  | 6 => .ltu
  | 7 => .leu
  | 8 => .gtu
  | _ => .geu

/-- The code of each Scope (R20, R26, R28, R29, R238). -/
def Scope.enc : Scope → Nat
  | .group => 0
  | .team => 1
  | .device => 2
  | .domain => 3

/-- The Scope of a code. A code that names none is refused beside this reading. -/
def Scope.dec : Nat → Scope
  | 0 => .group
  | 1 => .team
  | 2 => .device
  | _ => .domain

/-- The code of each Strength (R20, R26, R28, R29, R238). -/
def Strength.enc : Strength → Nat
  | .plain => 0
  | .relaxed => 1
  | .acquire => 2
  | .release => 3

/-- The Strength of a code. A code that names none is refused beside this reading. -/
def Strength.dec : Nat → Strength
  | 0 => .plain
  | 1 => .relaxed
  | 2 => .acquire
  | _ => .release

/-- The code of each CvtRound (R20, R26, R28, R29, R238). -/
def CvtRound.enc : CvtRound → Nat
  | .fpm => 0
  | .rn => 1
  | .rz => 2
  | .rp => 3
  | .rm => 4

/-- The CvtRound of a code. A code that names none is refused beside this reading. -/
def CvtRound.dec : Nat → CvtRound
  | 0 => .fpm
  | 1 => .rn
  | 2 => .rz
  | 3 => .rp
  | _ => .rm

/-- The code of each VoteMode (R20, R26, R28, R29, R238). -/
def VoteMode.enc : VoteMode → Nat
  | .all => 0
  | .any => 1
  | .uni => 2

/-- The VoteMode of a code. A code that names none is refused beside this reading. -/
def VoteMode.dec : Nat → VoteMode
  | 0 => .all
  | 1 => .any
  | _ => .uni

/-- The code of each RedOp (R20, R26, R28, R29, R238). -/
def RedOp.enc : RedOp → Nat
  | .iadd => 0
  | .imin => 1
  | .imax => 2
  | .umin => 3
  | .umax => 4
  | .fadd => 5
  | .fmin => 6
  | .fmax => 7

/-- The RedOp of a code. A code that names none is refused beside this reading. -/
def RedOp.dec : Nat → RedOp
  | 0 => .iadd
  | 1 => .imin
  | 2 => .imax
  | 3 => .umin
  | 4 => .umax
  | 5 => .fadd
  | 6 => .fmin
  | _ => .fmax

/-- The code of each AtomOp (R20, R26, R28, R29, R238). -/
def AtomOp.enc : AtomOp → Nat
  | .add => 0
  | .smin => 1
  | .smax => 2
  | .umin => 3
  | .umax => 4
  | .and => 5
  | .or => 6
  | .xor => 7
  | .xch => 8
  | .cas => 9
  | .fadd => 10

/-- The AtomOp of a code. A code that names none is refused beside this reading. -/
def AtomOp.dec : Nat → AtomOp
  | 0 => .add
  | 1 => .smin
  | 2 => .smax
  | 3 => .umin
  | 4 => .umax
  | 5 => .and
  | 6 => .or
  | 7 => .xor
  | 8 => .xch
  | 9 => .cas
  | _ => .fadd

/-- The code of each RecSize (R20, R26, R28, R29, R238). -/
def RecSize.enc : RecSize → Nat
  | .s16 => 0
  | .s32 => 1
  | .s64 => 2

/-- The RecSize of a code. A code that names none is refused beside this reading. -/
def RecSize.dec : Nat → RecSize
  | 0 => .s16
  | 1 => .s32
  | _ => .s64

/-- SIGWT's condition codes (11_fabric R396): GE, GT, EQ, NE, LT, LE. -/
def IntCond.encSig : IntCond → Nat
  | .ge => 0
  | .gt => 1
  | .eq => 2
  | .ne => 3
  | .lt => 4
  | .le => 5

/-- The condition of a SIGWT code. -/
def IntCond.decSig : Nat → IntCond
  | 0 => .ge
  | 1 => .gt
  | 2 => .eq
  | 3 => .ne
  | 4 => .lt
  | _ => .le

/-- Reads the fields of a LaneBin word. -/
def LaneBin.dec (w : Nat) : LaneBin where
  d := Opnd.dec (natField w 18 6)
  a := Opnd.dec (natField w 12 6)
  b := Opnd.dec (natField w 6 6)
  pg := Fin.ofNat 8 (natField w 3 3)
  ng := natBit w 2
  ea := natBit w 1
  eb := natBit w 0

/-- Writes a LaneBin word with opcode byte `op`. -/
def LaneBin.enc (op : Nat) (f : LaneBin) : Nat :=
  op * 2 ^ 24 + f.d.enc * 2 ^ 18 + f.a.enc * 2 ^ 12 + f.b.enc * 2 ^ 6 + f.pg.val * 2 ^ 3 + bitNat f.ng * 2 ^ 2 + bitNat f.ea * 2 ^ 1 + bitNat f.eb

/-- Reads the fields of a LaneUn word. -/
def LaneUn.dec (w : Nat) : LaneUn where
  d := Opnd.dec (natField w 18 6)
  a := Opnd.dec (natField w 12 6)
  pg := Fin.ofNat 8 (natField w 3 3)
  ng := natBit w 2
  ea := natBit w 1

/-- Writes a LaneUn word with opcode byte `op`. -/
def LaneUn.enc (op : Nat) (f : LaneUn) : Nat :=
  op * 2 ^ 24 + f.d.enc * 2 ^ 18 + f.a.enc * 2 ^ 12 + f.pg.val * 2 ^ 3 + bitNat f.ng * 2 ^ 2 + bitNat f.ea * 2 ^ 1

/-- Reads the fields of a LaneICmp word. -/
def LaneICmp.dec (w : Nat) : LaneICmp where
  pd := Fin.ofNat 8 (natField w 21 3)
  cc := IntCond.dec (natField w 18 3)
  a := Opnd.dec (natField w 12 6)
  b := Opnd.dec (natField w 6 6)
  pg := Fin.ofNat 8 (natField w 3 3)
  ng := natBit w 2
  ea := natBit w 1
  eb := natBit w 0

/-- Writes a LaneICmp word with opcode byte `op`. -/
def LaneICmp.enc (op : Nat) (f : LaneICmp) : Nat :=
  op * 2 ^ 24 + f.pd.val * 2 ^ 21 + f.cc.enc * 2 ^ 18 + f.a.enc * 2 ^ 12 + f.b.enc * 2 ^ 6 + f.pg.val * 2 ^ 3 + bitNat f.ng * 2 ^ 2 + bitNat f.ea * 2 ^ 1 + bitNat f.eb

/-- Reads the fields of a LaneFCmp word. -/
def LaneFCmp.dec (w : Nat) : LaneFCmp where
  pd := Fin.ofNat 8 (natField w 21 3)
  cc := FltCond.dec (natField w 18 3)
  a := Opnd.dec (natField w 12 6)
  b := Opnd.dec (natField w 6 6)
  pg := Fin.ofNat 8 (natField w 3 3)
  ng := natBit w 2
  ea := natBit w 1
  eb := natBit w 0

/-- Writes a LaneFCmp word with opcode byte `op`. -/
def LaneFCmp.enc (op : Nat) (f : LaneFCmp) : Nat :=
  op * 2 ^ 24 + f.pd.val * 2 ^ 21 + f.cc.enc * 2 ^ 18 + f.a.enc * 2 ^ 12 + f.b.enc * 2 ^ 6 + f.pg.val * 2 ^ 3 + bitNat f.ng * 2 ^ 2 + bitNat f.ea * 2 ^ 1 + bitNat f.eb

/-- Reads the fields of a LaneImm word. -/
def LaneImm.dec (w : Nat) : LaneImm where
  d := Opnd.dec (natField w 18 6)
  a := Opnd.dec (natField w 12 6)
  imm := BitVec.ofNat 9 (natField w 3 9)
  pg := Fin.ofNat 8 (natField w 0 3)

/-- Writes a LaneImm word with opcode byte `op`. -/
def LaneImm.enc (op : Nat) (f : LaneImm) : Nat :=
  op * 2 ^ 24 + f.d.enc * 2 ^ 18 + f.a.enc * 2 ^ 12 + f.imm.toNat * 2 ^ 3 + f.pg.val

/-- Reads the fields of a LaneLea word. -/
def LaneLea.dec (w : Nat) : LaneLea where
  d := Opnd.dec (natField w 18 6)
  a := Opnd.dec (natField w 12 6)
  sh := Fin.ofNat 8 (natField w 9 3)
  b := Opnd.dec (natField w 3 6)
  pg := Fin.ofNat 8 (natField w 0 3)

/-- Writes a LaneLea word with opcode byte `op`. -/
def LaneLea.enc (op : Nat) (f : LaneLea) : Nat :=
  op * 2 ^ 24 + f.d.enc * 2 ^ 18 + f.a.enc * 2 ^ 12 + f.sh.val * 2 ^ 9 + f.b.enc * 2 ^ 3 + f.pg.val

/-- Reads the fields of a LaneMovi word. -/
def LaneMovi.dec (w : Nat) : LaneMovi where
  d := Opnd.dec (natField w 18 6)
  imm := BitVec.ofNat 15 (natField w 3 15)
  pg := Fin.ofNat 8 (natField w 0 3)

/-- Writes a LaneMovi word with opcode byte `op`. -/
def LaneMovi.enc (op : Nat) (f : LaneMovi) : Nat :=
  op * 2 ^ 24 + f.d.enc * 2 ^ 18 + f.imm.toNat * 2 ^ 3 + f.pg.val

/-- Reads the fields of a LaneCvt word. -/
def LaneCvt.dec (w : Nat) : LaneCvt where
  d := Opnd.dec (natField w 18 6)
  a := Opnd.dec (natField w 12 6)
  rnd := CvtRound.dec (natField w 9 3)
  sat := natBit w 8
  fmt := Fin.ofNat 4 (natField w 6 2)
  pg := Fin.ofNat 8 (natField w 3 3)
  ng := natBit w 2
  ea := natBit w 1

/-- Writes a LaneCvt word with opcode byte `op`. -/
def LaneCvt.enc (op : Nat) (f : LaneCvt) : Nat :=
  op * 2 ^ 24 + f.d.enc * 2 ^ 18 + f.a.enc * 2 ^ 12 + f.rnd.enc * 2 ^ 9 + bitNat f.sat * 2 ^ 8 + f.fmt.val * 2 ^ 6 + f.pg.val * 2 ^ 3 + bitNat f.ng * 2 ^ 2 + bitNat f.ea * 2 ^ 1

/-- Reads the fields of a LaneColl word. -/
def LaneColl.dec (w : Nat) : LaneColl where
  d := Opnd.dec (natField w 18 6)
  a := Opnd.dec (natField w 12 6)
  b := Opnd.dec (natField w 6 6)
  v := Fin.ofNat 8 (natField w 3 3)
  tg := natBit w 2
  ea := natBit w 1

/-- Writes a LaneColl word with opcode byte `op`. -/
def LaneColl.enc (op : Nat) (f : LaneColl) : Nat :=
  op * 2 ^ 24 + f.d.enc * 2 ^ 18 + f.a.enc * 2 ^ 12 + f.b.enc * 2 ^ 6 + f.v.val * 2 ^ 3 + bitNat f.tg * 2 ^ 2 + bitNat f.ea * 2 ^ 1

/-- Reads the fields of a LaneGred word. -/
def LaneGred.dec (w : Nat) : LaneGred where
  d := Opnd.dec (natField w 18 6)
  a := Opnd.dec (natField w 12 6)
  b := Opnd.dec (natField w 6 6)
  op := RedOp.dec (natField w 3 3)
  tg := natBit w 2
  ea := natBit w 1

/-- Writes a LaneGred word with opcode byte `op`. -/
def LaneGred.enc (op : Nat) (f : LaneGred) : Nat :=
  op * 2 ^ 24 + f.d.enc * 2 ^ 18 + f.a.enc * 2 ^ 12 + f.b.enc * 2 ^ 6 + f.op.enc * 2 ^ 3 + bitNat f.tg * 2 ^ 2 + bitNat f.ea * 2 ^ 1

/-- Reads the fields of a LaneVote word. -/
def LaneVote.dec (w : Nat) : LaneVote where
  pd := Fin.ofNat 8 (natField w 21 3)
  mode := VoteMode.dec (natField w 18 3)
  ps := Fin.ofNat 8 (natField w 15 3)
  b := Opnd.dec (natField w 6 6)
  tg := natBit w 2

/-- Writes a LaneVote word with opcode byte `op`. -/
def LaneVote.enc (op : Nat) (f : LaneVote) : Nat :=
  op * 2 ^ 24 + f.pd.val * 2 ^ 21 + f.mode.enc * 2 ^ 18 + f.ps.val * 2 ^ 15 + f.b.enc * 2 ^ 6 + bitNat f.tg * 2 ^ 2

/-- Reads the fields of a LaneBallot word. -/
def LaneBallot.dec (w : Nat) : LaneBallot where
  d := Opnd.dec (natField w 18 6)
  ps := Fin.ofNat 8 (natField w 15 3)
  b := Opnd.dec (natField w 6 6)
  tg := natBit w 2

/-- Writes a LaneBallot word with opcode byte `op`. -/
def LaneBallot.enc (op : Nat) (f : LaneBallot) : Nat :=
  op * 2 ^ 24 + f.d.enc * 2 ^ 18 + f.ps.val * 2 ^ 15 + f.b.enc * 2 ^ 6 + bitNat f.tg * 2 ^ 2

/-- Reads the fields of a LaneBar word. -/
def LaneBar.dec (w : Nat) : LaneBar where
  b := Opnd.dec (natField w 6 6)
  tg := natBit w 2

/-- Writes a LaneBar word with opcode byte `op`. -/
def LaneBar.enc (op : Nat) (f : LaneBar) : Nat :=
  op * 2 ^ 24 + f.b.enc * 2 ^ 6 + bitNat f.tg * 2 ^ 2

/-- Reads the fields of a LaneOne word. -/
def LaneOne.dec (w : Nat) : LaneOne where
  d := Opnd.dec (natField w 18 6)
  pg := Fin.ofNat 8 (natField w 3 3)
  ng := natBit w 2

/-- Writes a LaneOne word with opcode byte `op`. -/
def LaneOne.enc (op : Nat) (f : LaneOne) : Nat :=
  op * 2 ^ 24 + f.d.enc * 2 ^ 18 + f.pg.val * 2 ^ 3 + bitNat f.ng * 2 ^ 2

/-- Reads the fields of a LaneSrc word. -/
def LaneSrc.dec (w : Nat) : LaneSrc where
  a := Opnd.dec (natField w 12 6)
  pg := Fin.ofNat 8 (natField w 3 3)
  ng := natBit w 2
  ea := natBit w 1

/-- Writes a LaneSrc word with opcode byte `op`. -/
def LaneSrc.enc (op : Nat) (f : LaneSrc) : Nat :=
  op * 2 ^ 24 + f.a.enc * 2 ^ 12 + f.pg.val * 2 ^ 3 + bitNat f.ng * 2 ^ 2 + bitNat f.ea * 2 ^ 1

/-- Reads the fields of a LaneGetid word. -/
def LaneGetid.dec (w : Nat) : LaneGetid where
  d := Opnd.dec (natField w 18 6)
  sel := BitVec.ofNat 9 (natField w 3 9)
  pg := Fin.ofNat 8 (natField w 0 3)

/-- Writes a LaneGetid word with opcode byte `op`. -/
def LaneGetid.enc (op : Nat) (f : LaneGetid) : Nat :=
  op * 2 ^ 24 + f.d.enc * 2 ^ 18 + f.sel.toNat * 2 ^ 3 + f.pg.val

/-- Reads the fields of a LaneMem word. -/
def LaneMem.dec (w : Nat) : LaneMem where
  d := Opnd.dec (natField w 18 6)
  a := Opnd.dec (natField w 12 6)
  off := BitVec.ofNat 6 (natField w 6 6)
  sc := Scope.dec (natField w 4 2)
  st := Strength.dec (natField w 2 2)
  pg := Fin.ofNat 4 (natField w 0 2)

/-- Writes a LaneMem word with opcode byte `op`. -/
def LaneMem.enc (op : Nat) (f : LaneMem) : Nat :=
  op * 2 ^ 24 + f.d.enc * 2 ^ 18 + f.a.enc * 2 ^ 12 + f.off.toNat * 2 ^ 6 + f.sc.enc * 2 ^ 4 + f.st.enc * 2 ^ 2 + f.pg.val

/-- Reads the fields of a LaneMemIdx word. -/
def LaneMemIdx.dec (w : Nat) : LaneMemIdx where
  d := Opnd.dec (natField w 18 6)
  a := Opnd.dec (natField w 12 6)
  b := Opnd.dec (natField w 6 6)
  sc := Scope.dec (natField w 4 2)
  st := Strength.dec (natField w 2 2)
  pg := Fin.ofNat 4 (natField w 0 2)

/-- Writes a LaneMemIdx word with opcode byte `op`. -/
def LaneMemIdx.enc (op : Nat) (f : LaneMemIdx) : Nat :=
  op * 2 ^ 24 + f.d.enc * 2 ^ 18 + f.a.enc * 2 ^ 12 + f.b.enc * 2 ^ 6 + f.sc.enc * 2 ^ 4 + f.st.enc * 2 ^ 2 + f.pg.val

/-- Reads the fields of a LanePref word. -/
def LanePref.dec (w : Nat) : LanePref where
  a := Opnd.dec (natField w 12 6)
  off := BitVec.ofNat 6 (natField w 6 6)
  pg := Fin.ofNat 4 (natField w 0 2)

/-- Writes a LanePref word with opcode byte `op`. -/
def LanePref.enc (op : Nat) (f : LanePref) : Nat :=
  op * 2 ^ 24 + f.a.enc * 2 ^ 12 + f.off.toNat * 2 ^ 6 + f.pg.val

/-- Reads the fields of a LaneRemote word. -/
def LaneRemote.dec (w : Nat) : LaneRemote where
  d := Opnd.dec (natField w 18 6)
  a := Opnd.dec (natField w 12 6)
  off := BitVec.ofNat 6 (natField w 6 6)
  st := Strength.dec (natField w 2 2)
  pg := Fin.ofNat 4 (natField w 0 2)

/-- Writes a LaneRemote word with opcode byte `op`. -/
def LaneRemote.enc (op : Nat) (f : LaneRemote) : Nat :=
  op * 2 ^ 24 + f.d.enc * 2 ^ 18 + f.a.enc * 2 ^ 12 + f.off.toNat * 2 ^ 6 + f.st.enc * 2 ^ 2 + f.pg.val

/-- Reads the fields of a LaneRatom word. -/
def LaneRatom.dec (w : Nat) : LaneRatom where
  d := Opnd.dec (natField w 18 6)
  a := Opnd.dec (natField w 12 6)
  b := Opnd.dec (natField w 6 6)
  op := AtomOp.dec (natField w 2 4)
  st := Strength.dec (natField w 0 2)

/-- Writes a LaneRatom word with opcode byte `op`. -/
def LaneRatom.enc (op : Nat) (f : LaneRatom) : Nat :=
  op * 2 ^ 24 + f.d.enc * 2 ^ 18 + f.a.enc * 2 ^ 12 + f.b.enc * 2 ^ 6 + f.op.enc * 2 ^ 2 + f.st.enc

/-- Reads the fields of a LaneBr word. -/
def LaneBr.dec (w : Nat) : LaneBr where
  pg := Fin.ofNat 8 (natField w 21 3)
  ng := natBit w 20
  off := BitVec.ofNat 20 (natField w 0 20)

/-- Writes a LaneBr word with opcode byte `op`. -/
def LaneBr.enc (op : Nat) (f : LaneBr) : Nat :=
  op * 2 ^ 24 + f.pg.val * 2 ^ 21 + bitNat f.ng * 2 ^ 20 + f.off.toNat

/-- Reads the fields of a LaneGuard word. -/
def LaneGuard.dec (w : Nat) : LaneGuard where
  pg := Fin.ofNat 8 (natField w 3 3)
  ng := natBit w 2

/-- Writes a LaneGuard word with opcode byte `op`. -/
def LaneGuard.enc (op : Nat) (f : LaneGuard) : Nat :=
  op * 2 ^ 24 + f.pg.val * 2 ^ 3 + bitNat f.ng * 2 ^ 2

/-- Reads the fields of a LaneExit word. -/
def LaneExit.dec (w : Nat) : LaneExit where
  sc := Scope.dec (natField w 4 2)
  pg := Fin.ofNat 4 (natField w 0 2)

/-- Writes a LaneExit word with opcode byte `op`. -/
def LaneExit.enc (op : Nat) (f : LaneExit) : Nat :=
  op * 2 ^ 24 + f.sc.enc * 2 ^ 4 + f.pg.val

/-- Reads the fields of a LaneSpawn word. -/
def LaneSpawn.dec (w : Nat) : LaneSpawn where
  size := RecSize.dec (natField w 22 2)
  a := Opnd.dec (natField w 12 6)
  b := Opnd.dec (natField w 6 6)
  pg := Fin.ofNat 8 (natField w 3 3)
  ng := natBit w 2
  ea := natBit w 1

/-- Writes a LaneSpawn word with opcode byte `op`. -/
def LaneSpawn.enc (op : Nat) (f : LaneSpawn) : Nat :=
  op * 2 ^ 24 + f.size.enc * 2 ^ 22 + f.a.enc * 2 ^ 12 + f.b.enc * 2 ^ 6 + f.pg.val * 2 ^ 3 + bitNat f.ng * 2 ^ 2 + bitNat f.ea * 2 ^ 1

/-- Reads the fields of a GrpBin word. -/
def GrpBin.dec (w : Nat) : GrpBin where
  d := Opnd.dec (natField w 18 6)
  a := Opnd.dec (natField w 12 6)
  b := Opnd.dec (natField w 6 6)
  cg := Fin.ofNat 4 (natField w 4 2)
  ng := natBit w 3
  ea := natBit w 2
  eb := natBit w 1
  w := natBit w 0

/-- Writes a GrpBin word with opcode byte `op`. -/
def GrpBin.enc (op : Nat) (f : GrpBin) : Nat :=
  op * 2 ^ 24 + f.d.enc * 2 ^ 18 + f.a.enc * 2 ^ 12 + f.b.enc * 2 ^ 6 + f.cg.val * 2 ^ 4 + bitNat f.ng * 2 ^ 3 + bitNat f.ea * 2 ^ 2 + bitNat f.eb * 2 ^ 1 + bitNat f.w

/-- Reads the fields of a GrpUn word. -/
def GrpUn.dec (w : Nat) : GrpUn where
  d := Opnd.dec (natField w 18 6)
  a := Opnd.dec (natField w 12 6)
  cg := Fin.ofNat 4 (natField w 4 2)
  ng := natBit w 3
  ea := natBit w 2
  w := natBit w 0

/-- Writes a GrpUn word with opcode byte `op`. -/
def GrpUn.enc (op : Nat) (f : GrpUn) : Nat :=
  op * 2 ^ 24 + f.d.enc * 2 ^ 18 + f.a.enc * 2 ^ 12 + f.cg.val * 2 ^ 4 + bitNat f.ng * 2 ^ 3 + bitNat f.ea * 2 ^ 2 + bitNat f.w

/-- Reads the fields of a GrpCmp word. -/
def GrpCmp.dec (w : Nat) : GrpCmp where
  cd := Fin.ofNat 4 (natField w 22 2)
  cc := GrpCond.dec (natField w 18 4)
  a := Opnd.dec (natField w 12 6)
  b := Opnd.dec (natField w 6 6)
  cg := Fin.ofNat 4 (natField w 4 2)
  ng := natBit w 3
  ea := natBit w 2
  eb := natBit w 1
  w := natBit w 0

/-- Writes a GrpCmp word with opcode byte `op`. -/
def GrpCmp.enc (op : Nat) (f : GrpCmp) : Nat :=
  op * 2 ^ 24 + f.cd.val * 2 ^ 22 + f.cc.enc * 2 ^ 18 + f.a.enc * 2 ^ 12 + f.b.enc * 2 ^ 6 + f.cg.val * 2 ^ 4 + bitNat f.ng * 2 ^ 3 + bitNat f.ea * 2 ^ 2 + bitNat f.eb * 2 ^ 1 + bitNat f.w

/-- Reads the fields of a GrpImm word. -/
def GrpImm.dec (w : Nat) : GrpImm where
  d := Opnd.dec (natField w 18 6)
  imm := BitVec.ofNat 18 (natField w 0 18)

/-- Writes a GrpImm word with opcode byte `op`. -/
def GrpImm.enc (op : Nat) (f : GrpImm) : Nat :=
  op * 2 ^ 24 + f.d.enc * 2 ^ 18 + f.imm.toNat

/-- Reads the fields of a GrpBr word. -/
def GrpBr.dec (w : Nat) : GrpBr where
  cg := Fin.ofNat 4 (natField w 22 2)
  ng := natBit w 21
  off := BitVec.ofNat 20 (natField w 0 20)

/-- Writes a GrpBr word with opcode byte `op`. -/
def GrpBr.enc (op : Nat) (f : GrpBr) : Nat :=
  op * 2 ^ 24 + f.cg.val * 2 ^ 22 + bitNat f.ng * 2 ^ 21 + f.off.toNat

/-- Reads the fields of a GrpGuard word. -/
def GrpGuard.dec (w : Nat) : GrpGuard where
  cg := Fin.ofNat 4 (natField w 4 2)
  ng := natBit w 3

/-- Writes a GrpGuard word with opcode byte `op`. -/
def GrpGuard.enc (op : Nat) (f : GrpGuard) : Nat :=
  op * 2 ^ 24 + f.cg.val * 2 ^ 4 + bitNat f.ng * 2 ^ 3

/-- Reads the fields of a GrpQclose word. -/
def GrpQclose.dec (w : Nat) : GrpQclose where
  d := Opnd.dec (natField w 18 6)
  cg := Fin.ofNat 4 (natField w 4 2)
  ng := natBit w 3

/-- Writes a GrpQclose word with opcode byte `op`. -/
def GrpQclose.enc (op : Nat) (f : GrpQclose) : Nat :=
  op * 2 ^ 24 + f.d.enc * 2 ^ 18 + f.cg.val * 2 ^ 4 + bitNat f.ng * 2 ^ 3

/-- Reads the fields of a GrpQstat word. -/
def GrpQstat.dec (w : Nat) : GrpQstat where
  d := Opnd.dec (natField w 18 6)
  a := Opnd.dec (natField w 12 6)
  cg := Fin.ofNat 4 (natField w 4 2)
  ng := natBit w 3

/-- Writes a GrpQstat word with opcode byte `op`. -/
def GrpQstat.enc (op : Nat) (f : GrpQstat) : Nat :=
  op * 2 ^ 24 + f.d.enc * 2 ^ 18 + f.a.enc * 2 ^ 12 + f.cg.val * 2 ^ 4 + bitNat f.ng * 2 ^ 3

/-- Reads the fields of a GrpMem word. -/
def GrpMem.dec (w : Nat) : GrpMem where
  d := Opnd.dec (natField w 18 6)
  a := Opnd.dec (natField w 12 6)
  b := Opnd.dec (natField w 6 6)
  sc := Scope.dec (natField w 4 2)
  st := Strength.dec (natField w 2 2)

/-- Writes a GrpMem word with opcode byte `op`. -/
def GrpMem.enc (op : Nat) (f : GrpMem) : Nat :=
  op * 2 ^ 24 + f.d.enc * 2 ^ 18 + f.a.enc * 2 ^ 12 + f.b.enc * 2 ^ 6 + f.sc.enc * 2 ^ 4 + f.st.enc * 2 ^ 2

/-- Reads the fields of a GrpAtom word. -/
def GrpAtom.dec (w : Nat) : GrpAtom where
  d := Opnd.dec (natField w 18 6)
  a := Opnd.dec (natField w 12 6)
  b := Opnd.dec (natField w 6 6)
  op := AtomOp.dec (natField w 2 4)
  st := Strength.dec (natField w 0 2)

/-- Writes a GrpAtom word with opcode byte `op`. -/
def GrpAtom.enc (op : Nat) (f : GrpAtom) : Nat :=
  op * 2 ^ 24 + f.d.enc * 2 ^ 18 + f.a.enc * 2 ^ 12 + f.b.enc * 2 ^ 6 + f.op.enc * 2 ^ 2 + f.st.enc

/-- Reads the fields of a GrpAgen word. -/
def GrpAgen.dec (w : Nat) : GrpAgen where
  d := Opnd.dec (natField w 18 6)
  a := Opnd.dec (natField w 12 6)
  b := Opnd.dec (natField w 6 6)
  n := Fin.ofNat 8 (natField w 3 3)
  w := Fin.ofNat 8 (natField w 0 3)

/-- Writes a GrpAgen word with opcode byte `op`. -/
def GrpAgen.enc (op : Nat) (f : GrpAgen) : Nat :=
  op * 2 ^ 24 + f.d.enc * 2 ^ 18 + f.a.enc * 2 ^ 12 + f.b.enc * 2 ^ 6 + f.n.val * 2 ^ 3 + f.w.val

/-- Reads the fields of a GrpTwo word. -/
def GrpTwo.dec (w : Nat) : GrpTwo where
  a := Opnd.dec (natField w 12 6)
  b := Opnd.dec (natField w 6 6)

/-- Writes a GrpTwo word with opcode byte `op`. -/
def GrpTwo.enc (op : Nat) (f : GrpTwo) : Nat :=
  op * 2 ^ 24 + f.a.enc * 2 ^ 12 + f.b.enc * 2 ^ 6

/-- Reads the fields of a GrpCbinit word. -/
def GrpCbinit.dec (w : Nat) : GrpCbinit where
  cb := Fin.ofNat 16 (natField w 18 4)
  a := Opnd.dec (natField w 12 6)

/-- Writes a GrpCbinit word with opcode byte `op`. -/
def GrpCbinit.enc (op : Nat) (f : GrpCbinit) : Nat :=
  op * 2 ^ 24 + f.cb.val * 2 ^ 18 + f.a.enc * 2 ^ 12

/-- Reads the fields of a GrpCbarv word. -/
def GrpCbarv.dec (w : Nat) : GrpCbarv where
  cb := Fin.ofNat 16 (natField w 18 4)
  a := Opnd.dec (natField w 12 6)
  b := Opnd.dec (natField w 6 6)
  err := natBit w 0

/-- Writes a GrpCbarv word with opcode byte `op`. -/
def GrpCbarv.enc (op : Nat) (f : GrpCbarv) : Nat :=
  op * 2 ^ 24 + f.cb.val * 2 ^ 18 + f.a.enc * 2 ^ 12 + f.b.enc * 2 ^ 6 + bitNat f.err

/-- Reads the fields of a GrpCbwait word. -/
def GrpCbwait.dec (w : Nat) : GrpCbwait where
  cb := Fin.ofNat 16 (natField w 18 4)
  a := Opnd.dec (natField w 12 6)
  b := Opnd.dec (natField w 6 6)
  ew := natBit w 1
  te := natBit w 0

/-- Writes a GrpCbwait word with opcode byte `op`. -/
def GrpCbwait.enc (op : Nat) (f : GrpCbwait) : Nat :=
  op * 2 ^ 24 + f.cb.val * 2 ^ 18 + f.a.enc * 2 ^ 12 + f.b.enc * 2 ^ 6 + bitNat f.ew * 2 ^ 1 + bitNat f.te

/-- Reads the fields of a GrpCbtest word. -/
def GrpCbtest.dec (w : Nat) : GrpCbtest where
  c := Fin.ofNat 4 (natField w 22 2)
  cb := Fin.ofNat 16 (natField w 18 4)
  a := Opnd.dec (natField w 12 6)
  b := Opnd.dec (natField w 6 6)
  ew := natBit w 1

/-- Writes a GrpCbtest word with opcode byte `op`. -/
def GrpCbtest.enc (op : Nat) (f : GrpCbtest) : Nat :=
  op * 2 ^ 24 + f.c.val * 2 ^ 22 + f.cb.val * 2 ^ 18 + f.a.enc * 2 ^ 12 + f.b.enc * 2 ^ 6 + bitNat f.ew * 2 ^ 1

/-- Reads the fields of a GrpCpy word. -/
def GrpCpy.dec (w : Nat) : GrpCpy where
  d := Opnd.dec (natField w 18 6)
  a := Opnd.dec (natField w 12 6)
  b := Opnd.dec (natField w 6 6)
  np := natBit w 5
  cb := Fin.ofNat 16 (natField w 0 4)

/-- Writes a GrpCpy word with opcode byte `op`. -/
def GrpCpy.enc (op : Nat) (f : GrpCpy) : Nat :=
  op * 2 ^ 24 + f.d.enc * 2 ^ 18 + f.a.enc * 2 ^ 12 + f.b.enc * 2 ^ 6 + bitNat f.np * 2 ^ 5 + f.cb.val

/-- Reads the fields of a GrpRemote word. -/
def GrpRemote.dec (w : Nat) : GrpRemote where
  d := Opnd.dec (natField w 18 6)
  a := Opnd.dec (natField w 12 6)
  b := Opnd.dec (natField w 6 6)
  dp := natBit w 5
  st := Strength.dec (natField w 3 2)
  n32 := natBit w 2

/-- Writes a GrpRemote word with opcode byte `op`. -/
def GrpRemote.enc (op : Nat) (f : GrpRemote) : Nat :=
  op * 2 ^ 24 + f.d.enc * 2 ^ 18 + f.a.enc * 2 ^ 12 + f.b.enc * 2 ^ 6 + bitNat f.dp * 2 ^ 5 + f.st.enc * 2 ^ 3 + bitNat f.n32 * 2 ^ 2

/-- Reads the fields of a GrpRgatm word. -/
def GrpRgatm.dec (w : Nat) : GrpRgatm where
  d := Opnd.dec (natField w 18 6)
  a := Opnd.dec (natField w 12 6)
  b := Opnd.dec (natField w 6 6)
  dp := natBit w 5
  op := AtomOp.dec (natField w 1 4)
  n32 := natBit w 0

/-- Writes a GrpRgatm word with opcode byte `op`. -/
def GrpRgatm.enc (op : Nat) (f : GrpRgatm) : Nat :=
  op * 2 ^ 24 + f.d.enc * 2 ^ 18 + f.a.enc * 2 ^ 12 + f.b.enc * 2 ^ 6 + bitNat f.dp * 2 ^ 5 + f.op.enc * 2 ^ 1 + bitNat f.n32

/-- Reads the fields of a GrpThree word. -/
def GrpThree.dec (w : Nat) : GrpThree where
  d := Opnd.dec (natField w 18 6)
  a := Opnd.dec (natField w 12 6)
  b := Opnd.dec (natField w 6 6)

/-- Writes a GrpThree word with opcode byte `op`. -/
def GrpThree.enc (op : Nat) (f : GrpThree) : Nat :=
  op * 2 ^ 24 + f.d.enc * 2 ^ 18 + f.a.enc * 2 ^ 12 + f.b.enc * 2 ^ 6

/-- Reads the fields of a GrpDA word. -/
def GrpDA.dec (w : Nat) : GrpDA where
  d := Opnd.dec (natField w 18 6)
  a := Opnd.dec (natField w 12 6)

/-- Writes a GrpDA word with opcode byte `op`. -/
def GrpDA.enc (op : Nat) (f : GrpDA) : Nat :=
  op * 2 ^ 24 + f.d.enc * 2 ^ 18 + f.a.enc * 2 ^ 12

/-- Reads the fields of a GrpSpawnLoc word. -/
def GrpSpawnLoc.dec (w : Nat) : GrpSpawnLoc where
  d := Opnd.dec (natField w 18 6)
  a := Opnd.dec (natField w 12 6)
  size := RecSize.dec (natField w 0 2)

/-- Writes a GrpSpawnLoc word with opcode byte `op`. -/
def GrpSpawnLoc.enc (op : Nat) (f : GrpSpawnLoc) : Nat :=
  op * 2 ^ 24 + f.d.enc * 2 ^ 18 + f.a.enc * 2 ^ 12 + f.size.enc

/-- Reads the fields of a GrpSpawnRem word. -/
def GrpSpawnRem.dec (w : Nat) : GrpSpawnRem where
  d := Opnd.dec (natField w 18 6)
  a := Opnd.dec (natField w 12 6)
  b := Opnd.dec (natField w 6 6)
  dp := natBit w 5
  size := RecSize.dec (natField w 0 2)

/-- Writes a GrpSpawnRem word with opcode byte `op`. -/
def GrpSpawnRem.enc (op : Nat) (f : GrpSpawnRem) : Nat :=
  op * 2 ^ 24 + f.d.enc * 2 ^ 18 + f.a.enc * 2 ^ 12 + f.b.enc * 2 ^ 6 + bitNat f.dp * 2 ^ 5 + f.size.enc

/-- Reads the fields of a GrpBinfl word. -/
def GrpBinfl.dec (w : Nat) : GrpBinfl where
  d := Opnd.dec (natField w 18 6)
  a := Opnd.dec (natField w 12 6)
  wt := natBit w 0

/-- Writes a GrpBinfl word with opcode byte `op`. -/
def GrpBinfl.enc (op : Nat) (f : GrpBinfl) : Nat :=
  op * 2 ^ 24 + f.d.enc * 2 ^ 18 + f.a.enc * 2 ^ 12 + bitNat f.wt

/-- Reads the fields of a GrpLoop word. -/
def GrpLoop.dec (w : Nat) : GrpLoop where
  acc := Fin.ofNat 16 (natField w 18 4)
  t := Fin.ofNat 8 (natField w 12 3)
  b := Opnd.dec (natField w 6 6)
  g4 := natBit w 5
  pm := natBit w 4
  cb := Fin.ofNat 16 (natField w 0 4)

/-- Writes a GrpLoop word with opcode byte `op`. -/
def GrpLoop.enc (op : Nat) (f : GrpLoop) : Nat :=
  op * 2 ^ 24 + f.acc.val * 2 ^ 18 + f.t.val * 2 ^ 12 + f.b.enc * 2 ^ 6 + bitNat f.g4 * 2 ^ 5 + bitNat f.pm * 2 ^ 4 + f.cb.val

/-- Opcode bytes 0x00 to 0x0F: the instruction read, and whether every fixed bit and code is as the map says. -/
def parse0x (w : Nat) : Option (Instr × Bool) :=
  match natField w 24 4 with
  | 0 => some (.iadd (.dec w), true)
  | 1 => some (.isub (.dec w), true)
  | 2 => some (.imul (.dec w), true)
  | 3 => some (.imulhs (.dec w), true)
  | 4 => some (.imulhu (.dec w), true)
  | 5 => some (.unlisted (.imad (LaneBin.dec w)), true)
  | 6 => some (.imin (.dec w), true)
  | 7 => some (.imax (.dec w), true)
  | 8 => some (.umin (.dec w), true)
  | 9 => some (.umax (.dec w), true)
  | 10 => some (.iabs (.dec w), natField w 0 1 == 0 && natField w 6 6 == 0)
  | 11 => some (.andv (.dec w), true)
  | 12 => some (.orv (.dec w), true)
  | 13 => some (.xorv (.dec w), true)
  | 14 => some (.andn (.dec w), true)
  | 15 => some (.shl (.dec w), true)
  | _ => none

/-- Opcode bytes 0x10 to 0x1F: the instruction read, and whether every fixed bit and code is as the map says. -/
def parse1x (w : Nat) : Option (Instr × Bool) :=
  match natField w 24 4 with
  | 0 => some (.shr (.dec w), true)
  | 1 => some (.sar (.dec w), true)
  | 2 => some (.popc (.dec w), natField w 0 1 == 0 && natField w 6 6 == 0)
  | 3 => some (.clz (.dec w), natField w 0 1 == 0 && natField w 6 6 == 0)
  | 4 => some (.brev (.dec w), natField w 0 1 == 0 && natField w 6 6 == 0)
  | 5 => some (.bfx (.dec w), true)
  | 6 => some (.bfi (.dec w), true)
  | 7 => some (.icmp (.dec w), decide (natField w 18 3 < 6))
  | 8 => some (.ucmp (.dec w), decide (natField w 18 3 < 6))
  | 9 => some (.sel (.dec w), true)
  | 10 => some (.iaddi (.dec w), true)
  | 11 => some (.andi (.dec w), true)
  | 12 => some (.shli (.dec w), natField w 8 4 == 0)
  | 13 => some (.shri (.dec w), natField w 8 4 == 0)
  | 14 => some (.lea (.dec w), true)
  | 15 => some (.movi (.dec w), true)
  | _ => none

/-- Opcode bytes 0x20 to 0x2F: the instruction read, and whether every fixed bit and code is as the map says. -/
def parse2x (w : Nat) : Option (Instr × Bool) :=
  match natField w 24 4 with
  | 0 => some (.fadd (.dec w), true)
  | 1 => some (.fsub (.dec w), true)
  | 2 => some (.fmul (.dec w), true)
  | 3 => some (.ffma (.dec w), true)
  | 4 => some (.fmin (.dec w), true)
  | 5 => some (.fmax (.dec w), true)
  | 6 => some (.fcmp (.dec w), true)
  | 7 => some (.fcls (.dec w), natField w 0 1 == 0 && natField w 6 6 == 0)
  | 8 => some (.frcp (.dec w), natField w 0 1 == 0 && natField w 6 6 == 0)
  | 9 => some (.frsq (.dec w), natField w 0 1 == 0 && natField w 6 6 == 0)
  | 10 => some (.fsqrt (.dec w), natField w 0 1 == 0 && natField w 6 6 == 0)
  | 11 => some (.fexp2 (.dec w), natField w 0 1 == 0 && natField w 6 6 == 0)
  | 12 => some (.flog2 (.dec w), natField w 0 1 == 0 && natField w 6 6 == 0)
  | 13 => some (.badd2 (.dec w), true)
  | 14 => some (.bmul2 (.dec w), true)
  | 15 => some (.bfma2 (.dec w), true)
  | _ => none

/-- Opcode bytes 0x30 to 0x3F: the instruction read, and whether every fixed bit and code is as the map says. -/
def parse3x (w : Nat) : Option (Instr × Bool) :=
  match natField w 24 4 with
  | 0 => some (.bmax2 (.dec w), true)
  | 1 => some (.hadd2 (.dec w), true)
  | 2 => some (.hmul2 (.dec w), true)
  | 3 => some (.hfma2 (.dec w), true)
  | 4 => some (.cvtif (.dec w), natField w 0 1 == 0 && natField w 7 2 == 0 && decide (natField w 9 3 < 5))
  | 5 => some (.cvtfi (.dec w), natField w 0 1 == 0 && natField w 7 2 == 0 && decide (natField w 9 3 < 5))
  | 6 => some (.cvtfb (.dec w), natField w 0 1 == 0 && natField w 6 2 == 0 && decide (natField w 9 3 < 5))
  | 7 => some (.cvtbf (.dec w), natField w 0 1 == 0 && natField w 6 6 == 0 && decide (natField w 9 3 < 5))
  | 8 => some (.cvtfh (.dec w), natField w 0 1 == 0 && natField w 6 2 == 0 && decide (natField w 9 3 < 5))
  | 9 => some (.cvthf (.dec w), natField w 0 1 == 0 && natField w 6 6 == 0 && decide (natField w 9 3 < 5))
  | 10 => some (.cvtf8 (.dec w), natField w 0 1 == 0 && natField w 7 1 == 0 && decide (natField w 9 3 < 5))
  | 11 => some (.cvt8f (.dec w), natField w 0 1 == 0 && natField w 7 5 == 0 && decide (natField w 9 3 < 5))
  | 12 => some (.cvtfn (.dec w), natField w 0 1 == 0 && decide (natField w 9 3 < 5))
  | 13 => some (.cvtnf (.dec w), natField w 0 1 == 0 && natField w 8 4 == 0 && decide (natField w 9 3 < 5))
  | 14 => some (.unlisted (.dsenc (LaneUn.dec w)), natField w 0 1 == 0 && natField w 6 6 == 0)
  | 15 => some (.unlisted (.dsmul (LaneBin.dec w)), true)
  | _ => none

/-- Opcode bytes 0x40 to 0x4F: the instruction read, and whether every fixed bit and code is as the map says. -/
def parse4x (w : Nat) : Option (Instr × Bool) :=
  match natField w 24 4 with
  | 0 => some (.unlisted (.kinit (BitVec.ofNat 9 (natField w 3 9)) (Fin.ofNat 8 (natField w 0 3))), natField w 12 12 == 0)
  | 1 => some (.unlisted (.kins (LaneBin.dec w)), true)
  | 2 => some (.unlisted (.kext (Opnd.dec (natField w 18 6)) (Opnd.dec (natField w 12 6)) (natBit w 11) (Fin.ofNat 16 (natField w 3 4)) (Fin.ofNat 8 (natField w 0 3))), natField w 7 4 == 0)
  | 3 => some (.unlisted (.mxscl (LaneBin.dec w)), true)
  | 4 => some (.shfi (.dec w), natField w 0 1 == 0)
  | 5 => some (.shfu (.dec w), natField w 0 1 == 0)
  | 6 => some (.shfd (.dec w), natField w 0 1 == 0)
  | 7 => some (.shfx (.dec w), natField w 0 1 == 0)
  | 8 => some (.vote (.dec w), natField w 0 2 == 0 && natField w 3 3 == 0 && natField w 12 3 == 0 && decide (natField w 18 3 < 3))
  | 9 => some (.ballot (.dec w), natField w 0 2 == 0 && natField w 3 3 == 0 && natField w 12 3 == 0)
  | 10 => some (.gred (.dec w), natField w 0 1 == 0)
  | 11 => some (.matchv (.dec w), natField w 0 1 == 0)
  | 12 => some (.mkemp (.dec w), natField w 0 2 == 0 && natField w 6 12 == 0)
  | 13 => some (.mkful (.dec w), natField w 0 2 == 0 && natField w 6 12 == 0)
  | 14 => if natBit w 0 then some (.pmovUnpack (.dec w), natField w 0 1 == 1 && natField w 6 6 == 0 && natField w 18 6 == 0) else some (.pmovPack (.dec w), natField w 0 2 == 0 && natField w 6 12 == 0)
  | 15 => some (.getid (.dec w), natField w 12 6 == 0)
  | _ => none

/-- Opcode bytes 0x50 to 0x5F: the instruction read, and whether every fixed bit and code is as the map says. -/
def parse5x (w : Nat) : Option (Instr × Bool) :=
  match natField w 24 4 with
  | 0 => some (.ld8 (.dec w), true)
  | 1 => some (.ld16 (.dec w), true)
  | 2 => some (.ld32 (.dec w), true)
  | 3 => some (.ld64 (.dec w), true)
  | 4 => some (.ld128 (.dec w), true)
  | 5 => some (.st8 (.dec w), true)
  | 6 => some (.st16 (.dec w), true)
  | 7 => some (.st32 (.dec w), true)
  | 8 => some (.st64 (.dec w), true)
  | 9 => some (.st128 (.dec w), true)
  | 10 => some (.ldx (.dec w), true)
  | 11 => some (.stx (.dec w), true)
  | 12 => some (.aadd (.dec w), true)
  | 13 => some (.amin (.dec w), true)
  | 14 => some (.amax (.dec w), true)
  | 15 => some (.aumin (.dec w), true)
  | _ => none

/-- Opcode bytes 0x60 to 0x6F: the instruction read, and whether every fixed bit and code is as the map says. -/
def parse6x (w : Nat) : Option (Instr × Bool) :=
  match natField w 24 4 with
  | 0 => some (.aumax (.dec w), true)
  | 1 => some (.aand (.dec w), true)
  | 2 => some (.aor (.dec w), true)
  | 3 => some (.axor (.dec w), true)
  | 4 => some (.axch (.dec w), true)
  | 5 => some (.acas (.dec w), true)
  | 6 => some (.afadd (.dec w), true)
  | 7 => some (.pref (.dec w), natField w 2 4 == 0 && natField w 18 6 == 0)
  | 8 => some (.rld32 (.dec w), natField w 4 2 == 3)
  | 9 => some (.rld64 (.dec w), natField w 4 2 == 3)
  | 10 => some (.rst32 (.dec w), natField w 4 2 == 3)
  | 11 => some (.rst64 (.dec w), natField w 4 2 == 3)
  | 12 => some (.ratom (.dec w), decide (natField w 2 4 < 11))
  | _ => none

/-- Opcode bytes 0x70 to 0x7F: the instruction read, and whether every fixed bit and code is as the map says. -/
def parse7x (w : Nat) : Option (Instr × Bool) :=
  match natField w 24 4 with
  | 0 => some (.br (.dec w), true)
  | 1 => some (.brx (.dec w), natField w 0 1 == 0 && natField w 6 6 == 0 && natField w 18 6 == 0)
  | 2 => some (.call (.dec w), true)
  | 3 => some (.ret (.dec w), natField w 0 2 == 0 && natField w 6 18 == 0)
  | 4 => some (.exitv (.dec w), natField w 2 2 == 0 && natField w 6 18 == 0)
  | 5 => some (.barv (.dec w), natField w 0 2 == 0 && natField w 3 3 == 0 && natField w 12 12 == 0)
  | 6 => some (.regn (BitVec.ofNat 9 (natField w 3 9)), natField w 0 3 == 0 && natField w 12 12 == 0)
  | 7 => some (.spawn (.dec w), natField w 0 1 == 0 && natField w 18 4 == 0 && decide (natField w 22 2 < 3))
  | 8 => some (.yield (.dec w), natField w 0 2 == 0 && natField w 6 18 == 0)
  | 9 => some (.nop (.dec w), natField w 0 2 == 0 && natField w 6 18 == 0)
  | 10 => some (.unlisted (.trap (BitVec.ofNat 9 (natField w 3 9)) (Fin.ofNat 8 (natField w 0 3))), natField w 12 12 == 0)
  | 11 => some (.unlisted (.bkpt (BitVec.ofNat 9 (natField w 3 9)) (Fin.ofNat 8 (natField w 0 3))), natField w 12 12 == 0)
  | 12 => some (.waite (.dec w), natField w 0 2 == 0 && natField w 6 12 == 0)
  | _ => none

/-- Opcode bytes 0x80 to 0x8F: the instruction read, and whether every fixed bit and code is as the map says. -/
def parse8x (w : Nat) : Option (Instr × Bool) :=
  match natField w 24 4 with
  | 0 => some (.gadd (.dec w), true)
  | 1 => some (.gsub (.dec w), true)
  | 2 => some (.gmul (.dec w), true)
  | 3 => some (.gmad (.dec w), true)
  | 4 => some (.gmin (.dec w), true)
  | 5 => some (.gmax (.dec w), true)
  | 6 => some (.gand (.dec w), true)
  | 7 => some (.gor (.dec w), true)
  | 8 => some (.gxor (.dec w), true)
  | 9 => some (.gshl (.dec w), true)
  | 10 => some (.gshr (.dec w), true)
  | 11 => some (.gsar (.dec w), true)
  | 12 => some (.gcmp (.dec w), decide (natField w 18 4 < 10))
  | 13 => some (.gsel (.dec w), true)
  | 14 => some (.gpopc (.dec w), natField w 1 1 == 0 && natField w 6 6 == 0)
  | 15 => some (.gclz (.dec w), natField w 1 1 == 0 && natField w 6 6 == 0)
  | _ => none

/-- Opcode bytes 0x90 to 0x9F: the instruction read, and whether every fixed bit and code is as the map says. -/
def parse9x (w : Nat) : Option (Instr × Bool) :=
  match natField w 24 4 with
  | 0 => some (.gaddi (.dec w), true)
  | 1 => some (.gmovi (.dec w), true)
  | 2 => some (.gmovh (.dec w), true)
  | 3 => some (.unlisted (.glea (GrpBin.dec w)), true)
  | 4 => some (.unlisted (.gbfx (GrpBin.dec w)), true)
  | 5 => some (.gmulh (.dec w), true)
  | 6 => some (.gdivu (.dec w), true)
  | 7 => some (.gremu (.dec w), true)
  | 8 => some (.gbr (.dec w), natField w 20 1 == 0)
  | 9 => some (.gloop (.dec w), true)
  | 10 => some (.gcall (.dec w), natField w 20 1 == 0)
  | 11 => some (.gret (.dec w), natField w 0 3 == 0 && natField w 6 18 == 0)
  | 12 => some (.qput (.dec w), natField w 1 1 == 0 && natField w 6 6 == 0)
  | 13 => some (.qget (.dec w), natField w 1 1 == 0 && natField w 6 6 == 0)
  | 14 => some (.qclose (.dec w), natField w 0 3 == 0 && natField w 6 12 == 0)
  | 15 => some (.qstat (.dec w), natField w 0 3 == 0 && natField w 6 6 == 0)
  | _ => none

/-- Opcode bytes 0xA0 to 0xAF: the instruction read, and whether every fixed bit and code is as the map says. -/
def parseAx (w : Nat) : Option (Instr × Bool) :=
  match natField w 24 4 with
  | 0 => some (.gld32 (.dec w), natField w 0 2 == 0)
  | 1 => some (.gld64 (.dec w), natField w 0 2 == 0)
  | 2 => some (.gst32 (.dec w), natField w 0 2 == 0)
  | 3 => some (.gst64 (.dec w), natField w 0 2 == 0)
  | 4 => some (.gatom (.dec w), decide (natField w 2 4 < 11))
  | 5 => some (.agen (.dec w), natField w 0 3 == 0)
  | 6 => some (.agenx (.dec w), true)
  | 7 => some (.gpref (.dec w), natField w 0 6 == 0 && natField w 18 6 == 0)
  | 8 => some (.unlisted (.acq (Opnd.dec (natField w 12 6)) (Scope.dec (natField w 4 2))), natField w 0 4 == 0 && natField w 6 6 == 0 && natField w 18 6 == 0)
  | 9 => some (.unlisted (.rel (Opnd.dec (natField w 12 6)) (Scope.dec (natField w 4 2))), natField w 0 4 == 0 && natField w 6 6 == 0 && natField w 18 6 == 0)
  | 10 => some (.unlisted (.fence (Scope.dec (natField w 4 2))), natField w 0 4 == 0 && natField w 6 18 == 0)
  | 11 => some (.unlisted (.bind (GrpThree.dec w)), natField w 0 6 == 0)
  | 12 => some (.unlisted (.unbind (GrpDA.dec w)), natField w 0 12 == 0)
  | 13 => some (.cbinit (.dec w), natField w 0 12 == 0 && natField w 22 2 == 0)
  | 14 => some (.cbarv (.dec w), natField w 1 5 == 0 && natField w 22 2 == 0)
  | 15 => some (.cbwait (.dec w), natField w 2 4 == 0 && natField w 22 2 == 0)
  | _ => none

/-- Opcode bytes 0xB0 to 0xBF: the instruction read, and whether every fixed bit and code is as the map says. -/
def parseBx (w : Nat) : Option (Instr × Bool) :=
  match natField w 24 4 with
  | 0 => some (.cbtest (.dec w), natField w 0 1 == 0 && natField w 2 4 == 0)
  | 1 => some (.unlisted (.sgnew (Opnd.dec (natField w 18 6)) (Opnd.dec (natField w 6 6)) (natBit w 1) (natBit w 0)), natField w 2 4 == 0 && natField w 12 6 == 0)
  | 2 => some (.unlisted (.sgname (GrpThree.dec w)), natField w 0 6 == 0)
  | 3 => some (.unlisted (.sgatt (GrpDA.dec w) (natBit w 1) (natBit w 0)), natField w 2 10 == 0)
  | 4 => some (.unlisted (.sgdet (Opnd.dec (natField w 12 6))), natField w 0 12 == 0 && natField w 18 6 == 0)
  | 5 => some (.unlisted (.sgdrop (GrpDA.dec w) (natBit w 0)), natField w 1 11 == 0)
  | 6 => some (.unlisted (.sgstow (GrpDA.dec w)), natField w 0 12 == 0)
  | 7 => some (.unlisted (.sgstat (GrpDA.dec w) (Fin.ofNat 4 (natField w 0 2))), natField w 2 10 == 0)
  | 8 => some (.cpy (.dec w), natField w 4 1 == 0)
  | 9 => some (.cpys (.dec w), natField w 4 1 == 0)
  | 10 => some (.cpyg (.dec w), natField w 4 1 == 0)
  | 11 => some (.cpyx (.dec w), natField w 4 1 == 0)
  | 12 => some (.unlisted (.cpyq (GrpCpy.dec w)), natField w 4 1 == 0)
  | 13 => some (.unlisted (.cpyw (Opnd.dec (natField w 12 6)) (Opnd.dec (natField w 6 6)) (natBit w 4) (Fin.ofNat 16 (natField w 0 4))), natField w 5 1 == 0 && natField w 18 6 == 0)
  | 14 => some (.unlisted (.cpyc (GrpDA.dec w) (natBit w 4) (Fin.ofNat 16 (natField w 0 4))), natField w 5 7 == 0)
  | 15 => some (.unlisted (.cpyst (Opnd.dec (natField w 18 6)) (natBit w 4) (Fin.ofNat 16 (natField w 0 4))), natField w 5 13 == 0)
  | _ => none

/-- Opcode bytes 0xC0 to 0xCF: the instruction read, and whether every fixed bit and code is as the map says. -/
def parseCx (w : Nat) : Option (Instr × Bool) :=
  match natField w 24 4 with
  | 0 => some (.unlisted (.tbld (Fin.ofNat 8 (natField w 18 3)) (Opnd.dec (natField w 12 6)) (Opnd.dec (natField w 6 6))), natField w 0 6 == 0 && natField w 21 3 == 0)
  | 1 => some (.unlisted (.tbld4 (Fin.ofNat 8 (natField w 18 3)) (Opnd.dec (natField w 12 6)) (Opnd.dec (natField w 6 6))), natField w 0 6 == 0 && natField w 21 3 == 0)
  | 2 => some (.unlisted (.tchk (Fin.ofNat 4 (natField w 22 2)) (Fin.ofNat 8 (natField w 12 3))), natField w 0 12 == 0 && natField w 15 7 == 0)
  | 3 => some (.unlisted (.tinv (Fin.ofNat 8 (natField w 18 3))), natField w 0 18 == 0 && natField w 21 3 == 0)
  | 4 => some (.unlisted (.tspl (Fin.ofNat 8 (natField w 18 3)) (Opnd.dec (natField w 12 6))), natField w 0 12 == 0 && natField w 21 3 == 0)
  | 5 => some (.unlisted (.tfil (Fin.ofNat 8 (natField w 18 3)) (Opnd.dec (natField w 12 6))), natField w 0 12 == 0 && natField w 21 3 == 0)
  | 6 => some (.unlisted (.mloop (GrpLoop.dec w)), natField w 15 3 == 0 && natField w 22 2 == 0)
  | 7 => some (.unlisted (.mloop4 (GrpLoop.dec w)), natField w 15 3 == 0 && natField w 22 2 == 0)
  | 8 => some (.unlisted (.mstep (GrpLoop.dec w)), natField w 15 3 == 0 && natField w 22 2 == 0)
  | 9 => some (.unlisted (.scacc (Fin.ofNat 16 (natField w 18 4)) (Fin.ofNat 16 (natField w 12 4)) (Opnd.dec (natField w 6 6)) (natBit w 0)), natField w 1 5 == 0 && natField w 16 2 == 0 && natField w 22 2 == 0)
  | 10 => some (.unlisted (.azero (Fin.ofNat 16 (natField w 18 4)) (natBit w 0)), natField w 1 17 == 0 && natField w 22 2 == 0)
  | 11 => some (.unlisted (.asto (Fin.ofNat 16 (natField w 18 4)) (Opnd.dec (natField w 12 6)) (Opnd.dec (natField w 6 6)) (natBit w 0)), natField w 1 5 == 0 && natField w 22 2 == 0)
  | 12 => some (.unlisted (.alda (Fin.ofNat 16 (natField w 18 4)) (Opnd.dec (natField w 12 6)) (Opnd.dec (natField w 6 6))), natField w 0 6 == 0 && natField w 22 2 == 0)
  | 13 => some (.unlisted (.acvt (Fin.ofNat 16 (natField w 18 4)) (Opnd.dec (natField w 12 6)) (Opnd.dec (natField w 6 6)) (Fin.ofNat 4 (natField w 0 2)) (natBit w 2) (natBit w 3)), natField w 4 2 == 0 && natField w 22 2 == 0)
  | 14 => some (.unlisted (.mstat (Opnd.dec (natField w 18 6)) (Fin.ofNat 4 (natField w 1 2)) (natBit w 0)), natField w 3 15 == 0)
  | _ => none

/-- Opcode bytes 0xD0 to 0xDF: the instruction read, and whether every fixed bit and code is as the map says. -/
def parseDx (w : Nat) : Option (Instr × Bool) :=
  match natField w 24 4 with
  | 0 => some (.unlisted (.wsel (Opnd.dec (natField w 12 6)) (Opnd.dec (natField w 6 6)) (natBit w 5)), natField w 0 5 == 0 && natField w 18 6 == 0)
  | 1 => some (.rgld (.dec w), natField w 0 2 == 0)
  | 2 => some (.rgst (.dec w), natField w 0 2 == 0)
  | 3 => some (.rmst (.dec w), natField w 0 2 == 0)
  | 4 => some (.unlisted (.rrst (Opnd.dec (natField w 18 6)) (Opnd.dec (natField w 12 6)) (Opnd.dec (natField w 6 6)) (natBit w 5) (Fin.ofNat 8 (natField w 2 3)) (Fin.ofNat 4 (natField w 0 2))), true)
  | 5 => some (.rgatm (.dec w), decide (natField w 1 4 < 11))
  | 6 => some (.unlisted (.sigadd (Opnd.dec (natField w 18 6)) (Opnd.dec (natField w 12 6)) (Opnd.dec (natField w 6 6)) (natBit w 5) (natBit w 4)), natField w 0 4 == 0)
  | 7 => some (.unlisted (.sigwt (Opnd.dec (natField w 18 6)) (Opnd.dec (natField w 12 6)) (Opnd.dec (natField w 6 6)) (IntCond.decSig (natField w 0 3)) (natBit w 4)), natField w 3 1 == 0 && natField w 5 1 == 0 && decide (natField w 0 3 < 6))
  | 8 => some (.unlisted (.rwait (Opnd.dec (natField w 18 6)) (Opnd.dec (natField w 12 6)) (Opnd.dec (natField w 6 6)) (natBit w 4)), natField w 0 4 == 0 && natField w 5 1 == 0)
  | 9 => some (.unlisted (.rfence (Opnd.dec (natField w 18 6)) (natBit w 1) (natBit w 0)), natField w 2 16 == 0)
  | 10 => some (.unlisted (.rget (Opnd.dec (natField w 18 6)) (Opnd.dec (natField w 12 6)) (Opnd.dec (natField w 6 6)) (natBit w 5) (Fin.ofNat 16 (natField w 0 4))), natField w 4 1 == 0)
  | 11 => some (.unlisted (.coord (Opnd.dec (natField w 18 6)) (Opnd.dec (natField w 12 6)) (Fin.ofNat 8 (natField w 0 3))), natField w 3 9 == 0)
  | _ => none

/-- Opcode bytes 0xE0 to 0xEF: the instruction read, and whether every fixed bit and code is as the map says. -/
def parseEx (w : Nat) : Option (Instr × Bool) :=
  match natField w 24 4 with
  | 0 =>
    if natField w 0 2 == 1 then some (.binsetClose (.dec w), natField w 0 12 == 1)
    else if natField w 0 2 == 2 then some (.binsetOpen (.dec w), natField w 0 12 == 2)
    else some (.binsetFlush (.dec w), natField w 0 6 == 0)
  | 1 =>
    if natBit w 4 then some (.spawngLoc (.dec w), natField w 2 10 == 4 && decide (natField w 0 2 < 3))
    else some (.spawngRemote (.dec w), natField w 2 3 == 0 && decide (natField w 0 2 < 3))
  | 2 => some (.binfl (.dec w), natField w 1 11 == 0)
  | 3 => some (.unlisted (.cmbcfg (GrpThree.dec w)), natField w 0 6 == 0)
  | 4 => some (.unlisted (.cmbopen (GrpThree.dec w) (natBit w 0)), natField w 1 5 == 0)
  | 5 => some (.unlisted (.cmbput (GrpThree.dec w) (natBit w 0)), natField w 1 5 == 0)
  | 6 => some (.unlisted (.cmbrel (GrpThree.dec w) (natBit w 0)), natField w 1 5 == 0)
  | 7 => some (.unlisted (.cmbstat (GrpThree.dec w) (natBit w 3) (Fin.ofNat 8 (natField w 0 3))), natField w 4 2 == 0)
  | 8 => some (.unlisted (.gentag (GrpThree.dec w) (natBit w 2) (Fin.ofNat 4 (natField w 0 2))), natField w 3 3 == 0)
  | _ => none

/-- Opcode bytes 0xF0 to 0xFF: the instruction read, and whether every fixed bit and code is as the map says. -/
def parseFx (w : Nat) : Option (Instr × Bool) :=
  match natField w 24 4 with
  | 0 => some (.unlisted (.csrrd (Opnd.dec (natField w 18 6)) (BitVec.ofNat 12 (natField w 0 12))), natField w 12 6 == 0)
  | 1 => some (.unlisted (.csrwr (Opnd.dec (natField w 18 6)) (BitVec.ofNat 12 (natField w 0 12))), natField w 12 6 == 0)
  | 2 => some (.unlisted (.cycle (Opnd.dec (natField w 18 6))), natField w 0 18 == 0)
  | 3 => some (.unlisted (.sleep (Opnd.dec (natField w 12 6))), natField w 0 12 == 0 && natField w 18 6 == 0)
  | 4 => some (.unlisted (.gtrap (BitVec.ofNat 18 (natField w 0 18))), natField w 18 6 == 0)
  | 5 => some (.unlisted (.rte (GrpGuard.dec w)), natField w 0 3 == 0 && natField w 6 18 == 0)
  | 6 => some (.unlisted (.gnop (GrpGuard.dec w)), natField w 0 3 == 0 && natField w 6 18 == 0)
  | 7 => some (.unlisted (.teamend (Opnd.dec (natField w 12 6)) (GrpGuard.dec w)), natField w 0 3 == 0 && natField w 6 6 == 0 && natField w 18 6 == 0)
  | 8 => some (.unlisted (.probe (GrpThree.dec w) (Fin.ofNat 4 (natField w 0 2))), natField w 2 4 == 0)
  | 9 => some (.unlisted (.prio (GrpDA.dec w)), natField w 0 12 == 0)
  | _ => none

/-- The instruction that a word is read as, with the answer whether its fixed bits and codes hold. `none`: the opcode
is unassigned in its set (R31, first kind). -/
def parse (w : Nat) : Option (Instr × Bool) :=
  match natField w 28 4 with
  | 0 => parse0x w
  | 1 => parse1x w
  | 2 => parse2x w
  | 3 => parse3x w
  | 4 => parse4x w
  | 5 => parse5x w
  | 6 => parse6x w
  | 7 => parse7x w
  | 8 => parse8x w
  | 9 => parse9x w
  | 10 => parseAx w
  | 11 => parseBx w
  | 12 => parseCx w
  | 13 => parseDx w
  | 14 => parseEx w
  | 15 => parseFx w
  | _ => none

/-- Why a word is no instruction (R24 steps 1 and 3, R31). A word with a wrong field still names an
instruction, whose privilege check comes first (R24 step 2). -/
inductive Reject where
  | illegalOpcode
  | reservedField (i : Instr)
deriving DecidableEq, Repr

/-- The decoder, total on any word: an instruction whose word passes every check of R24 that the word alone decides, or
the reason why it is none. -/
def decode (w : BitVec 32) : Except Reject Instr :=
  match parse w.toNat with
  | none => .error .illegalOpcode
  | some (i, ok) => if ok && i.wf then .ok i else .error (.reservedField i)

/-- The word of an instruction that the table leaves out. -/
def Unlisted.enc : Unlisted → Nat
  | .imad f => f.enc 0x5
  | .dsenc f => f.enc 0x3e
  | .dsmul f => f.enc 0x3f
  | .kinit k pg => 0x40 * 2 ^ 24 + k.toNat * 2 ^ 3 + pg.val
  | .kins f => f.enc 0x41
  | .kext d a idx e pg => 0x42 * 2 ^ 24 + d.enc * 2 ^ 18 + a.enc * 2 ^ 12 + bitNat idx * 2 ^ 11 + e.val * 2 ^ 3 + pg.val
  | .mxscl f => f.enc 0x43
  | .trap code pg => 0x7a * 2 ^ 24 + code.toNat * 2 ^ 3 + pg.val
  | .bkpt code pg => 0x7b * 2 ^ 24 + code.toNat * 2 ^ 3 + pg.val
  | .glea f => f.enc 0x93
  | .gbfx f => f.enc 0x94
  | .acq a sc => 0xa8 * 2 ^ 24 + a.enc * 2 ^ 12 + sc.enc * 2 ^ 4
  | .rel a sc => 0xa9 * 2 ^ 24 + a.enc * 2 ^ 12 + sc.enc * 2 ^ 4
  | .fence sc => 0xaa * 2 ^ 24 + sc.enc * 2 ^ 4
  | .bind f => f.enc 0xab
  | .unbind f => f.enc 0xac
  | .sgnew d b pin clu => 0xb1 * 2 ^ 24 + d.enc * 2 ^ 18 + b.enc * 2 ^ 6 + bitNat pin * 2 ^ 1 + bitNat clu
  | .sgname f => f.enc 0xb2
  | .sgatt f nr w => f.enc 0xb3 + bitNat nr * 2 ^ 1 + bitNat w
  | .sgdet a => 0xb4 * 2 ^ 24 + a.enc * 2 ^ 12
  | .sgdrop f byName => f.enc 0xb5 + bitNat byName
  | .sgstow f => f.enc 0xb6
  | .sgstat f n => f.enc 0xb7 + n.val
  | .cpyq f => f.enc 0xbc
  | .cpyw a b get cb => 0xbd * 2 ^ 24 + a.enc * 2 ^ 12 + b.enc * 2 ^ 6 + bitNat get * 2 ^ 4 + cb.val
  | .cpyc f all cb => f.enc 0xbe + bitNat all * 2 ^ 4 + cb.val
  | .cpyst d wt cb => 0xbf * 2 ^ 24 + d.enc * 2 ^ 18 + bitNat wt * 2 ^ 4 + cb.val
  | .tbld t a b => 0xc0 * 2 ^ 24 + t.val * 2 ^ 18 + a.enc * 2 ^ 12 + b.enc * 2 ^ 6
  | .tbld4 t a b => 0xc1 * 2 ^ 24 + t.val * 2 ^ 18 + a.enc * 2 ^ 12 + b.enc * 2 ^ 6
  | .tchk c t => 0xc2 * 2 ^ 24 + c.val * 2 ^ 22 + t.val * 2 ^ 12
  | .tinv t => 0xc3 * 2 ^ 24 + t.val * 2 ^ 18
  | .tspl t a => 0xc4 * 2 ^ 24 + t.val * 2 ^ 18 + a.enc * 2 ^ 12
  | .tfil t a => 0xc5 * 2 ^ 24 + t.val * 2 ^ 18 + a.enc * 2 ^ 12
  | .mloop f => f.enc 0xc6
  | .mloop4 f => f.enc 0xc7
  | .mstep f => f.enc 0xc8
  | .scacc d s b te => 0xc9 * 2 ^ 24 + d.val * 2 ^ 18 + s.val * 2 ^ 12 + b.enc * 2 ^ 6 + bitNat te
  | .azero d e => 0xca * 2 ^ 24 + d.val * 2 ^ 18 + bitNat e
  | .asto d a b te => 0xcb * 2 ^ 24 + d.val * 2 ^ 18 + a.enc * 2 ^ 12 + b.enc * 2 ^ 6 + bitNat te
  | .alda d a b => 0xcc * 2 ^ 24 + d.val * 2 ^ 18 + a.enc * 2 ^ 12 + b.enc * 2 ^ 6
  | .acvt d a b fmt sat te => 0xcd * 2 ^ 24 + d.val * 2 ^ 18 + a.enc * 2 ^ 12 + b.enc * 2 ^ 6 + fmt.val + bitNat sat * 2 ^ 2 + bitNat te * 2 ^ 3
  | .mstat d sel wt => 0xce * 2 ^ 24 + d.enc * 2 ^ 18 + sel.val * 2 ^ 1 + bitNat wt
  | .wsel a b dp => 0xd0 * 2 ^ 24 + a.enc * 2 ^ 12 + b.enc * 2 ^ 6 + bitNat dp * 2 ^ 5
  | .rrst d a b dp op size => 0xd4 * 2 ^ 24 + d.enc * 2 ^ 18 + a.enc * 2 ^ 12 + b.enc * 2 ^ 6 + bitNat dp * 2 ^ 5 + op.val * 2 ^ 2 + size.val
  | .sigadd d a b dp loc => 0xd6 * 2 ^ 24 + d.enc * 2 ^ 18 + a.enc * 2 ^ 12 + b.enc * 2 ^ 6 + bitNat dp * 2 ^ 5 + bitNat loc * 2 ^ 4
  | .sigwt d a b cond te => 0xd7 * 2 ^ 24 + d.enc * 2 ^ 18 + a.enc * 2 ^ 12 + b.enc * 2 ^ 6 + cond.encSig + bitNat te * 2 ^ 4
  | .rwait d a b te => 0xd8 * 2 ^ 24 + d.enc * 2 ^ 18 + a.enc * 2 ^ 12 + b.enc * 2 ^ 6 + bitNat te * 2 ^ 4
  | .rfence d team te => 0xd9 * 2 ^ 24 + d.enc * 2 ^ 18 + bitNat team * 2 ^ 1 + bitNat te
  | .rget d a b dp cb => 0xda * 2 ^ 24 + d.enc * 2 ^ 18 + a.enc * 2 ^ 12 + b.enc * 2 ^ 6 + bitNat dp * 2 ^ 5 + cb.val
  | .coord d a sel => 0xdb * 2 ^ 24 + d.enc * 2 ^ 18 + a.enc * 2 ^ 12 + sel.val
  | .cmbcfg f => f.enc 0xe3
  | .cmbopen f strict => f.enc 0xe4 + bitNat strict
  | .cmbput f rem => f.enc 0xe5 + bitNat rem
  | .cmbrel f drop => f.enc 0xe6 + bitNat drop
  | .cmbstat f slot n => f.enc 0xe7 + bitNat slot * 2 ^ 3 + n.val
  | .gentag f rem op => f.enc 0xe8 + bitNat rem * 2 ^ 2 + op.val
  | .csrrd d csr => 0xf0 * 2 ^ 24 + d.enc * 2 ^ 18 + csr.toNat
  | .csrwr d csr => 0xf1 * 2 ^ 24 + d.enc * 2 ^ 18 + csr.toNat
  | .cycle d => 0xf2 * 2 ^ 24 + d.enc * 2 ^ 18
  | .sleep a => 0xf3 * 2 ^ 24 + a.enc * 2 ^ 12
  | .gtrap code => 0xf4 * 2 ^ 24 + code.toNat
  | .rte f => f.enc 0xf5
  | .gnop f => f.enc 0xf6
  | .teamend a f => f.enc 0xf7 + a.enc * 2 ^ 12
  | .probe f kind => f.enc 0xf8 + kind.val
  | .prio f => f.enc 0xf9

/-- The encoder: the word of an instruction; none for an event, which has no word. -/
def Instr.enc : Instr → Option Nat
  | .iadd f => some (f.enc 0x0)
  | .isub f => some (f.enc 0x1)
  | .imul f => some (f.enc 0x2)
  | .imulhs f => some (f.enc 0x3)
  | .imulhu f => some (f.enc 0x4)
  | .imin f => some (f.enc 0x6)
  | .imax f => some (f.enc 0x7)
  | .umin f => some (f.enc 0x8)
  | .umax f => some (f.enc 0x9)
  | .iabs f => some (f.enc 0xa)
  | .andv f => some (f.enc 0xb)
  | .orv f => some (f.enc 0xc)
  | .xorv f => some (f.enc 0xd)
  | .andn f => some (f.enc 0xe)
  | .shl f => some (f.enc 0xf)
  | .shr f => some (f.enc 0x10)
  | .sar f => some (f.enc 0x11)
  | .popc f => some (f.enc 0x12)
  | .clz f => some (f.enc 0x13)
  | .brev f => some (f.enc 0x14)
  | .bfx f => some (f.enc 0x15)
  | .bfi f => some (f.enc 0x16)
  | .icmp f => some (f.enc 0x17)
  | .ucmp f => some (f.enc 0x18)
  | .sel f => some (f.enc 0x19)
  | .iaddi f => some (f.enc 0x1a)
  | .andi f => some (f.enc 0x1b)
  | .shli f => some (f.enc 0x1c)
  | .shri f => some (f.enc 0x1d)
  | .lea f => some (f.enc 0x1e)
  | .movi f => some (f.enc 0x1f)
  | .fadd f => some (f.enc 0x20)
  | .fsub f => some (f.enc 0x21)
  | .fmul f => some (f.enc 0x22)
  | .ffma f => some (f.enc 0x23)
  | .fmin f => some (f.enc 0x24)
  | .fmax f => some (f.enc 0x25)
  | .fcmp f => some (f.enc 0x26)
  | .fcls f => some (f.enc 0x27)
  | .frcp f => some (f.enc 0x28)
  | .frsq f => some (f.enc 0x29)
  | .fsqrt f => some (f.enc 0x2a)
  | .fexp2 f => some (f.enc 0x2b)
  | .flog2 f => some (f.enc 0x2c)
  | .badd2 f => some (f.enc 0x2d)
  | .bmul2 f => some (f.enc 0x2e)
  | .bfma2 f => some (f.enc 0x2f)
  | .bmax2 f => some (f.enc 0x30)
  | .hadd2 f => some (f.enc 0x31)
  | .hmul2 f => some (f.enc 0x32)
  | .hfma2 f => some (f.enc 0x33)
  | .cvtif f => some (f.enc 0x34)
  | .cvtfi f => some (f.enc 0x35)
  | .cvtfb f => some (f.enc 0x36)
  | .cvtbf f => some (f.enc 0x37)
  | .cvtfh f => some (f.enc 0x38)
  | .cvthf f => some (f.enc 0x39)
  | .cvtf8 f => some (f.enc 0x3a)
  | .cvt8f f => some (f.enc 0x3b)
  | .cvtfn f => some (f.enc 0x3c)
  | .cvtnf f => some (f.enc 0x3d)
  | .shfi f => some (f.enc 0x44)
  | .shfu f => some (f.enc 0x45)
  | .shfd f => some (f.enc 0x46)
  | .shfx f => some (f.enc 0x47)
  | .vote f => some (f.enc 0x48)
  | .ballot f => some (f.enc 0x49)
  | .gred f => some (f.enc 0x4a)
  | .matchv f => some (f.enc 0x4b)
  | .mkemp f => some (f.enc 0x4c)
  | .mkful f => some (f.enc 0x4d)
  | .pmovPack f => some (f.enc 0x4e)
  | .pmovUnpack f => some (f.enc 0x4e + 1)
  | .getid f => some (f.enc 0x4f)
  | .ld8 f => some (f.enc 0x50)
  | .ld16 f => some (f.enc 0x51)
  | .ld32 f => some (f.enc 0x52)
  | .ld64 f => some (f.enc 0x53)
  | .ld128 f => some (f.enc 0x54)
  | .st8 f => some (f.enc 0x55)
  | .st16 f => some (f.enc 0x56)
  | .st32 f => some (f.enc 0x57)
  | .st64 f => some (f.enc 0x58)
  | .st128 f => some (f.enc 0x59)
  | .ldx f => some (f.enc 0x5a)
  | .stx f => some (f.enc 0x5b)
  | .aadd f => some (f.enc 0x5c)
  | .amin f => some (f.enc 0x5d)
  | .amax f => some (f.enc 0x5e)
  | .aumin f => some (f.enc 0x5f)
  | .aumax f => some (f.enc 0x60)
  | .aand f => some (f.enc 0x61)
  | .aor f => some (f.enc 0x62)
  | .axor f => some (f.enc 0x63)
  | .axch f => some (f.enc 0x64)
  | .acas f => some (f.enc 0x65)
  | .afadd f => some (f.enc 0x66)
  | .pref f => some (f.enc 0x67)
  | .rld32 f => some (f.enc 0x68 + 48)
  | .rld64 f => some (f.enc 0x69 + 48)
  | .rst32 f => some (f.enc 0x6a + 48)
  | .rst64 f => some (f.enc 0x6b + 48)
  | .ratom f => some (f.enc 0x6c)
  | .br f => some (f.enc 0x70)
  | .brx f => some (f.enc 0x71)
  | .call f => some (f.enc 0x72)
  | .ret f => some (f.enc 0x73)
  | .exitv f => some (f.enc 0x74)
  | .barv f => some (f.enc 0x75)
  | .regn n => some (0x76 * 2 ^ 24 + n.toNat * 2 ^ 3)
  | .spawn f => some (f.enc 0x77)
  | .yield f => some (f.enc 0x78)
  | .nop f => some (f.enc 0x79)
  | .waite f => some (f.enc 0x7c)
  | .gadd f => some (f.enc 0x80)
  | .gsub f => some (f.enc 0x81)
  | .gmul f => some (f.enc 0x82)
  | .gmad f => some (f.enc 0x83)
  | .gmin f => some (f.enc 0x84)
  | .gmax f => some (f.enc 0x85)
  | .gand f => some (f.enc 0x86)
  | .gor f => some (f.enc 0x87)
  | .gxor f => some (f.enc 0x88)
  | .gshl f => some (f.enc 0x89)
  | .gshr f => some (f.enc 0x8a)
  | .gsar f => some (f.enc 0x8b)
  | .gcmp f => some (f.enc 0x8c)
  | .gsel f => some (f.enc 0x8d)
  | .gpopc f => some (f.enc 0x8e)
  | .gclz f => some (f.enc 0x8f)
  | .gaddi f => some (f.enc 0x90)
  | .gmovi f => some (f.enc 0x91)
  | .gmovh f => some (f.enc 0x92)
  | .gmulh f => some (f.enc 0x95)
  | .gdivu f => some (f.enc 0x96)
  | .gremu f => some (f.enc 0x97)
  | .gbr f => some (f.enc 0x98)
  | .gloop f => some (f.enc 0x99)
  | .gcall f => some (f.enc 0x9a)
  | .gret f => some (f.enc 0x9b)
  | .qput f => some (f.enc 0x9c)
  | .qget f => some (f.enc 0x9d)
  | .qclose f => some (f.enc 0x9e)
  | .qstat f => some (f.enc 0x9f)
  | .gld32 f => some (f.enc 0xa0)
  | .gld64 f => some (f.enc 0xa1)
  | .gst32 f => some (f.enc 0xa2)
  | .gst64 f => some (f.enc 0xa3)
  | .gatom f => some (f.enc 0xa4)
  | .agen f => some (f.enc 0xa5)
  | .agenx f => some (f.enc 0xa6)
  | .gpref f => some (f.enc 0xa7)
  | .cbinit f => some (f.enc 0xad)
  | .cbarv f => some (f.enc 0xae)
  | .cbwait f => some (f.enc 0xaf)
  | .cbtest f => some (f.enc 0xb0)
  | .cpy f => some (f.enc 0xb8)
  | .cpys f => some (f.enc 0xb9)
  | .cpyg f => some (f.enc 0xba)
  | .cpyx f => some (f.enc 0xbb)
  | .rgld f => some (f.enc 0xd1)
  | .rgst f => some (f.enc 0xd2)
  | .rmst f => some (f.enc 0xd3)
  | .rgatm f => some (f.enc 0xd5)
  | .binsetFlush f => some (f.enc 0xe0)
  | .binsetClose f => some (f.enc 0xe0 + 1)
  | .binsetOpen f => some (f.enc 0xe0 + 2)
  | .spawngLoc f => some (f.enc 0xe1 + 16)
  | .spawngRemote f => some (f.enc 0xe1)
  | .binfl f => some (f.enc 0xe2)
  | .longLatencyComplete _ _ _ => none
  | .qgetFill => none
  | .statusWaitFill => none
  | .barrierWaitEnd => none
  | .missedPromise => none
  | .collectiveFormation => none
  | .regnPerform => none
  | .ageCap => none
  | .copyClaimGrant => none
  | .copyCommandStart => none
  | .copyUnitRelease => none
  | .copyCommandComplete => none
  | .stowComplete => none
  | .restoreComplete => none
  | .binRingAllocation => none
  | .binFlushTimerExpiry => none
  | .spawnGroupLaunch => none
  | .combineDeadline => none
  | .teamPlacement => none
  | .residencyHoldExpiry => none
  | .victimWaitExpiry => none
  | .drainBudgetExpiry => none
  | .saveEnd => none
  | .teamEnd => none
  | .l1Eviction => none
  | .pageWalkComplete => none
  | .xlateInvCtlWrite _ _ => none
  | .xlateRootWrite _ _ => none
  | .xlateKeysWrite _ _ => none
  | .invalidationComplete => none
  | .fabWtabWrite _ _ => none
  | .fabItabWrite _ _ => none
  | .evbaseWrite _ _ => none
  | .evctlWrite _ _ => none
  | .caplenWrite _ _ => none
  | .dbdataRead => none
  | .tfcmdResume _ _ => none
  | .tfcmdAbort _ _ => none
  | .runStop => none
  | .stopComplete => none
  | .runResume => none
  | .qctlReset _ _ _ => none
  | .qctlAck _ _ _ => none
  | .qctlEnable _ _ _ => none
  | .qctlDisable _ _ _ => none
  | .registerWrite _ _ _ => none
  | .writeIndexStore _ _ _ => none
  | .packetAccept => none
  | .launch => none
  | .barrier => none
  | .barrierResolve => none
  | .abortedPacketRetire => none
  | .signalAdd => none
  | .signalSet => none
  | .segmentStow => none
  | .segmentDrop => none
  | .segmentPin => none
  | .segmentUnpin => none
  | .marker => none
  | .bufferedEventPost => none
  | .heartbeat => none
  | .standbyTakeover => none
  | .fabricRead _ _ => none
  | .fabricWrite _ _ => none
  | .fabricMulticastWrite _ _ => none
  | .fabricReduction _ _ => none
  | .fabricAtomic _ _ => none
  | .fabricSignalAdd _ _ => none
  | .fabricSpawnRecord _ _ => none
  | .fabricBulkWrite _ _ => none
  | .readData _ _ => none
  | .acknowledgement _ => none
  | .errorReply _ _ => none
  | .linkPause _ _ => none
  | .linkResume _ _ => none
  | .requestTimeout => none
  | .slotQuarantineEnd => none
  | .packetLifeExpiry => none
  | .gatheringContribution _ => none
  | .reductionTimerExpiry _ _ => none
  | .containment _ _ => none
  | .portServiceChange _ _ => none
  | .portFold _ _ => none
  | .fabricLaneSwap _ => none
  | .hostCxlMemRead => none
  | .hostCxlMemWrite _ _ => none
  | .correctedError _ _ => none
  | .patrolScrub _ => none
  | .sramRowRepair => none
  | .channelSparing => none
  | .spareCoreSubstitution => none
  | .moduleReplacement => none
  | .powerGoodBoot => none
  | .cxlHotReset => none
  | .vfFunctionLevelReset => none
  | .firmwareUpdate _ _ => none
  | .sensorSample _ => none
  | .illegalOpcodeWord _ => none
  | .containmentCleared _ _ => none
  | .reattestation _ => none
  | .spdmRequest _ => none
  | .platformMonitoringAndControl _ => none
  | .virtualDeviceCreation _ _ _ _ _ => none
  | .virtualDeviceDestruction => none
  | .coreLostToUncorrectableFault => none
  | .heldSpawnRecordTimeout => none
  | .unlisted u => some u.enc

/-- The encoder as a 32-bit word. -/
def encode (i : Instr) : Option (BitVec 32) := i.enc.map (BitVec.ofNat 32)

/-- The 32-bit word held by four bytes, the first at the lowest address (00_scope R4, R17). -/
def wordOfBytes (b0 b1 b2 b3 : Byte) : BitVec 32 :=
  BitVec.ofNat 32 (b0.toNat + b1.toNat * 2 ^ 8 + b2.toNat * 2 ^ 16 + b3.toNat * 2 ^ 24)

/-- The four bytes of a word, lowest address first. -/
def bytesOfWord (w : BitVec 32) : List Byte :=
  [BitVec.ofNat 8 w.toNat, BitVec.ofNat 8 (w.toNat / 2 ^ 8), BitVec.ofNat 8 (w.toNat / 2 ^ 16),
    BitVec.ofNat 8 (w.toNat / 2 ^ 24)]

/-- Decoding four bytes as a fetch reads them. -/
def decodeBytes (b0 b1 b2 b3 : Byte) : Except Reject Instr := decode (wordOfBytes b0 b1 b2 b3)

/-- What the decoder reads from a word of the opcode table, numbered as the table numbers its bits. A row of the table
with no bits (an event) has no word, and nothing is read from it. -/
def decodeTableWord (nbits w : Nat) : Option Instr :=
  if nbits = 0 then none
  else
    match decodeBytes (BitVec.ofNat 8 w) (BitVec.ofNat 8 (w / 2 ^ 8)) (BitVec.ofNat 8 (w / 2 ^ 16))
      (BitVec.ofNat 8 (w / 2 ^ 24)) with
    | .ok i => some i
    | .error _ => none

end Sys2Proof
end

