-- ==== Sys2Proof/Machine/Fetch.lean ====
section
/-! DEFINITION. Fetching the word at a group's issue address, and the choice of the group that issues
(02_encoding R17, 14_scheduling R250 to R253). -/

namespace Sys2Proof.Machine

/-- The word at an address as fetch sees it: translated with X, read from the launch's image (R17, log entry 12). -/
def State.fetchWord (s : State) (k : Nat) (pc : VA) : Except AccFault W32 :=
  let tm := s.team (s.group k).team
  match s.check tm.core tm.vd (pc.zeroExtend 64) 4 .fetch with
  | .error f => .error f
  | .ok p =>
    if s.poisoned p.key 4 then
      .error { cause := .uncorrectable, addr := pc.zeroExtend 64, ex := true }
    else .ok (BitVec.ofNat 32 (leValue (Memory.getBytes (s.launch tm.launch).image p.key 4)))

/-- A fetch waits for a place in the pending table of walks (04_memory R61). -/
def State.fetchWaits (s : State) (k : Nat) (pc : VA) : Bool :=
  let tm := s.team (s.group k).team
  s.walkFull tm.core tm.vd (pc.zeroExtend 64)

/-- The marks that a fetch leaves: a joined walk and A (04_memory R59, R61). -/
def State.touchFetch (s : State) (k : Nat) (pc : VA) : State :=
  let tm := s.team (s.group k).team
  match s.check tm.core tm.vd (pc.zeroExtend 64) 4 .fetch with
  | .error _ => s
  | .ok p => s.touch tm.core tm.vd (pc.zeroExtend 64) p false

/-- The promised time of a command has come. -/
def State.pastPromise (s : State) (core : Nat) (c : CopyCmd) : Bool :=
  match c.promise with
  | none => false
  | some p => decide (p.toNat ≤ (s.cyc core).toNat)

/-- An outstanding command whose promise the group has reached, and for which it has taken no MISSED_PROMISE (06_copy R91). -/
def State.overdue (s : State) (k : Nat) : Option Nat :=
  (s.copies.keysWhere (fun _ c => c.group == k && c.phase != .done && !c.missed &&
    s.pastPromise (s.team (s.group k).team).core c)).head?

/-- The descriptor address of the command for which the group takes MISSED_PROMISE before it issues any word, in trap context at the
first word after RTE (R91): one that completed too late, or one that is outstanding. -/
def State.promiseDue (s : State) (k : Nat) : Option W64 :=
  let g := s.group k
  if g.trap then none
  else
    match g.late with
    | a :: _ => some a
    | [] => (s.overdue k).map (fun n => (s.copies.get n {}).descAt)

/-- The MISSED_PROMISE that is due is taken. -/
def State.takePromise (s : State) (k : Nat) : State :=
  match (s.group k).late with
  | _ :: r => s.setGroup k { s.group k with late := r }
  | [] =>
    match s.overdue k with
    | none => s
    | some n => { s with copies := s.copies.set n { s.copies.get n {} with missed := true } }

/-- Engine classes (R251). -/
inductive EngineClass where
  | lane | sfu | mem | fabric | group | copy | table
deriving DecidableEq, Repr

/-- Number of a class. -/
def EngineClass.num : EngineClass → Nat
  | .lane => 0
  | .sfu => 1
  | .mem => 2
  | .fabric => 3
  | .group => 4
  | .copy => 5
  | .table => 6

/-- Class of a word by its set and opcode (R251). -/
def classOf (w : W32) : EngineClass :=
  let op := natField w.toNat 24 7
  if natBit w.toNat 31 then
    if op < 0x20 then .group
    else if op < 0x2D then .mem
    else if op < 0x38 then .group
    else if op < 0x40 then .copy
    else if op < 0x4F then .table
    else if 0x50 ≤ op ∧ op < 0x5C then .fabric
    else if 0x63 ≤ op ∧ op < 0x69 then .copy
    else .group
  else if 0x28 ≤ op ∧ op < 0x2D then .sfu
  else if 0x50 ≤ op ∧ op < 0x68 then .mem
  else if 0x68 ≤ op ∧ op < 0x6D then .fabric
  else if op = 0x77 then .mem
  else .lane

/-- The word accesses memory, for the order after an acquire: the memory, fabric, copy and table classes, the segment words,
SPAWN and SPAWNG. -/
def accessesMemory (w : W32) : Bool :=
  let op := natField w.toNat 24 7
  let seg := natBit w.toNat 31 && (decide (0x31 ≤ op) && decide (op < 0x38) || op == 0x61)
  seg || (match classOf w with
    | .lane => false
    | .sfu => false
    | .group => false
    | .mem => true
    | .fabric => true
    | .copy => true
    | .table => true)

/-- A remote acquire of the group is outstanding and the word accesses memory: it is not ready (12_consistency R219). -/
def State.heldByAcquire (s : State) (k : Nat) (w : W32) : Bool :=
  (s.group k).ops.any (fun o => o.acq) && accessesMemory w

/-- The word at a group's issue address, 0 where fetch faults. -/
def State.nextWord (s : State) (k : Nat) : W32 :=
  match (s.group k).issuePc with
  | none => 0
  | some pc =>
    match s.fetchWord k pc with
    | .ok w => w
    | .error _ => 0

/-- The groups of the team may issue: it runs or drains. -/
def Team.runs (t : Team) : Bool :=
  match t.phase with
  | .running => true
  | .draining _ => true
  | .placing => false
  | .saving => false
  | .ending => false
  | .ended => false

/-- The team of a group lets it issue: it runs or drains, or it ends while a word of the group stands in the accumulator pipe, which is still
performed (10_table R182). -/
def State.goesOn (s : State) (k : Nat) : Bool :=
  let t := s.team (s.group k).team
  t.runs || (t.phase == .ending && (s.group k).inPipe)

/-- The group may issue as far as its own state says (R250): released, not held, with a head run or in trap context, and
it has not found its word waiting since the last effect. Whether its sources, destination, target and counter let the word issue is found
by the word itself: a choice that finds them wanting issues nothing, leaves no mark (`State.issued`), and the group is not looked at again
until something has happened (log entry 8). -/
def State.ready (s : State) (k : Nat) : Bool :=
  let g := s.group k
  g.live && s.goesOn k && !g.held && g.issuePc != none && !s.stalled.contains k

/-- Cycles since a group last issued (R251). -/
def State.age (s : State) (k : Nat) : Nat := s.now - (s.group k).lastIssue

/-- Idle age of a class on a core, held at 1,023 (R251). -/
def State.idleAge (s : State) (core : Nat) (c : EngineClass) : Nat :=
  min 1023 (s.now - (s.core core).classAt.get c.num 0)

/-- Of two ready groups of one core, the one that R252 prefers: age 64 or more first, oldest first; then the word whose
class has the greatest idle age, then the greater age, then the lower slot. -/
def State.prefer (s : State) (core a b : Nat) : Bool :=
  let aa := s.age a
  let ab := s.age b
  if 64 ≤ aa ∨ 64 ≤ ab then
    decide (aa > ab) || (aa == ab && decide ((s.group a).slot ≤ (s.group b).slot))
  else
    let ia := s.idleAge core (classOf (s.nextWord a))
    let ib := s.idleAge core (classOf (s.nextWord b))
    decide (ia > ib) || (ia == ib && (decide (aa > ab) || (aa == ab && decide ((s.group a).slot ≤ (s.group b).slot))))

/-- The preferred one of a list of ready groups. -/
def State.best (s : State) (core : Nat) (ks : List Nat) : Option Nat :=
  match ks with
  | [] => none
  | k :: r =>
    match s.best core r with
    | none => some k
    | some b => if s.prefer core k b then some k else some b

/-- The group's next word is a lane-set word. -/
def State.laneNext (s : State) (k : Nat) : Bool := !natBit (s.nextWord k).toNat 31

/-- After YIELD a group is passed over in its lane until the lane has chosen every other ready group once; age 125 overrides this
(R253). -/
def State.yieldBars (s : State) (k : Nat) : Bool :=
  match (s.group k).yielded with
  | none => false
  | some chosen =>
    decide (s.age k < 125) &&
      s.groups.any (fun p => p.1 != k && s.ready p.1 && s.laneNext p.1 &&
        (s.team p.2.team).core == (s.team (s.group k).team).core && p.2.lane == (s.group k).lane && !chosen.contains p.1)

/-- The cores that hold a released group, ascending without repeats. -/
def State.busyCores (s : State) : List Nat :=
  s.groups.foldl (fun l p => if p.2.live && !l.contains (s.team p.2.team).core then l ++ [(s.team p.2.team).core] else l) []

/-- What chooses a group in a cycle: the group pipe of a core (none), or one of its lanes. -/
abbrev Seat := Nat × Option Nat

/-- The group may be chosen at a seat: the pipe issues group-set words, a lane the lane-set words of its groups (R250 to R253). -/
def State.seated (s : State) (x : Seat) (k : Nat) : Bool :=
  let g := s.group k
  (s.team g.team).core == x.1 && s.ready k &&
    (match x.2 with
    | none => !s.laneNext k
    | some l => s.laneNext k && g.lane == l && !s.yieldBars k)

/-- The group that a seat chooses: one that a restored wait puts ahead (R256), else the preferred one (R252). -/
def State.chosen (s : State) (x : Seat) : Option Nat :=
  let ks := s.groups.keysWhere (fun k _ => s.seated x k)
  match ks.find? (fun k => (s.group k).threads.any (fun p => p.2.wsat)) with
  | some k => some k
  | none => s.best x.1 ks

/-- The seats of the busy cores: the pipe and the 16 lanes of each. -/
def State.seats (s : State) : List Seat :=
  s.busyCores.flatMap (fun c => (c, none) :: (List.range 16).map (fun l => (c, some l)))

/-- The group that issues next: the choice of the first seat that has one. The seats of a cycle choose side by side; in the model each
comes first in its turn (log entry 7). -/
def State.arbitrate (s : State) : Option Nat :=
  let l := s.seats
  let n := s.steps / 2 % l.length
  (l.drop n ++ l.take n).findSome? s.chosen

/-- A group is about to issue: it becomes the executing one, and its run mask is formed (13_execution R230). -/
def State.begin (s : State) (k : Nat) : State :=
  let g := s.group k
  { s with cur := k, groups := s.groups.set k { g with runmask := if g.trap then g.trapmask else maskOf g.run } }

/-- The word is YIELD. -/
def isYield (w : W32) : Bool :=
  match decode w with
  | .ok (.yield _) => true
  | _ => false

/-- What the choice of a group leaves once its word has issued (`s` stood before it): its WSAT marks are cleared (R256); a lane-set word
ends the group's own YIELD, unless it is one, and counts as the lane's choice for the groups of the lane that have yielded (R253); the
class of a word that could be fetched has issued (R251). A word that found itself not ready leaves nothing. -/
def State.issued (s : State) (k : Nat) (fetched : Bool) (t : State) : State :=
  if t.stalled.contains k then t
  else
    let g := s.group k
    let w := s.nextWord k
    let core := (s.team g.team).core
    let lane := s.laneNext k
    let t1 := { t with groups := t.groups.mapKV (fun k' x =>
      if k' = k then
        { x with
          threads := if x.threads.any (fun p => p.2.wsat) then x.threads.mapKV (fun _ y => { y with wsat := false }) else x.threads
          yielded := if lane && !isYield w then none else x.yielded }
      else if lane && x.lane == g.lane && (t.team x.team).core == core then { x with yielded := x.yielded.map (fun l => k :: l) }
      else x) }
    if fetched then t1.setCore core { t1.core core with classAt := (t1.core core).classAt.set (classOf w).num s.now } else t1

/-- A word that is no instruction issues (R24, R31): a lane-set word parks every thread of the run, a group-set word traps the
group. -/
def State.rejectWord (s : State) (w : W32) (c : Cause) : State :=
  let g := s.grp
  if natBit w.toNat 31 then s.trap (plainFault c)
  else if g.trap then s.trap (plainFault .illegalOpcode)
  else s.rejectRun c

/-- A word whose privilege check, decided by the word alone, fails (R30): RTE outside trap context, CSRWR to a privileged CSR
outside trap and firmware context. -/
def Group.wordPrivileged (g : Group) (i : Instr) : Bool :=
  match i with
  | .unlisted (.rte _) => !g.trap
  | .unlisted (.csrwr _ n) => csrPrivileged n.toNat && !g.privileged
  | _ => false

end Sys2Proof.Machine
end

