-- ==== Sys2Proof/Machine/Barriers.lean ====
section
/-! DEFINITION. Completion barriers: arrivals, CBINIT, CBARV, CBWAIT and CBTEST (06_copy R95 to R98). -/

namespace Sys2Proof.Machine

/-! ## Arrivals (R96) -/

/-- An error record of an arrival: cause, address, index. -/
structure ArrErr where
  cause : BitVec 8
  addr : VA
  idx : Nat
deriving DecidableEq, Repr

/-- The error record that a fault of an engine gives. -/
def arrErr (c : Cause) (a : W64) (idx : Nat) : ArrErr := { cause := c.code, addr := a.truncate 56, idx := idx }

/-- An arrival's error record is noted: the first since CBINIT stays. -/
def Barrier.noteErr (b : Barrier) (e : Option ArrErr) : Barrier :=
  match e with
  | none => b
  | some r =>
    if b.ew then { b with curErr := true }
    else { b with curErr := true, ew := true, cause := r.cause, addr := r.addr, errIdx := BitVec.ofNat 16 (min r.idx 0xFFFF) }

/-- Completed phases are counted off. When more than one phase completes at once, the last is no error phase. -/
def Barrier.count (b : Barrier) : Barrier :=
  if b.arrived < b.expect then b
  else
    { b with arrived := b.arrived % b.expect, phase := b.phase + BitVec.ofNat 8 (b.arrived / b.expect),
             lastErr := b.curErr && b.arrived / b.expect == 1, curErr := false }

/-- An arrival of `n`. -/
def Barrier.arrive (b : Barrier) (n : Nat) (e : Option ArrErr) : Barrier :=
  let c := b.noteErr e
  Barrier.count { c with arrived := c.arrived + n }

/-- A barrier of a team. -/
def Team.cb (t : Team) (n : Nat) : Barrier := t.cbs.get n {}

/-- An arrival at a team's barrier; one whose team is gone is void. -/
def State.arrive (s : State) (team cb n : Nat) (e : Option ArrErr) : State :=
  match s.teams.find team with
  | none => s
  | some t => s.setTeam team { t with cbs := t.cbs.set cb ((t.cb cb).arrive n e) }

/-- Phase `p` has passed (R96). -/
def Barrier.passed (b : Barrier) (p : BitVec 8) : Bool :=
  let d := (b.phase - p).toNat
  decide (1 ≤ d) && decide (d ≤ 128)

/-- Word 0 of a barrier (R95). -/
def Barrier.word0 (b : Barrier) : W64 :=
  BitVec.ofNat 64 (b.expect + b.arrived * 2 ^ 18 + bitNat b.lastErr * 2 ^ 37 + bitNat b.curErr * 2 ^ 38 +
    bitNat b.ew * 2 ^ 39 + b.phase.toNat * 2 ^ 40 + b.errIdx.toNat * 2 ^ 48)

/-- Word 1 of a barrier (R95). -/
def Barrier.word1 (b : Barrier) : W64 := BitVec.ofNat 64 (b.addr.toNat + b.cause.toNat * 2 ^ 56)

/-- The barrier with the words given (a restored one). -/
def Barrier.ofWords (a b : W64) : Barrier :=
  { errIdx := BitVec.ofNat 16 (a.field 48 16), phase := BitVec.ofNat 8 (a.field 40 8), ew := a.bit 39,
    curErr := a.bit 38, lastErr := a.bit 37, arrived := a.field 18 18, expect := a.field 0 18,
    cause := BitVec.ofNat 8 (b.field 56 8), addr := b.truncate 56 }

/-! ## The words (R98) -/

/-- A count of arrivals is within its range. -/
def arrivalsOk (v : W64) : Bool := decide (1 ≤ v.toNat) && decide (v.toNat ≤ 262143)

/-- The sequencer word delivers an arrival (10_table R180). -/
def SeqKind.arrives : SeqKind → Bool
  | .mloop => true
  | .mloop4 => true
  | .mstep => true
  | .tbld => false
  | .tbld4 => false
  | .tinv => false
  | .tspl => false
  | .tfil => false

/-- The command moves an image of a segment, and is no command of a team (05_slices R335). -/
def CopyKind.isImage : CopyKind → Bool
  | .stow => true
  | .restore => true
  | .cpy => false
  | .cpys => false
  | .cpyg => false
  | .cpyx => false
  | .cpyq => false
  | .cpywPut => false
  | .cpywGet => false

/-- The copy commands and sequences of the team that name the barrier and have not delivered their arrivals. -/
def State.cbPending (s : State) (team cb : Nat) : List Nat × List Nat :=
  (s.copies.keysWhere (fun _ c => c.team == team && c.cb == cb && !c.kind.isImage && c.phase != .done),
    ((s.core (s.team team).core).seqs.filter (fun q => q.team == team && q.cb == cb && q.kind.arrives)).map (·.id))

/-- What CBINIT still awaits: of the words issued before it those whose arrivals are outstanding (R98). -/
def State.cbAwaited (s : State) (k cb : Nat) : List Nat × List Nat :=
  let p := s.cbPending (s.group k).team cb
  match (s.group k).cbWait with
  | none => p
  | some w => (p.1.filter w.1.contains, p.2.filter w.2.contains)

/-- CBINIT: the first attempt notes the words issued before it, and it waits for no other. -/
def execCbinit (f : GrpCbinit) (s : State) : Out :=
  .next (s.groupWord (.cbinit f) { srcs := [{ o := f.a }] } (fun s1 v =>
    if !arrivalsOk (gv v 0) then .fault (plainFault .reservedField)
    else
      let w := s1.cbAwaited s1.cur f.cb.val
      if w.1.isEmpty && w.2.isEmpty then
        let t := s1.curTeam
        .done (s1.setTeam s1.grp.team { t with cbs := t.cbs.set f.cb.val { expect := (gv v 0).toNat } })
      else if s1.grp.cbWait.isSome then .wait
      else .hold (s.setGrp { s.grp with cbWait := some w })))

/-- CBARV: a release at team scope, for which the words already performed suffice (log entry 3), then the arrival. -/
def execCbarv (f : GrpCbarv) (s : State) : Out :=
  .next (s.groupWord (.cbarv f) { srcs := if f.err then [{ o := f.a }, { o := f.b }] else [{ o := f.a }] } (fun s1 v =>
    if !arrivalsOk (gv v 0) then .fault (plainFault .reservedField)
    else .done (s1.arrive s1.grp.team f.cb.val (gv v 0).toNat
      (if f.err then some { cause := BitVec.ofNat 8 ((gv v 1).field 56 8), addr := (gv v 1).truncate 56, idx := 0 }
       else none))))

/-- The word that CBWAIT and CBTEST return. -/
def Barrier.word (b : Barrier) (ew : Bool) : W64 := if ew then b.word1 else b.word0

/-- CBWAIT as it issues and as it ends. -/
def State.cbwait (s : State) (f : GrpCbwait) : State :=
  s.groupWord (.cbwait f) { srcs := [{ o := f.a }], dest := destOf f.b 1 } (fun s1 v =>
    let b := s1.curTeam.cb f.cb.val
    if !b.passed ((gv v 0).truncate 8) then .wait
    else
      let s2 := s1.writeGroup f.b (b.word f.ew)
      if f.te && b.ew && b.cause != 0 then .trapAfter s2 b.cause (b.addr.zeroExtend 64) 0 else .done s2)

/-- CBWAIT. -/
def execCbwait (f : GrpCbwait) (s : State) : Out := .next (s.cbwait f)

/-- CBTEST. -/
def execCbtest (f : GrpCbtest) (s : State) : Out :=
  .next (s.groupWord (.cbtest f) { srcs := [{ o := f.a }], dest := destOf f.b 1 } (fun s1 v =>
    let b := s1.curTeam.cb f.cb.val
    let s2 := s1.writeGroup f.b (b.word f.ew)
    .done (s2.setGrp (s2.grp.setCond f.c (b.passed ((gv v 0).truncate 8))))))

/-- The group stands waiting at its word and may look again: released, not held, no MISSED_PROMISE due. -/
def State.mayResume (s : State) (k : Nat) : Bool :=
  (s.group k).live && (s.team (s.group k).team).runs && !(s.group k).held && (s.group k).issuePc != none && (s.promiseDue k).isNone

/-- BARRIER_WAIT_END of group `on.a`: its CBWAIT ends once the phase has passed. -/
def execBarrierWaitEnd (s : State) : Out :=
  match (s.group s.on.a).waitWord with
  | some (.cbwait f) =>
    let s1 := { s with cur := s.on.a }.cbwait f
    if s.mayResume s.on.a && (s1.group s.on.a).waitWord.isNone then .next s1 else .next s
  | _ => .next s

end Sys2Proof.Machine
end

