-- ==== Sys2Proof/Machine/Approx.lean ====
section
/-! DEFINITION. The transcendental words' functions (08_compute R134): an exact value, or a truncated one of many bits
with an odd last bit that stands for the rest, so that one rounding gives the correctly rounded result (log entry 11). -/

namespace Sys2Proof.Machine

/-- A truncated magnitude and whether a rest was cut off, as an exact value that rounds as the true one. -/
def sticky (neg : Bool) (m : Nat) (rest : Bool) (e : Int) : Ext := .fin neg (2 * m + bitNat rest) (e - 1)

/-- Integer square root, rounded down, bit by bit: bits below `n` are still to be found. -/
def isqrtFrom (n x r : Nat) : Nat :=
  match n with
  | 0 => r
  | k + 1 => isqrtFrom k x (if (r + 2 ^ k) * (r + 2 ^ k) ≤ x then r + 2 ^ k else r)

/-- Integer square root, rounded down. -/
def isqrt (x : Nat) : Nat := isqrtFrom (Nat.log2 x / 2 + 1) x 0

/-- 1 / x. -/
def recipExt : Ext → Ext
  | .nan => .nan
  | .inf n => .fin n 0 0
  | .fin n m e =>
    if m = 0 then .inf n
    else
      let k := Nat.log2 m + 64
      sticky n (2 ^ k / m) (2 ^ k % m != 0) (-(k : Int) - e)

/-- An even exponent: the magnitude and half the exponent. -/
def evenExp (m : Nat) (e : Int) : Nat × Int := if e % 2 = 0 then (m, e / 2) else (2 * m, (e - 1) / 2)

/-- The square root, and NV. -/
def sqrtExt : Ext → Ext × Bool
  | .nan => (.nan, false)
  | .inf n => if n then (.nan, true) else (.inf false, false)
  | .fin n m e =>
    if m = 0 then (.fin n 0 0, false)
    else if n then (.nan, true)
    else
      let x := evenExp m e
      let r := isqrt (x.1 * 2 ^ 128)
      (sticky false r (r * r != x.1 * 2 ^ 128) (x.2 - 64), false)

/-- 1 / the square root, and NV. -/
def rsqrtExt : Ext → Ext × Bool
  | .nan => (.nan, false)
  | .inf n => if n then (.nan, true) else (.fin false 0 0, false)
  | .fin n m e =>
    if m = 0 then (.inf n, false)
    else if n then (.nan, true)
    else
      let x := evenExp m e
      let r := isqrt (2 ^ 256 / x.1)
      (sticky false r (r * r * x.1 != 2 ^ 256) (-128 - x.2), false)

/-- Bits of the fixed-point numbers of `exp2Frac`. -/
def expBits : Nat := 320

/-- 2 to a fraction, truncated: `root` is 2^(2^-i), `f` the bits of the fraction still to come, highest first. -/
def exp2Frac (n : Nat) (f root acc : Nat) : Nat :=
  match n with
  | 0 => acc
  | k + 1 =>
    let r := isqrt (root * 2 ^ expBits)
    exp2Frac k f r (if natBit f k then acc * r / 2 ^ expBits else acc)

/-- 2 ^ x. Beyond 2^-400 and 2^400 any value of that size rounds alike. -/
def exp2Ext : Ext → Ext
  | .nan => .nan
  | .inf n => if n then .fin false 0 0 else .inf false
  | .fin n m e =>
    if m = 0 then .fin false 1 0
    else if 8 < e + Nat.log2 m then .fin false 1 (if n then -2000 else 2000)
    else
      let k := (-e).toNat
      let x : Int := m * 2 ^ (e + k).toNat
      let v := if n then -x else x
      let whole := v / 2 ^ k
      let f := (v - whole * 2 ^ k).toNat
      if f = 0 then .fin false 1 whole
      else sticky false (exp2Frac k f (2 * 2 ^ expBits) (2 ^ expBits)) true (whole - expBits)

/-- Bits of the logarithm, by repeated squaring of a fixed-point number of 360 bits from [1, 2). -/
def log2Bits (n y acc : Nat) : Nat :=
  match n with
  | 0 => acc
  | k + 1 =>
    let z := y * y / 2 ^ 360
    if 2 * 2 ^ 360 ≤ z then log2Bits k (z / 2) (2 * acc + 1) else log2Bits k z (2 * acc)

/-- log2 x, and NV. -/
def log2Ext : Ext → Ext × Bool
  | .nan => (.nan, false)
  | .inf n => if n then (.nan, true) else (.inf false, false)
  | .fin n m e =>
    if m = 0 then (.inf true, false)
    else if n then (.nan, true)
    else
      let t := Nat.log2 m
      let whole : Int := e + t
      if m = 2 ^ t then (if whole = 0 then .fin false 0 0 else .ofInt whole, false)
      else
        let v : Int := whole * 2 ^ 180 + log2Bits 180 (m * 2 ^ (360 - t)) 0
        (if whole < 0 then sticky true (-v - 1).toNat true (-180) else sticky false v.toNat true (-180), false)

end Sys2Proof.Machine
end

