-- ==== Sys2Proof/Machine/LaneFloat.lean ====
section
/-! DEFINITION. Lane floating-point words, packed words, dual-shift and scaled words (08_compute R130 to R135, R389 to
R391). -/

namespace Sys2Proof.Machine

/-- An exact result with its NV mark, rounded to FP32 (03_numbers R48). -/
def roundNv (r : Rnd) (x : Ext × Bool) : W32 × FFlags :=
  let y := roundFp32 r x.1
  (y.1, { y.2 with nv := y.2.nv || x.2 })

/-- FADD on values (R130). -/
def fadd32 (r : Rnd) (a b : W32) : W32 × FFlags := roundNv r ((fp32 a).add r (fp32 b))
/-- FSUB on values (R130). -/
def fsub32 (r : Rnd) (a b : W32) : W32 × FFlags := roundNv r ((fp32 a).add r (fp32 b).neg)
/-- FMUL on values (R130). -/
def fmul32 (r : Rnd) (a b : W32) : W32 × FFlags := roundNv r ((fp32 a).mul (fp32 b))
/-- FFMA on values (R130). -/
def ffma32 (r : Rnd) (a b c : W32) : W32 × FFlags := roundNv r ((fp32 a).fma r (fp32 b) (fp32 c))
/-- FMIN and FMAX on values (R131). -/
def fminmax32 (mx : Bool) (a b : W32) : W32 := BitVec.ofNat 32 (Fmt.minMax .fp32 mx a.toNat b.toNat)

/-- FADD (R130). -/
def execFadd (f : LaneBin) (s : State) : Out := s.laneBinF (.fadd f) f fadd32
/-- FSUB (R130). -/
def execFsub (f : LaneBin) (s : State) : Out := s.laneBinF (.fsub f) f fsub32
/-- FMUL (R130). -/
def execFmul (f : LaneBin) (s : State) : Out := s.laneBinF (.fmul f) f fmul32
/-- FFMA (R130): reads vd as its addend. -/
def execFfma (f : LaneBin) (s : State) : Out := s.laneTriF (.ffma f) f ffma32
/-- FMIN (R131). -/
def execFmin (f : LaneBin) (s : State) : Out := s.laneBin (.fmin f) f (fminmax32 false)
/-- FMAX (R131). -/
def execFmax (f : LaneBin) (s : State) : Out := s.laneBin (.fmax f) f (fminmax32 true)

/-- FCMP (R132). -/
def execFcmp (f : LaneFCmp) (s : State) : Out :=
  .next (s.laneWord (.fcmp f)
    { blocks := blockOf f.a 1 ++ blockOf f.b 1, guard := laneGuard f.pg f.ng,
      srcs := [{ o := f.a, trap := f.ea }, { o := f.b, trap := f.eb }] }
    (fun s1 ts k => s1.writePred f.pd ts (fun t => fltCompare f.cc (fp32 (s1.lv k 0 t)) (fp32 (s1.lv k 1 t)))))

/-- The class of an FP32 code (R133). -/
def fcls32 (a : W32) : W32 :=
  let neg := natBit a.toNat 31
  let mag := a.toNat % 2 ^ 31
  let bit := if 0x7F800000 < mag then 8
    else if mag = 0x7F800000 then (if neg then 0 else 7)
    else if 0x800000 ≤ mag then (if neg then 1 else 6)
    else if 0 < mag then (if neg then 2 else 5)
    else (if neg then 3 else 4)
  BitVec.ofNat 32 (2 ^ bit)

/-- FCLS (R133). -/
def execFcls (f : LaneUn) (s : State) : Out := s.laneUn (.fcls f) f fcls32

/-- FRCP on a value (R134). -/
def frcp32 (r : Rnd) (a : W32) : W32 × FFlags := roundFp32 r (recipExt (fp32 a))
/-- FRSQ on a value (R134). -/
def frsq32 (r : Rnd) (a : W32) : W32 × FFlags := roundNv r (rsqrtExt (fp32 a))
/-- FSQRT on a value (R134). -/
def fsqrt32 (r : Rnd) (a : W32) : W32 × FFlags := roundNv r (sqrtExt (fp32 a))
/-- FEXP2 on a value (R134). -/
def fexp2_32 (r : Rnd) (a : W32) : W32 × FFlags := roundFp32 r (exp2Ext (fp32 a))
/-- FLOG2 on a value (R134). -/
def flog2_32 (r : Rnd) (a : W32) : W32 × FFlags := roundNv r (log2Ext (fp32 a))

/-- FRCP (R134). -/
def execFrcp (f : LaneUn) (s : State) : Out := s.laneUnF (.frcp f) f frcp32
/-- FRSQ (R134). -/
def execFrsq (f : LaneUn) (s : State) : Out := s.laneUnF (.frsq f) f frsq32
/-- FSQRT (R134). -/
def execFsqrt (f : LaneUn) (s : State) : Out := s.laneUnF (.fsqrt f) f fsqrt32
/-- FEXP2 (R134). -/
def execFexp2 (f : LaneUn) (s : State) : Out := s.laneUnF (.fexp2 f) f fexp2_32
/-- FLOG2 (R134). -/
def execFlog2 (f : LaneUn) (s : State) : Out := s.laneUnF (.flog2 f) f flog2_32

/-! ## Packed words (R135) -/

/-- Half `h` of a register. -/
def half (h : Nat) (a : W32) : Nat := natField a.toNat (16 * h) 16

/-- Both halves computed by themselves and joined; their flags are raised together. -/
def packed (op : Nat → Nat × FFlags) : W32 × FFlags :=
  let x := op 0
  let y := op 1
  (BitVec.ofNat 32 (x.1 + y.1 * 2 ^ 16), x.2.or y.2)

/-- An exact result with its NV mark, rounded to a 16-bit format without saturation (R135). -/
def Fmt.roundHalf (f : Fmt) (r : Rnd) (x : Ext × Bool) : Nat × FFlags :=
  let y := f.encode r false x.1
  (y.1, { y.2 with nv := y.2.nv || x.2 })

/-- ADD on both halves. -/
def packedAdd (f : Fmt) (r : Rnd) (a b : W32) : W32 × FFlags :=
  packed (fun h => f.roundHalf r ((exact f (half h a)).add r (exact f (half h b))))
/-- MUL on both halves. -/
def packedMul (f : Fmt) (r : Rnd) (a b : W32) : W32 × FFlags :=
  packed (fun h => f.roundHalf r ((exact f (half h a)).mul (exact f (half h b))))
/-- FMA on both halves. -/
def packedFma (f : Fmt) (r : Rnd) (a b d : W32) : W32 × FFlags :=
  packed (fun h => f.roundHalf r ((exact f (half h a)).fma r (exact f (half h b)) (exact f (half h d))))

/-- BADD2 (R135). -/
def execBadd2 (f : LaneBin) (s : State) : Out := s.laneBinF (.badd2 f) f (packedAdd .bf16)
/-- BMUL2 (R135). -/
def execBmul2 (f : LaneBin) (s : State) : Out := s.laneBinF (.bmul2 f) f (packedMul .bf16)
/-- BFMA2 (R135). -/
def execBfma2 (f : LaneBin) (s : State) : Out := s.laneTriF (.bfma2 f) f (packedFma .bf16)
/-- BMAX2 (R135): sets no flag. -/
def execBmax2 (f : LaneBin) (s : State) : Out :=
  s.laneBin (.bmax2 f) f (fun a b => (packed (fun h => (Fmt.minMax .bf16 true (half h a) (half h b), {}))).1)
/-- HADD2 (R135). -/
def execHadd2 (f : LaneBin) (s : State) : Out := s.laneBinF (.hadd2 f) f (packedAdd .fp16)
/-- HMUL2 (R135). -/
def execHmul2 (f : LaneBin) (s : State) : Out := s.laneBinF (.hmul2 f) f (packedMul .fp16)
/-- HFMA2 (R135). -/
def execHfma2 (f : LaneBin) (s : State) : Out := s.laneTriF (.hfma2 f) f (packedFma .fp16)

/-! ## Dual-shift and scaled words (R389 to R391) -/

/-- DSENC (R389): bits above the code are 0. -/
def execDsenc (f : LaneUn) (s : State) : Out :=
  s.laneUnF (.unlisted (.dsenc f)) f (fun _ a => (BitVec.ofNat 32 (ds8Encode (fp32 a)).1, (ds8Encode (fp32 a)).2))

/-- DSMUL on values (R390). -/
def dsmul32 (r : Rnd) (a b : W32) : W32 × FFlags :=
  let c := b.toNat % 256
  if ds8Value c = 0 then (0, {}) else roundNv r ((fp32 a).mul (ds8Exact c))

/-- DSMUL (R390). -/
def execDsmul (f : LaneBin) (s : State) : Out := s.laneBinF (.unlisted (.dsmul f)) f dsmul32

/-- MXSCL on values (R391). -/
def mxscl32 (r : Rnd) (a b : W32) : W32 × FFlags := roundFp32 r ((fp32 a).scaleBy (b.toNat % 256))

/-- MXSCL (R391). -/
def execMxscl (f : LaneBin) (s : State) : Out := s.laneBinF (.unlisted (.mxscl f)) f mxscl32

end Sys2Proof.Machine
end

