-- ==== Sys2Proof/Machine/LaneConvert.lean ====
section
/-! DEFINITION. Conversions (08_compute R136, R137, 02_encoding R28) and k-lists (R138, R357, R358, R392). -/

namespace Sys2Proof.Machine

/-- The rounding mode of a conversion (R28, R136). -/
def Group.cvtMode (g : Group) (c : CvtRound) : Rnd :=
  match c with
  | .fpm => g.rm
  | .rn => .rn
  | .rz => .rz
  | .rp => .rp
  | .rm => .rm

/-- A conversion word: `op` gets the rounding mode, whether it saturates, and the source. -/
def State.laneCvt (s : State) (i : Instr) (f : LaneCvt) (op : Rnd → Bool → W32 → W32 × FFlags) : Out :=
  .next (s.laneWord i
    { blocks := blockOf f.d 1 ++ blockOf f.a 1, guard := laneGuard f.pg f.ng,
      srcs := [{ o := f.a, trap := f.ea }], dest := destOf f.d 1 }
    (fun s1 ts k => s1.writeLaneF f.d ts (fun t =>
      op (s1.grp.cvtMode f.rnd) (f.sat || s1.grp.sat) (s1.lv k 0 t))))

/-- The formats of CVTF8 and CVT8F by fmt (R28). -/
def fmt8 (n : Fin 4) : Fmt := if n = 0 then .e4m3 else .e5m2
/-- The formats of CVTFN and CVTNF by fmt (R28). -/
def fmtN (n : Fin 4) : Fmt := if n = 0 then .e2m3 else if n = 1 then .e3m2 else .e2m1

/-- Narrowing of FP32 (R47). -/
def narrow (f : Fmt) (r : Rnd) (sat : Bool) (a : W32) : W32 × FFlags :=
  let x := f.encode r sat (fp32 a)
  (BitVec.ofNat 32 x.1, x.2)

/-- Exact widening to FP32: no flag (R47). -/
def widen (f : Fmt) (a : W32) : W32 × FFlags := ((roundFp32 .rn (exact f (a.toNat % 2 ^ f.bits))).1, {})

/-- CVTIF on a value (R136). -/
def cvtif32 (r : Rnd) (u : Bool) (a : W32) : W32 × FFlags := roundFp32 r (.ofInt (if u then a.toNat else a.toInt))

/-- CVTIF (R136). -/
def execCvtif (f : LaneCvt) (s : State) : Out := s.laneCvt (.cvtif f) f (fun r _ a => cvtif32 r (f.fmt == 1) a)
/-- CVTFI (R137). -/
def execCvtfi (f : LaneCvt) (s : State) : Out := s.laneCvt (.cvtfi f) f (fun r _ a => toInt32 r (f.fmt == 1) (fp32 a))
/-- CVTFB (R136). -/
def execCvtfb (f : LaneCvt) (s : State) : Out := s.laneCvt (.cvtfb f) f (narrow .bf16)
/-- CVTBF (R136). -/
def execCvtbf (f : LaneCvt) (s : State) : Out := s.laneCvt (.cvtbf f) f (fun _ _ a => widen .bf16 a)
/-- CVTFH (R136). -/
def execCvtfh (f : LaneCvt) (s : State) : Out := s.laneCvt (.cvtfh f) f (narrow .fp16)
/-- CVTHF (R136). -/
def execCvthf (f : LaneCvt) (s : State) : Out := s.laneCvt (.cvthf f) f (fun _ _ a => widen .fp16 a)
/-- CVTF8 (R136). -/
def execCvtf8 (f : LaneCvt) (s : State) : Out := s.laneCvt (.cvtf8 f) f (narrow (fmt8 f.fmt))
/-- CVT8F (R136). -/
def execCvt8f (f : LaneCvt) (s : State) : Out := s.laneCvt (.cvt8f f) f (fun _ _ a => widen (fmt8 f.fmt) a)
/-- CVTFN (R136). -/
def execCvtfn (f : LaneCvt) (s : State) : Out := s.laneCvt (.cvtfn f) f (narrow (fmtN f.fmt))
/-- CVTNF (R136). -/
def execCvtnf (f : LaneCvt) (s : State) : Out := s.laneCvt (.cvtnf f) f (fun _ _ a => widen (fmtN f.fmt) a)

/-! ## k-lists -/

/-- Length of the group's k-lists. -/
def Group.klenN (g : Group) : Nat := g.klen.toNat

/-- A pair ranks above another (R138). -/
def ranksAbove (a b : W32 × W32) : Bool :=
  let x := fp32 a.1
  let y := fp32 b.1
  let above := if y.isNan then !x.isNan else y.lt x
  let below := if x.isNan then !y.isNan else x.lt y
  above || (!below && decide (a.2.toNat < b.2.toNat))

/-- A pair goes into a list of `k` entries: before the first entry that it ranks above; the last one falls out (R357). -/
def kInsert (p : W32 × W32) (l : List (W32 × W32)) : List (W32 × W32) :=
  match l with
  | [] => []
  | x :: r => if ranksAbove p x then (p :: x :: r).take (r.length + 1) else x :: kInsert p r

/-- The k-list of a thread from register `d`. -/
def Thread.kList (x : Thread) (d k : Nat) : List (W32 × W32) :=
  (List.range k).map (fun j => (x.reg (d + 2 * j), x.reg (d + 2 * j + 1)))

/-- Writes registers from `d` on. -/
def Thread.writeRegs (x : Thread) (d : Nat) (l : List W32) : Thread :=
  match l with
  | [] => x
  | w :: r => (x.write d w).writeRegs (d + 1) r

/-- KINIT (R392). -/
def execKinit (k : BitVec 9) (pg : Fin 8) (s : State) : Out :=
  .next (s.laneWord (.unlisted (.kinit k pg)) { guard := laneGuard pg false }
    (fun s1 ts _ => if ts.isEmpty then s1 else s1.setGrp { s1.grp with klen := k.zeroExtend 64 }))

/-- KINS (R357): the list is read and written. -/
def execKins (f : LaneBin) (s : State) : Out :=
  let d := regNum f.d
  let k := s.grp.klenN
  .next (s.laneWord (.unlisted (.kins f))
    { blocks := [(d, 2 * k)] ++ blockOf f.a 1 ++ blockOf f.b 1, guard := laneGuard f.pg f.ng,
      srcs := [{ o := f.a, trap := f.ea }, { o := f.b, trap := f.eb }],
      also := (List.range (2 * k)).map (fun j => d + j), dest := .regs d (2 * k) }
    (fun s1 ts ks => s1.setGrp (s1.grp.mapThreads ts (fun t x =>
      x.writeRegs d ((kInsert (s1.lv ks 0 t, s1.lv ks 1 t) (x.kList d k)).flatMap (fun p => [p.1, p.2]))))))

/-- KEXT (R358). -/
def execKext (d a : Opnd) (idx : Bool) (e : Fin 16) (pg : Fin 8) (s : State) : Out :=
  let k := s.grp.klenN
  let n := regNum a
  .next (s.laneWord (.unlisted (.kext d a idx e pg))
    { blocks := [(n, 2 * k)] ++ blockOf d 1, guard := laneGuard pg false, ok := decide (e.val < k),
      srcs := [{ o := regOpnd (n + 2 * e.val + bitNat idx) }], dest := destOf d 1 }
    (fun s1 ts ks => s1.writeLane d ts (fun t => s1.lv ks 0 t)))

end Sys2Proof.Machine
end

