-- ==== Sys2Proof/Machine/Queues.lean ====
section
/-! DEFINITION. Register-state words, identifiers, operand queues and affine generation (07_registers R108 to R118). -/

namespace Sys2Proof.Machine

/-! ## Register-state words -/

/-- An LA word that names one register as its destination. -/
def oneWord (f : LaneOne) : LaneWord :=
  { blocks := blockOf f.d 1, guard := laneGuard f.pg f.ng, dest := destOf f.d 1 }

/-- MKEMP (R115). -/
def execMkemp (f : LaneOne) (s : State) : Out :=
  .next (s.laneWord (.mkemp f) (oneWord f) (fun s1 ts _ =>
    s1.setGrp (s1.grp.mapThreads ts (fun _ x => x.setState (regNum f.d) .empty))))

/-- MKFUL on one thread (R115): an EMPTY or FAULTED register becomes 0 and FULL. -/
def Thread.makeFull (x : Thread) (r : Nat) : Thread :=
  if x.regState r = .empty ∨ x.regState r = .faulted then x.write r 0 else x

/-- MKFUL (R115). -/
def execMkful (f : LaneOne) (s : State) : Out :=
  .next (s.laneWord (.mkful f) (oneWord f) (fun s1 ts _ =>
    s1.setGrp (s1.grp.mapThreads ts (fun _ x => x.makeFull (regNum f.d)))))

/-- The predicates as PMOV packs them: bit 0 is 1 (R116). -/
def Thread.packed (x : Thread) : W32 := (x.preds ||| 1).zeroExtend 32

/-- PMOV vd (R116). -/
def execPmovPack (f : LaneOne) (s : State) : Out :=
  .next (s.laneWord (.pmovPack f) (oneWord f) (fun s1 ts _ => s1.writeLane f.d ts (fun t => (s1.grp.thread t).packed)))

/-- PMOV va (R116). -/
def execPmovUnpack (f : LaneSrc) (s : State) : Out :=
  .next (s.laneWord (.pmovUnpack f)
    { blocks := blockOf f.a 1, guard := laneGuard f.pg f.ng, srcs := [{ o := f.a, trap := f.ea }] }
    (fun s1 ts k => s1.setGrp (s1.grp.mapThreads ts (fun t x =>
      { x with preds := (s1.lv k 0 t).truncate 8 &&& 0xFE }))))

/-- Grid position of a team on an axis: axis 0 varies fastest (R117). -/
def gridPos (grid : Nat × Nat × Nat) (index : Nat) : Nat × Nat × Nat :=
  (index % grid.1, index / grid.1 % grid.2.1, index / grid.1 / grid.2.1)

/-- The identifier that GETID selects (R117). -/
def State.identifier (s : State) (sel t : Nat) : Nat :=
  let g := s.grp
  let tm := s.curTeam
  let pos := gridPos (s.launch tm.launch).grid tm.index
  if sel = 0 then t
  else if sel = 1 then g.idx
  else if sel = 2 then g.roleIdx
  else if sel = 3 then g.role
  else if sel = 4 then tm.index
  else if sel = 5 then pos.1
  else if sel = 6 then pos.2.1
  else if sel = 7 then pos.2.2
  else if sel = 8 then tm.core
  else if sel = 9 then g.lane
  else if sel = 10 then g.budget
  else natField tm.index 32 16

/-- GETID (R117). -/
def execGetid (f : LaneGetid) (s : State) : Out :=
  .next (s.laneWord (.getid f) { blocks := blockOf f.d 1, guard := laneGuard f.pg false, dest := destOf f.d 1 }
    (fun s1 ts _ => s1.writeLane f.d ts (fun t => BitVec.ofNat 32 (s1.identifier f.sel.toNat t))))

/-- What WAITE waits for (R118): a PENDING register in a guarded thread, or a queue with no entry that is open. -/
def State.waiteWaits (s : State) (f : LaneOne) : Bool :=
  let acting := s.grp.run.filter (fun t => laneGuard f.pg f.ng (s.grp.thread t))
  match f.d with
  | .reg n => acting.any (fun t => (s.grp.thread t).regState n.val == .pending)
  | .port q => !acting.isEmpty && (s.grp.queue q.val).entries.isEmpty && !(s.portQueue s.cur q.val).closed

/-- WAITE (R118): reads and pops nothing. -/
def execWaite (f : LaneOne) (s : State) : Out :=
  let w : LaneWord :=
    { blocks := blockOf f.d 1, guard := laneGuard f.pg f.ng, ok := s.portsOk [f.d] .none }
  .next (if !s.grp.trap && s.laneStatic w && s.waiteWaits f then s.stall (.waite f)
    else s.laneWord (.waite f) w (fun s1 _ _ => s1))

/-! ## Queue words (R113) -/

/-- QPUT. -/
def execQput (f : GrpUn) (s : State) : Out :=
  .next (s.groupWord (.qput f) (gunWord s.grp f) (fun s1 v => .done (s1.writeGroup f.d (gv v 0))))

/-- QGET: the entry comes later, by QGET_FILL. -/
def execQget (f : GrpUn) (s : State) : Out :=
  let q := match f.a with
    | .port q => q.val
    | .reg _ => 0
  .next (s.groupWord (.qget f)
    { guard := grpGuard s.grp f.cg f.ng, ok := s.portsOk [f.a] .none, dest := destOf f.d 1, counts := true }
    (fun s1 _ =>
      let x := s1.portQueue s1.cur q
      let none_ := decide (x.entries.length ≤ x.gets.length)
      if none_ && x.closed then .fault (plainFault .queueClosed)
      else if none_ && f.ea then .fault (plainFault .emptyRead)
      else if 4 ≤ x.gets.length then .wait
      else
        let y := s1.grp.queue q
        .done (s1.setGrp ((s1.grp.setQueue q { y with gets := y.gets ++ [(regNum f.d, f.w, s1.grp.pc)] }).setState
          (regNum f.d) .pending))))

/-- QGET_FILL (R113): the oldest pending QGET of queue `on.b` of group `on.a` takes an entry, or faults once the queue is closed
and empty. -/
def execQgetFill (s : State) : Out :=
  let k := s.on.a
  let g := s.group k
  let q := g.queue s.on.b
  match q.gets with
  | [] => .next s
  | (r, w, pc) :: rest =>
    match q.entries with
    | e :: es =>
      .next (s.setGroup k ((g.setQueue s.on.b { q with entries := es, gets := rest }).write r (e.group w))).fire
    | [] =>
      if (s.portQueue k s.on.b).closed then
        let rec_ : FaultRec :=
          { faultRec (plainFault .queueClosed) pc 0 g.entriesCount with deferred := true, grp := true, reg := BitVec.ofNat 6 r }
        let g1 := g.setQueue s.on.b { q with gets := rest }
        .next (s.setGroup k { g1 with gst := g1.gst.set r .faulted, fault := if g1.fault.v then g1.fault else rec_ }).fire
      else .next s

/-- Closes the queue behind a port of the executing group (R111). -/
def State.closePort (s : State) (q : Nat) : State :=
  let h := s.portHome s.cur q
  let g := s.group h.1
  s.setGroup h.1 (g.setQueue h.2 { g.queue h.2 with closed := true })

/-- The port that an operand names, 0 for a register. -/
def portNum (o : Opnd) : Nat :=
  match o with
  | .reg _ => 0
  | .port q => q.val

/-- QCLOSE. -/
def execQclose (f : GrpQclose) (s : State) : Out :=
  .next (s.groupWord (.qclose f) { guard := grpGuard s.grp f.cg f.ng } (fun s1 _ => .done (s1.closePort (portNum f.d))))

/-- The entries that a queue's pending QGETs leave to later pops: each of them takes one first (R113). -/
def Queue.unclaimed (q : Queue) : List QEntry := q.entries.drop q.gets.length

/-- The word that QSTAT returns, after the group's earlier pops. -/
def State.queueStatus (s : State) (q : Nat) : W64 :=
  let x := s.portQueue s.cur q
  let kind := match x.unclaimed with
    | .uniform _ :: _ => 1
    | .perThread _ :: _ => 0
    | [] => 0
  let linked := match s.portUse s.cur q with
    | .unlinked => 0
    | .producer _ _ => 1
    | .consumer => 1
  let side := if s.portUse s.cur q = .consumer then 1 else 0
  BitVec.ofNat 64 (x.unclaimed.length + bitNat x.closed * 2 ^ 3 + kind * 2 ^ 4 + linked * 2 ^ 5 + side * 2 ^ 6)

/-- QSTAT: no pop, no wait. -/
def execQstat (f : GrpQstat) (s : State) : Out :=
  .next (s.groupWord (.qstat f) { guard := grpGuard s.grp f.cg f.ng, dest := destOf f.d 1 }
    (fun s1 _ => .done (s1.writeGroup f.d (s1.queueStatus (portNum f.a)))))

/-! ## Affine generation (R114) -/

/-- The entry number `e` of AGEN (`wd` none) or AGENX (`wd` the W of its form): an index at or above L is the null index. -/
def agenEntry (wd : Option Nat) (a b : W64) (e : Nat) : QEntry :=
  let base := (a.field 0 32 : Int)
  let st := signedOf 32 (a.field 32 32)
  let dt := signedOf 32 (b.field 0 32)
  let lim := b.field 32 32
  .perThread (threadIds.map (fun t =>
    let x := match wd with
      | none => base + t * st + e * dt
      | some w => base + (t % w : Nat) * st + (t / w : Nat) * dt + e * (32 / w : Nat) * dt
    let y := w32OfInt x
    if lim ≠ 0 ∧ lim ≤ y.toNat then 0xFFFFFFFF else y))

/-- The base after `n` entries. -/
def agenNext (wd : Option Nat) (a b : W64) (n : Nat) : W64 :=
  let dt := signedOf 32 (b.field 0 32)
  let step := match wd with
    | none => n * dt
    | some w => n * (32 / w : Nat) * dt
  BitVec.ofNat 64 ((w32OfInt ((a.field 0 32 : Int) + step)).toNat + a.field 32 32 * 2 ^ 32)

/-- Pushes the entries from number `e` on, `n` of them at most, while the queue has room: the state and how many are left. -/
def State.agenPush (s : State) (q : Nat) (entry : Nat → QEntry) (e n : Nat) : State × Nat :=
  match n with
  | 0 => (s, 0)
  | k + 1 =>
    if s.room (.port q) = .free then (s.pushPort q (entry e)).agenPush q entry (e + 1) k else (s, k + 1)

/-- AGEN and AGENX: the word waits for room entry by entry; an entry that it pops stays at the head until the word ends. -/
def State.agenWord (s : State) (i : Instr) (f : GrpAgen) (wd : Option Nat) : Out :=
  let q := portNum f.d
  .next (s.groupWord i
    { srcs := [{ o := f.a }, { o := f.b }], ok := s.portsOk [] (destOf f.d 1) }
    (fun s1 v =>
      let done := s1.grp.agen
      let n := f.n.val + 1
      if s1.room (.port q) = .closed then .fault (plainFault .queueClosed)
      else
        let r := s1.agenPush q (agenEntry wd (gv v 0) (gv v 1)) done (n - done)
        if r.2 = 0 then .done (r.1.setGrp (r.1.grp.write (regNum f.a) (agenNext wd (gv v 0) (gv v 1) n)))
        else if r.2 = n - done then .wait
        else
          let h := s.agenPush q (agenEntry wd (gv v 0) (gv v 1)) done (n - done - r.2)
          if h.2 = n - done - r.2 then .wait
          else .hold (h.1.setGrp { h.1.grp with agen := n - r.2 - h.2 })))

/-- AGEN (R114). -/
def execAgen (f : GrpAgen) (s : State) : Out := s.agenWord (.agen f) f none
/-- AGENX (R114). -/
def execAgenx (f : GrpAgen) (s : State) : Out := s.agenWord (.agenx f) f (some (2 ^ f.w.val))

end Sys2Proof.Machine
end

