-- ==== Sys2Proof/Machine/Control.lean ====
section
/-! DEFINITION. Branches, calls, yield, exit and the illegal word (13_execution R234, R237; 02_encoding R31). -/

namespace Sys2Proof.Machine

/-- A branch target: the address of the word plus four times a signed offset (R234, log entry 13). -/
def branchTo (pc : VA) (off : BitVec 20) : VA := pc + off.signExtend 56 * 4

/-- Each listed thread goes to an address. -/
def Group.goTo (g : Group) (ts : List Nat) (f : Nat → VA) : Group := g.mapThreads ts (fun t x => { x with pc := f t })

/-- BR (R234). -/
def execBr (f : LaneBr) (s : State) : Out :=
  .next (s.laneWord (.br f) { guard := laneGuard f.pg f.ng, moves := true } (fun s1 ts _ =>
    s1.setGrp (s1.grp.goTo ts (fun _ => branchTo s.grp.pc f.off))))

/-- The thread goes to a computed target; where that is no multiple of 4 it parks with MISALIGNED at its word (02_encoding
R17). -/
def Group.goToward (g : Group) (x : Thread) (a : VA) : Thread :=
  if a.toNat % 4 = 0 then { x with pc := a }
  else { x with st := .parked, fault := g.threadRec x { cause := .misaligned, addr := a.zeroExtend 64 } }

/-- BRX (R234): a target that is no multiple of 4 parks the thread (02_encoding R17). -/
def execBrx (f : LaneSrc) (s : State) : Out :=
  .next (s.laneWord (.brx f)
    { blocks := blockOf f.a 1, guard := laneGuard f.pg f.ng, srcs := [{ o := f.a, trap := f.ea }], moves := true }
    (fun s1 ts k => s1.setGrp (s1.grp.mapThreads ts (fun t x =>
      s1.grp.goToward x ((s.grp.pc &&& 0xFFFFFF00000000) + (s1.lv k 0 t).zeroExtend 56)))))

/-- Entries of a return stack (R234). -/
def stackDepth : Nat := 16

/-- CALL (R234): a full stack parks the thread. -/
def execCall (f : LaneBr) (s : State) : Out :=
  let pc := s.grp.pc
  .next (s.laneWord (.call f) { guard := laneGuard f.pg f.ng, moves := true } (fun s1 ts _ =>
    s1.setGrp (s1.grp.mapThreads ts (fun _ x =>
      if stackDepth ≤ x.stack.length then
        { x with st := .parked, fault := s1.grp.threadRec x (plainFault .stackOverflow) }
      else { x with stack := (pc + 4) :: x.stack, pc := branchTo pc f.off }))))

/-- RET (R234): an empty stack parks the thread, and so does a return address that is no multiple of 4 (02_encoding R17). -/
def execRet (f : LaneGuard) (s : State) : Out :=
  .next (s.laneWord (.ret f) { guard := laneGuard f.pg f.ng, moves := true } (fun s1 ts _ =>
    s1.setGrp (s1.grp.mapThreads ts (fun _ x =>
      match x.stack with
      | [] => { x with st := .parked, fault := s1.grp.threadRec x (plainFault .stackOverflow) }
      | a :: r => if a.toNat % 4 = 0 then { x with stack := r, pc := a } else s1.grp.goToward x a))))

/-- YIELD (R234): takes effect when some thread's guard is true. -/
def execYield (f : LaneGuard) (s : State) : Out :=
  .next (s.laneWord (.yield f) { guard := laneGuard f.pg f.ng } (fun s1 ts _ =>
    if ts.isEmpty then s1 else s1.setGrp { s1.grp with yielded := some [] }))

/-- NOP (R234). -/
def execNop (f : LaneGuard) (s : State) : Out :=
  .next (s.laneWord (.nop f) { guard := laneGuard f.pg f.ng } (fun s1 _ _ => s1))

/-- GBR (R234). -/
def execGbr (f : GrpBr) (s : State) : Out :=
  .next (s.groupWord (.gbr f) { guard := grpGuard s.grp f.cg f.ng } (fun s1 _ => .jump s1 (branchTo s.grp.pc f.off)))

/-- GLOOP (R234). -/
def execGloop (f : GrpImm) (s : State) : Out :=
  .next (s.groupWord (.gloop f) { srcs := [{ o := f.d }], dest := destOf f.d 1 } (fun s1 v =>
    let n := gv v 0 - 1
    let s2 := s1.writeGroup f.d n
    if n = 0 then .done s2 else .jump s2 (s.grp.pc + f.imm.signExtend 56 * 4)))

/-- The threads whose stacks a group call or return uses: the run, or in trap context the threads of `trapmask`
(log entry 17). -/
def Group.callRun (g : Group) : List Nat :=
  if g.trap then g.threads.keysWhere (fun t _ => g.trapmask.getLsbD t) else g.run

/-- GCALL (R234): a full stack anywhere traps the group. -/
def execGcall (f : GrpBr) (s : State) : Out :=
  let pc := s.grp.pc
  .next (s.groupWord (.gcall f) { guard := grpGuard s.grp f.cg f.ng } (fun s1 _ =>
    let g := s1.grp
    let ts := g.callRun
    if ts.any (fun t => decide (stackDepth ≤ (g.thread t).stack.length)) then .fault (plainFault .stackOverflow)
    else .jump (s1.setGrp (g.mapThreads ts (fun _ x => { x with stack := (pc + 4) :: x.stack }))) (branchTo pc f.off)))

/-- An address among those that a group would return to that is no multiple of 4 (02_encoding R17). -/
def oddTarget (as : List VA) : Option AccFault :=
  (as.find? (fun a => a.toNat % 4 != 0)).map (fun a => { cause := .misaligned, addr := a.zeroExtend 64 })

/-- GRET (R234): an empty stack anywhere traps the group, and so does a return address that is no multiple of 4 (R17). In trap context the handler goes to the lowest thread's address. -/
def execGret (f : GrpGuard) (s : State) : Out :=
  .next (s.groupWord (.gret f) { guard := grpGuard s.grp f.cg f.ng } (fun s1 _ =>
    let g := s1.grp
    let ts := g.callRun
    if ts.any (fun t => (g.thread t).stack.isEmpty) then .fault (plainFault .stackOverflow)
    else
      match oddTarget (ts.map (fun t => (g.thread t).stack.headD 0)) with
      | some f => .fault f
      | none =>
      let popped := g.mapThreads ts (fun _ x => { x with stack := x.stack.tail })
      if g.trap then
        match ts with
        | [] => .fault (plainFault .stackOverflow)
        | t :: _ => .jump (s1.setGrp popped) ((g.thread t).stack.headD 0)
      else .moved (s1.setGrp (g.mapThreads ts (fun _ x => { x with stack := x.stack.tail, pc := x.stack.headD 0 })))))

/-- A word with an unassigned opcode (R31). -/
def execIllegalOpcodeWord (w : BitVec 32) (s : State) : Out := .next (s.rejectWord w .illegalOpcode)

/-! ## Exit (R237) -/

/-- Every thread of a group is EXITED or ABSENT. -/
def Group.allExited (g : Group) : Bool := g.threads.all (fun p => p.2.st == .exited || p.2.st == .absent)

/-- The queues that a group pushes into through links close (07_registers R111). -/
def State.closeLinks (s : State) (k : Nat) : State :=
  (List.range 8).foldl (fun s q =>
    match s.portUse k q with
    | .producer c m =>
      if c = k then s else s.setGroup c ((s.group c).setQueue m { (s.group c).queue m with closed := true })
    | .unlinked => s
    | .consumer => s) s

/-- A group whose threads have all exited frees its slot and registers; its links close and its queues are discarded
(R237, 07_registers R111). -/
def State.freeGroup (s : State) (k : Nat) : State :=
  let s1 := s.closeLinks k
  s1.setGroup k { s1.group k with live := false, queues := [] }

/-- A group whose threads have all exited ends; a team whose threads have all exited begins its end (R237). -/
def State.afterExit (s : State) (k : Nat) : State :=
  let s1 := if (s.group k).allExited then s.freeGroup k else s
  let tk := (s1.group k).team
  let tm := s1.team tk
  if tm.launched ≤ tm.exited then s1.setTeam tk { tm with phase := .ending } else s1

/-- A thread parks with the error that an earlier store recorded (09_access R150). -/
def Thread.takeStoreFault (x : Thread) (r : FaultRec) : Thread := { x with st := .parked, fault := r, storeFault := none }

/-- EXIT (R237): waits until the threads' stores are performed at the scope; a thread with a recorded store error parks. -/
def execExitv (f : LaneExit) (s : State) : Out :=
  .next (s.laneWordM (.exitv f) { guard := fun x => x.pred (Fin.ofNat 8 f.pg.val) } (fun s1 ts _ =>
    if !ts.isEmpty && s1.releaseWaits f.sc true then none
    else
      let s2 := if ts.isEmpty then s1 else s1.beforeRelease f.sc true
      let g := s2.grp
      let out := ts.filter (fun t => (g.thread t).storeFault.isNone)
      let g1 := g.mapThreads ts (fun _ x =>
        match x.storeFault with
        | some r => x.takeStoreFault r
        | none => { x with st := .exited })
      let s3 := s2.setGrp g1
      let tm := s3.team g1.team
      some ((s3.setTeam g1.team
        { tm with exited := tm.exited + out.length, domExit := tm.domExit || (f.sc == .domain && !ts.isEmpty) }).afterExit
          s3.cur)))

end Sys2Proof.Machine
end

