-- ==== Sys2Proof/Machine/Collective.lean ====
section
/-! DEFINITION. Collectives, the group barrier and regions (13_execution R231 to R233, R236; 03_numbers R51). -/

namespace Sys2Proof.Machine

/-! ## Reaching the word -/

/-- The threads that reach a collective read their mask and control registers and enter WAIT; one whose control word has a
reserved bit set parks (R231 to R233). -/
def State.collective (s : State) (i : Instr) (blocks : List (Nat × Nat)) (b : Nat) (also : List Nat) (dest : Dest) : Out :=
  .next (s.laneWord i { blocks := (b, 2) :: blocks, also := [b, b + 1] ++ also, dest := dest } (fun s1 ts _ =>
    s1.setGrp (s1.grp.mapThreads ts (fun _ x =>
      if natField (x.reg (b + 1)).toNat 5 3 = 0 then { x with st := .wait, waitAt := some i }
      else { x with st := .parked, fault := s1.grp.threadRec x (plainFault .reservedField) }))))

/-- SHFI (R233): vd is read first, for the source index. -/
def execShfi (f : LaneColl) (s : State) : Out :=
  s.collective (.shfi f) (blockOf f.d 1 ++ blockOf f.a 1) (regNum f.b) [regNum f.d] (destOf f.d 1)
/-- SHFU (R233). -/
def execShfu (f : LaneColl) (s : State) : Out :=
  s.collective (.shfu f) (blockOf f.d 1 ++ blockOf f.a 1) (regNum f.b) [] (destOf f.d 1)
/-- SHFD (R233). -/
def execShfd (f : LaneColl) (s : State) : Out :=
  s.collective (.shfd f) (blockOf f.d 1 ++ blockOf f.a 1) (regNum f.b) [] (destOf f.d 1)
/-- SHFX (R233). -/
def execShfx (f : LaneColl) (s : State) : Out :=
  s.collective (.shfx f) (blockOf f.d 1 ++ blockOf f.a 1) (regNum f.b) [] (destOf f.d 1)
/-- VOTE (R233). -/
def execVote (f : LaneVote) (s : State) : Out := s.collective (.vote f) [] (regNum f.b) [] .none
/-- BALLOT (R233). -/
def execBallot (f : LaneBallot) (s : State) : Out :=
  s.collective (.ballot f) (blockOf f.d 1) (regNum f.b) [] (destOf f.d 1)
/-- GRED (R233). -/
def execGred (f : LaneGred) (s : State) : Out :=
  s.collective (.gred f) (blockOf f.d 1 ++ blockOf f.a 1) (regNum f.b) [] (destOf f.d 1)
/-- MATCH (R233). -/
def execMatchv (f : LaneColl) (s : State) : Out :=
  s.collective (.matchv f) (blockOf f.d 1 ++ blockOf f.a 1) (regNum f.b) [] (destOf f.d 1)
/-- BAR (R233). -/
def execBarv (f : LaneBar) (s : State) : Out := s.collective (.barv f) [] (regNum f.b) [] .none

/-- REGN (R236): a thread with a recorded store error parks before it (09_access R150). -/
def execRegn (n : BitVec 9) (s : State) : Out :=
  .next (s.laneWord (.regn n) {} (fun s1 ts _ => s1.setGrp (s1.grp.mapThreads ts (fun _ x =>
    match x.storeFault with
    | some r => x.takeStoreFault r
    | none => { x with st := .wait, waitAt := some (.regn n) }))))

/-! ## What a collective word says -/

/-- What happens in a collective run. -/
inductive Exchange where
  | shuffle (kind : Nat) (d : Nat) (v : Fin 8)
  | vote (mode : VoteMode) (pd ps : Fin 8)
  | ballot (d : Nat) (ps : Fin 8)
  | reduce (op : RedOp) (d : Nat)
  | matching (d : Nat) (v : Fin 8)
  | barrier
deriving DecidableEq, Repr

/-- A collective word taken apart: mask register, value register and its trap bit, tag use, exchange. -/
structure CollWord where
  b : Nat
  a : Option (Nat × Bool)
  tg : Bool
  ex : Exchange
deriving DecidableEq, Repr

/-- The collective that a waiting thread stands at. -/
def collOf (i : Instr) : Option CollWord :=
  match i with
  | .shfi f => some ⟨regNum f.b, some (regNum f.a, f.ea), f.tg, .shuffle 0 (regNum f.d) f.v⟩
  | .shfu f => some ⟨regNum f.b, some (regNum f.a, f.ea), f.tg, .shuffle 1 (regNum f.d) f.v⟩
  | .shfd f => some ⟨regNum f.b, some (regNum f.a, f.ea), f.tg, .shuffle 2 (regNum f.d) f.v⟩
  | .shfx f => some ⟨regNum f.b, some (regNum f.a, f.ea), f.tg, .shuffle 3 (regNum f.d) f.v⟩
  | .vote f => some ⟨regNum f.b, none, f.tg, .vote f.mode f.pd f.ps⟩
  | .ballot f => some ⟨regNum f.b, none, f.tg, .ballot (regNum f.d) f.ps⟩
  | .gred f => some ⟨regNum f.b, some (regNum f.a, f.ea), f.tg, .reduce f.op (regNum f.d)⟩
  | .matchv f => some ⟨regNum f.b, some (regNum f.a, f.ea), f.tg, .matching (regNum f.d) f.v⟩
  | .barv f => some ⟨regNum f.b, none, f.tg, .barrier⟩
  | _ => none

/-- The collective at which a thread waits. -/
def Thread.coll (x : Thread) : Option CollWord :=
  match x.st, x.waitAt with
  | .wait, some i => collOf i
  | _, _ => none

/-- The thread waits at a REGN. -/
def Thread.atRegn (x : Thread) : Bool :=
  match x.st, x.waitAt with
  | .wait, some (.regn _) => true
  | _, _ => false

/-- A thread is live: READY or WAIT (R231). -/
def Thread.isLive (x : Thread) : Bool := x.st == .ready || x.st == .wait

/-- The membership mask of a waiting thread. -/
def Group.collMask (g : Group) (c : CollWord) (t : Nat) : W32 := (g.thread t).reg c.b
/-- The iteration tag of a waiting thread. -/
def Group.collTag (g : Group) (c : CollWord) (t : Nat) : Nat := natField ((g.thread t).reg (c.b + 1)).toNat 8 24

/-! ## Exchanges (R233) -/

/-- The operation of a GRED node, with its flags (R51, R131). -/
def redNode (r : Rnd) (op : RedOp) (x y : W32) : W32 × FFlags :=
  match op with
  | .iadd => (x + y, {})
  | .imin => (if x.toInt ≤ y.toInt then x else y, {})
  | .imax => (if y.toInt ≤ x.toInt then x else y, {})
  | .umin => (if x.toNat ≤ y.toNat then x else y, {})
  | .umax => (if y.toNat ≤ x.toNat then x else y, {})
  | .fadd => fadd32 r x y
  | .fmin => (fminmax32 false x y, {})
  | .fmax => (fminmax32 true x y, {})

/-- One level of the tree of R51 over pairs of neighbours. -/
def redLevel (r : Rnd) (op : RedOp) (l : List (Option (W32 × FFlags))) : List (Option (W32 × FFlags)) :=
  match l with
  | x :: y :: rest =>
    (match x, y with
      | none, z => z
      | some a, none => some a
      | some a, some b =>
        let n := redNode r op a.1 b.1
        some (n.1, (a.2.or b.2).or n.2)) :: redLevel r op rest
  | l => l

/-- The result of the tree over 32 leaves, with its flags; none where no thread takes part (R51). -/
def redTree (r : Rnd) (op : RedOp) (leaves : List (Option W32)) : Option (W32 × FFlags) :=
  let l0 := leaves.map (fun x => x.map (fun v => (v, ({} : FFlags))))
  ((redLevel r op (redLevel r op (redLevel r op (redLevel r op (redLevel r op l0))))).headD none)

/-- Source thread of a shuffle: control [4:0] is the delta, or for SHFI vd [4:0] the index. -/
def shuffleSource (kind : Nat) (t d vd : Nat) : Int :=
  if kind = 0 then (vd % 32 : Nat)
  else if kind = 1 then (t : Int) - d
  else if kind = 2 then t + d
  else (t ^^^ d : Nat)

/-- The result of a shuffle for thread `t`: the value and its validity. `ps` are the participants, `value` their va. -/
def Group.shuffled (g : Group) (c : CollWord) (kind vd : Nat) (ps : List Nat) (value : Nat → W32) (t : Nat) : W32 × Bool :=
  let d := natField ((g.thread t).reg (c.b + 1)).toNat 0 5
  let src := shuffleSource kind t d ((g.thread t).reg vd).toNat
  if src < 0 ∨ 31 < src then (value t, false)
  else
    let u := src.toNat
    if ps.contains u then (value u, true)
    else if (g.collMask c t).getLsbD u && !(g.thread u).isLive then (0, false)
    else (value t, false)

/-- The mask of participants that pass a test. -/
def maskWhere (ps : List Nat) (p : Nat → Bool) : W32 := maskOf (ps.filter p)

/-- The exchange of one run, performed for its participants. -/
def Group.exchange (g : Group) (c : CollWord) (ps : List Nat) : Group :=
  let value := fun t => match c.a with
    | some (a, _) => (g.thread t).reg a
    | none => 0
  match c.ex with
  | .shuffle kind d v =>
    g.mapThreads ps (fun t x =>
      let r := g.shuffled c kind d ps value t
      (x.write d r.1).setPred v r.2)
  | .vote mode pd p =>
    let all := ps.all (fun u => (g.thread u).pred p)
    let any := ps.any (fun u => (g.thread u).pred p)
    let r := match mode with
      | .all => all
      | .any => any
      | .uni => all || !any
    g.mapThreads ps (fun _ x => x.setPred pd r)
  | .ballot d p => g.mapThreads ps (fun _ x => x.write d (maskWhere ps (fun u => (g.thread u).pred p)))
  | .reduce op d =>
    match redTree g.rm op (threadIds.map (fun t => if ps.contains t then some (value t) else none)) with
    | none => g
    | some r => (g.raise r.2).mapThreads ps (fun _ x => x.write d r.1)
  | .matching d v =>
    g.mapThreads ps (fun t x =>
      (x.write d (maskWhere ps (fun u => value u == value t))).setPred v (ps.all (fun u => value u == value t)))
  | .barrier => g

/-! ## Forming instances (R231, R232) -/

/-- The verdict of a participant's va at its first read (R232). -/
def Group.valueVerdict (g : Group) (c : CollWord) (t : Nat) : Verdict :=
  match c.a with
  | none => .run
  | some (a, ea) => regVerdict ((g.thread t).regState a) ea

/-- One run: participants whose va cannot be read park before the exchange; the others exchange and go on. -/
def Group.collRun (g : Group) (c : CollWord) (ts : List Nat) : Group :=
  let g1 := g.mapThreads ts (fun t x =>
    match g.valueVerdict c t with
    | .fault f => { x with st := .parked, waitAt := none, fault := g.threadRec x f }
    | .deferred => { x with st := .parked, waitAt := none }
    | .run => x
    | .wait => x)
  let ps := ts.filter (fun t => g.valueVerdict c t == .run)
  (g1.exchange c ps).mapThreads ps (fun _ x => { x with st := .ready, waitAt := none, pc := x.pc + 4 })

/-- The tags of threads, rising, without repeats. -/
def insertTag (t : Nat) (l : List Nat) : List Nat :=
  match l with
  | [] => [t]
  | x :: r => if t = x then l else if t < x then t :: l else x :: insertTag t r

/-- The runs of one instance: one by PC, or one per tag in ascending order (R231). -/
def Group.instanceRuns (g : Group) (c : CollWord) (ts : List Nat) : List (List Nat) :=
  if c.tg then
    (ts.foldl (fun l t => insertTag (g.collTag c t) l) []).map (fun tag => ts.filter (fun t => g.collTag c t == tag))
  else [ts]

/-- The masks of an instance are equal and each names its own thread (R231). -/
def Group.masksAgree (g : Group) (c : CollWord) (ts : List Nat) : Bool :=
  ts.all (fun t => ts.all (fun u => g.collMask c t == g.collMask c u) && (g.collMask c t).getLsbD t)

/-- The threads of a list whose masks share a bit with a mask. -/
def Group.sharing (g : Group) (c : CollWord) (ts : List Nat) (m : W32) : List Nat :=
  ts.filter (fun t => g.collMask c t &&& m != 0)

/-- The union of masks. -/
def Group.maskUnion (g : Group) (c : CollWord) (ts : List Nat) : W32 := ts.foldl (fun m t => m ||| g.collMask c t) 0

/-- Closes a mask under sharing: 32 rounds reach every thread. -/
def Group.closure (g : Group) (c : CollWord) (ts : List Nat) (n : Nat) (m : W32) : W32 :=
  match n with
  | 0 => m
  | k + 1 => g.closure c ts k (m ||| g.maskUnion c (g.sharing c ts m))

/-- The waiting threads at one word divided into instances, by their lowest threads. A thread whose mask is 0 stands alone. -/
def Group.instances (g : Group) (c : CollWord) (n : Nat) (ts : List Nat) : List (List Nat) :=
  match n, ts with
  | 0, _ => []
  | _, [] => []
  | k + 1, t :: r =>
    let m := g.closure c (t :: r) 32 (g.collMask c t)
    let same := t :: r.filter (fun u => g.collMask c u &&& m != 0)
    same :: g.instances c k (r.filter (fun u => !same.contains u))

/-- An instance is performed, or its threads park with MASK_MISMATCH (R231). -/
def Group.performInstance (g : Group) (c : CollWord) (ts : List Nat) : Group :=
  if g.masksAgree c ts then (g.instanceRuns c ts).foldl (fun g r => g.collRun c r) g
  else g.mapThreads ts (fun _ x =>
    { x with st := .parked, waitAt := none, fault := g.threadRec x (plainFault .maskMismatch) })

/-- The threads that wait at the collective at an address. -/
def Group.waitersAt (g : Group) (pc : VA) : List Nat := g.threads.keysWhere (fun _ x => x.coll.isSome && x.pc == pc)

/-- The waiting threads of a collective are gathered: every live thread that a waiting thread's mask names waits there (R231). -/
def Group.gathered (g : Group) (c : CollWord) (ts : List Nat) : Bool :=
  let m := g.maskUnion c ts
  threadIds.all (fun t => !m.getLsbD t || !(g.thread t).isLive || ts.contains t)

/-- The collective at an address can be formed: it is gathered, and no participant's value is awaited (R231, R232). -/
def Group.canForm (g : Group) (c : CollWord) (ts : List Nat) : Bool :=
  g.gathered c ts && ts.all (fun t => g.valueVerdict c t != .wait)

/-- A collective that can be formed: its word and its waiting threads. -/
def Group.formable (g : Group) : Option (CollWord × List Nat) :=
  g.threads.findSome? (fun p =>
    match p.2.coll with
    | none => none
    | some c => if g.canForm c (g.waitersAt p.2.pc) then some (c, g.waitersAt p.2.pc) else none)

/-- Every live thread waits, one of them at a collective, and nothing that a value still to come could change holds it up
(R232). -/
def Group.stuck (g : Group) : Bool :=
  g.threads.all (fun p => p.2.st != .ready) && g.threads.any (fun p => p.2.coll.isSome) &&
    g.threads.all (fun p => match p.2.coll with
      | some c => g.valueVerdict c p.1 != .wait
      | none => true)

/-- COLLECTIVE_FORMATION of group `on.a` (R231, R232). -/
def execCollectiveFormation (s : State) : Out :=
  let k := s.on.a
  let g := s.group k
  if !g.live || !(s.team g.team).runs then .next s
  else
    match g.formable with
    | some (c, ts) => .next (s.setGroup k ((g.instances c 32 ts).foldl (fun g r => g.performInstance c r) g)).fire
    | none =>
      if g.stuck then
        .next (s.setGroup k (g.mapThreads (g.threads.keysWhere (fun _ x => x.coll.isSome)) (fun _ x =>
          { x with st := .parked, waitAt := none, fault := g.threadRec x (plainFault .maskMismatch) }))).fire
      else .next s

/-! ## Regions (R236) -/

/-- A group is settled: every thread is EXITED, ABSENT, PARKED or in WAIT at a REGN. -/
def Group.settled (g : Group) : Bool :=
  g.threads.all (fun p => p.2.st == .exited || p.2.st == .absent || p.2.st == .parked || p.2.atRegn)

/-- The lowest address of a REGN at which threads wait. -/
def Group.lowestRegn (g : Group) : Option (VA × BitVec 9) :=
  g.threads.foldl (fun m p =>
    match p.2.st, p.2.waitAt with
    | .wait, some (.regn n) =>
      (match m with
      | none => some (p.2.pc, n)
      | some x => if p.2.pc.toNat < x.1.toNat then some (p.2.pc, n) else some x)
    | _, _ => m) none

/-- A REGN is performed, once, for every thread that waits there. -/
def Group.performRegn (g : Group) (pc : VA) (n : BitVec 9) : Group :=
  { g with
    regctr := BitVec.ofNat 64 (((g.entriesCount + 1).toNat) * 2 ^ 32 + n.toNat)
    threads := g.threads.mapKV (fun _ x =>
      if x.atRegn && x.pc == pc then { x with entry := pc + 4, pc := pc + 4, st := .ready, waitAt := none } else x) }

/-- REGN_PERFORM of group `on.a` (R236): a settled group reports its parked threads, or performs its lowest REGN. -/
def execRegnPerform (s : State) : Out :=
  let k := s.on.a
  let g := s.group k
  if !g.live || !(s.team g.team).runs || g.trap || g.held || !g.settled then .next s
  else if g.firstParked.isSome then .next (s.enterReport k).fire
  else
    match g.lowestRegn with
    | none => .next s
    | some (pc, n) => .next (s.setGroup k (g.performRegn pc n)).fire

/-! ## The age cap (14_scheduling R252) -/

/-- AGE_CAP: a ready group of age 125 or more issues next. The choice itself changes nothing that a waiting group waits for. -/
def execAgeCap (s : State) : Out :=
  if s.ready s.on.a && decide (125 ≤ s.age s.on.a) then
    .next { s with agenda := .issue s.on.a :: s.agenda, fired := s.fired + 1 }
  else .next s

end Sys2Proof.Machine
end

