-- ==== Sys2Proof/Machine/LaneMem.lean ====
section
/-! DEFINITION. Lane loads, stores, atomics and prefetch (09_access R144 to R156), and the completion of long-latency
operations (07_registers R101, R102). -/

namespace Sys2Proof.Machine

/-! ## Outstanding operations -/

/-- A number that no outstanding operation of the group has. -/
def Group.freshOp (g : Group) : Nat := g.ops.foldl (fun n o => max n (o.id + 1)) 0

/-- Registers of listed threads become PENDING (R102). -/
def Group.setPending (g : Group) (ts regs : List Nat) : Group :=
  g.mapThreads ts (fun _ x => regs.foldl (fun x r => x.setState r .pending) x)

/-- An operation is outstanding. -/
def Group.addOp (g : Group) (ps : List Piece) : Group :=
  if ps.isEmpty then g else { g with ops := g.ops ++ [{ id := g.freshOp, pieces := ps }] }

/-- A vector register becomes FAULTED; the first such fault is the thread's record (R101). -/
def Thread.faultReg (x : Thread) (regs : List Nat) (r : FaultRec) : Thread :=
  { x with vst := regs.foldl (fun m k => m.set k .faulted) x.vst, fault := if x.fault.v then x.fault else r }

/-- A group register becomes FAULTED. -/
def Group.faultReg (g : Group) (regs : List Nat) (r : FaultRec) : Group :=
  { g with gst := regs.foldl (fun m k => m.set k .faulted) g.gst, fault := if g.fault.v then g.fault else r }

/-- A piece completes: its registers become FULL with their values, or FAULTED (R102). -/
def Group.completePiece (g : Group) (p : Piece) : Group :=
  let regs := p.regs.map (·.1)
  if p.t = 32 then
    match p.fault with
    | some r => g.faultReg regs r
    | none => p.regs.foldl (fun g v => g.write v.1 v.2) g
  else
    match p.fault with
    | some r => g.setThread p.t ((g.thread p.t).faultReg regs r)
    | none => g.setThread p.t (p.regs.foldl (fun x v => x.write v.1 (v.2.truncate 32)) (g.thread p.t))

/-- The piece is here, and the event names it: a thread's piece by its bit, a group's always. -/
def Piece.named (p : Piece) (mask : BitVec 32) : Bool := p.ready && (p.t == 32 || mask.getLsbD p.t)

/-- LONG_LATENCY_COMPLETE (R102): the pieces of operation `op` of group `g` that the mask names complete. -/
def execLongLatencyComplete (g op : Nat) (mask : BitVec 32) (s : State) : Out :=
  let x := s.group g
  match x.ops.find? (fun o => o.id == op) with
  | none => .next s
  | some o =>
    let due := o.pieces.filter (fun p => p.named mask)
    let rest := o.pieces.filter (fun p => !p.named mask)
    if due.isEmpty then .next s
    else
      let ops := if rest.isEmpty then x.ops.filter (fun y => y.id != op)
        else x.ops.map (fun y => if y.id = op then { y with pieces := rest } else y)
      .next (s.setGroup g (due.foldl Group.completePiece { x with ops := ops })).fire

/-! ## Shapes -/

/-- A guard of the LM format (02_encoding R19). -/
def lmGuard (pg : Fin 4) (x : Thread) : Bool := x.pred (Fin.ofNat 8 pg.val)

/-- Registers that hold `n` bytes. -/
def regsOf (n : Nat) : Nat := if n ≤ 4 then 1 else n / 4

/-- 32-bit words of bytes: a short one is zero-extended. -/
def wordsOf (n : Nat) (bs : List Byte) : List W32 :=
  (List.range (regsOf n)).map (fun i => BitVec.ofNat 32 (leValue ((bs.drop (4 * i)).take 4)))

/-- The numbers from `d` on. -/
def regList (d n : Nat) : List Nat := (List.range n).map (fun i => d + i)

/-- A record that a FAULTED register delivers: DEF 1 and the register (15_faults R259). -/
def Group.deferredRec (g : Group) (x : Thread) (f : AccFault) (d : Nat) : FaultRec :=
  { g.threadRec x f with deferred := true, reg := BitVec.ofNat 6 d }

/-- The record of a deferred fault of a group word. -/
def Group.deferredOwn (g : Group) (f : AccFault) (d : Nat) : FaultRec :=
  { faultRec f g.pc 0 g.entriesCount with deferred := true, grp := true, reg := BitVec.ofNat 6 d }

/-- Effective address of the sized forms (R145). -/
def State.laneEa (s : State) (a : W32) (off : Int) : W64 := s.grp.abase + a.zeroExtend 64 + w64OfInt off

/-! ## Loads -/

/-- The loads of the executing threads in ascending order: the pieces they will receive (R149, R152). -/
def State.laneLoads (s : State) (d n : Nat) (home : Bool) (ea : Nat → W64) (ts : List Nat) : State × List Piece :=
  match ts with
  | [] => (s, [])
  | t :: r =>
    let g := s.grp
    let x := s.performLoad s.curCore s.curVd (ea t) n home
    let p : Piece := match x.2 with
      | .ok bs => { t := t, regs := (regList d (regsOf n)).zip ((wordsOf n bs).map (·.zeroExtend 64)) }
      | .error f =>
        { t := t, regs := (regList d (regsOf n)).map (fun k => (k, 0)),
          fault := some (g.deferredRec (g.thread t) f d) }
    let y := State.laneLoads x.1 d n home ea r
    (y.1, p :: y.2)

/-- A lane load: `ea` gives each thread's address. -/
def State.laneLoad (s : State) (i : Instr) (w : LaneWord) (d n : Nat) (home : Bool)
    (ea : State → List Taken → Nat → W64) : Out :=
  .next (s.laneWordM i { w with dest := .regs d (regsOf n), counts := true } (fun s1 ts ks =>
    if ts.any (fun t => s1.blocked s1.curCore s1.curVd (ea s1 ks t) n .load home) then none
    else
      let r := s1.laneLoads d n home (ea s1 ks) ts
      some (r.1.setGrp ((r.1.grp.setPending ts (regList d (regsOf n))).addOp r.2))))

/-- A sized load (R152). -/
def State.sizedLoad (s : State) (i : Instr) (f : LaneMem) (n : Nat) : Out :=
  s.laneLoad i
    { blocks := blockOf f.d (regsOf n) ++ blockOf f.a 1, guard := lmGuard f.pg, srcs := [{ o := f.a }] }
    (regNum f.d) n (atHome f.sc f.st) (fun s1 ks t => s1.laneEa (s1.lv ks 0 t) (f.off.toInt * n))

/-- LD8 (R152). -/
def execLd8 (f : LaneMem) (s : State) : Out := s.sizedLoad (.ld8 f) f 1
/-- LD16 (R152). -/
def execLd16 (f : LaneMem) (s : State) : Out := s.sizedLoad (.ld16 f) f 2
/-- LD32 (R152). -/
def execLd32 (f : LaneMem) (s : State) : Out := s.sizedLoad (.ld32 f) f 4
/-- LD64 (R152). -/
def execLd64 (f : LaneMem) (s : State) : Out := s.sizedLoad (.ld64 f) f 8
/-- LD128 (R152). -/
def execLd128 (f : LaneMem) (s : State) : Out := s.sizedLoad (.ld128 f) f 16

/-- Effective address of LDX and STX (R145, R153). -/
def State.indexEa (s : State) (a b : W32) : W64 := s.grp.abase + a.zeroExtend 64 + b.zeroExtend 64 * 4

/-- LDX (R153). -/
def execLdx (f : LaneMemIdx) (s : State) : Out :=
  s.laneLoad (.ldx f)
    { blocks := blockOf f.d 1 ++ blockOf f.a 1 ++ blockOf f.b 1, guard := lmGuard f.pg,
      srcs := [{ o := f.a }, { o := f.b }] }
    (regNum f.d) 4 (atHome f.sc f.st) (fun s1 ks t => s1.indexEa (s1.lv ks 0 t) (s1.lv ks 1 t))

/-! ## Stores -/

/-- A thread's store that failed: parked at once, or at its next REGN or EXIT (R150). -/
def State.storeEnded (s : State) (t : Nat) (r : StoreEnd) : State :=
  match r with
  | .stored => s
  | .bad f => s.setGrp { s.grp.parkThread t f with trappc := s.grp.pc }
  | .late f =>
    let x := s.grp.thread t
    let r := s.grp.threadRec x f
    s.setGrp (s.grp.setThread t { x with storeFault := some r, fault := if x.fault.v then x.fault else r })

/-- The stores of the executing threads in ascending order: the highest index wins (R152). -/
def State.laneStores (s : State) (home : Bool) (ea : Nat → W64) (data : Nat → List Byte) (ts : List Nat) : State :=
  match ts with
  | [] => s
  | t :: r =>
    let x := s.performStore s.curCore s.curVd (ea t) (data t) home
    State.laneStores (x.1.storeEnded t x.2) home ea data r

/-- A lane store. -/
def State.laneStore (s : State) (i : Instr) (w : LaneWord) (n : Nat) (sc : Scope) (st : Strength)
    (ea : State → List Taken → Nat → W64) (data : State → List Taken → Nat → List Byte) : Out :=
  .next (s.laneWordM i { w with counts := true } (fun s1 ts ks =>
    if s1.orderWaits sc (st != .plain) (st == .release) ||
        ts.any (fun t => s1.blocked s1.curCore s1.curVd (ea s1 ks t) n .store (atHome sc st)) then none
    else some ((s1.beforeRelease sc (st == .release)).laneStores (atHome sc st) (ea s1 ks) (data s1 ks) ts)))

/-- The bytes of a thread's block of registers (R152). -/
def Thread.blockBytes (x : Thread) (d n : Nat) : List Byte := (regList d (regsOf n)).flatMap (fun r => leBytes 4 (x.reg r).toNat)

/-- A sized store (R152): a single register or a queue port is a source after va; a pair or block is read besides. -/
def State.sizedStore (s : State) (i : Instr) (f : LaneMem) (n : Nat) : Out :=
  let d := regNum f.d
  s.laneStore i
    { blocks := blockOf f.d (regsOf n) ++ blockOf f.a 1, guard := lmGuard f.pg,
      srcs := if n ≤ 4 then [{ o := f.a }, { o := f.d }] else [{ o := f.a }],
      also := if n ≤ 4 then [] else regList d (regsOf n) }
    n f.sc f.st (fun s1 ks t => s1.laneEa (s1.lv ks 0 t) (f.off.toInt * n))
    (fun s1 ks t => if n ≤ 4 then leBytes n (s1.lv ks 1 t).toNat else (s1.grp.thread t).blockBytes d n)

/-- ST8 (R152). -/
def execSt8 (f : LaneMem) (s : State) : Out := s.sizedStore (.st8 f) f 1
/-- ST16 (R152). -/
def execSt16 (f : LaneMem) (s : State) : Out := s.sizedStore (.st16 f) f 2
/-- ST32 (R152). -/
def execSt32 (f : LaneMem) (s : State) : Out := s.sizedStore (.st32 f) f 4
/-- ST64 (R152). -/
def execSt64 (f : LaneMem) (s : State) : Out := s.sizedStore (.st64 f) f 8
/-- ST128 (R152). -/
def execSt128 (f : LaneMem) (s : State) : Out := s.sizedStore (.st128 f) f 16

/-- STX (R153). -/
def execStx (f : LaneMemIdx) (s : State) : Out :=
  s.laneStore (.stx f)
    { blocks := blockOf f.d 1 ++ blockOf f.a 1 ++ blockOf f.b 1, guard := lmGuard f.pg,
      srcs := [{ o := f.a }, { o := f.b }, { o := f.d }] }
    4 f.sc f.st (fun s1 ks t => s1.indexEa (s1.lv ks 0 t) (s1.lv ks 1 t)) (fun s1 ks t => leBytes 4 (s1.lv ks 2 t).toNat)

/-! ## Atomics (R154, R155) -/

/-- An atomic with this strength releases: release, and the acquire-release that code 0 is on an atomic (R20, R148). -/
def atomReleases (st : Strength) : Bool := st == .plain || st == .release

/-- The atomics of the executing threads in ascending order. -/
def State.laneAtomics (s : State) (op : AtomOp) (d : Nat) (ea : Nat → W64) (b nv : Nat → W32) (ts : List Nat) :
    State × List Piece :=
  match ts with
  | [] => (s, [])
  | t :: r =>
    let g := s.grp
    let x := s.performAtomic s.curCore s.curVd (ea t) 4 (simpleOp op)
      (fun old => atomNew op 32 old (b t).toNat (nv t).toNat)
    let p : Piece := match x.2 with
      | .ok old => { t := t, regs := [(d, BitVec.ofNat 64 old)] }
      | .error f => { t := t, regs := [(d, 0)], fault := some (g.deferredRec (g.thread t) f d) }
    let y := State.laneAtomics x.1 op d ea b nv r
    (y.1, p :: y.2)

/-- A lane atomic. -/
def State.laneAtomic (s : State) (i : Instr) (f : LaneMemIdx) (op : AtomOp) : Out :=
  let d := regNum f.d
  .next (s.laneWordM i
    { blocks := blockOf f.d 1 ++ blockOf f.a 1 ++ blockOf f.b 1, guard := lmGuard f.pg,
      srcs := [{ o := f.a }, { o := f.b }], also := if op = .cas then [d] else [],
      dest := .regs d 1, counts := true }
    (fun s1 ts ks =>
      let ea := fun t => s1.laneEa (s1.lv ks 0 t) 0
      if s1.orderWaits f.sc true (atomReleases f.st) ||
          ts.any (fun t => s1.blocked s1.curCore s1.curVd (ea t) 4 .atomic true) then none
      else
        let r := (s1.beforeRelease f.sc (atomReleases f.st)).laneAtomics op d ea
          (fun t => s1.lv ks 1 t) (fun t => (s1.grp.thread t).reg d) ts
        some (r.1.setGrp ((r.1.grp.setPending ts [d]).addOp r.2))))

/-- AADD (R154). -/
def execAadd (f : LaneMemIdx) (s : State) : Out := s.laneAtomic (.aadd f) f .add
/-- AMIN (R154). -/
def execAmin (f : LaneMemIdx) (s : State) : Out := s.laneAtomic (.amin f) f .smin
/-- AMAX (R154). -/
def execAmax (f : LaneMemIdx) (s : State) : Out := s.laneAtomic (.amax f) f .smax
/-- AUMIN (R154). -/
def execAumin (f : LaneMemIdx) (s : State) : Out := s.laneAtomic (.aumin f) f .umin
/-- AUMAX (R154). -/
def execAumax (f : LaneMemIdx) (s : State) : Out := s.laneAtomic (.aumax f) f .umax
/-- AAND (R154). -/
def execAand (f : LaneMemIdx) (s : State) : Out := s.laneAtomic (.aand f) f .and
/-- AOR (R154). -/
def execAor (f : LaneMemIdx) (s : State) : Out := s.laneAtomic (.aor f) f .or
/-- AXOR (R154). -/
def execAxor (f : LaneMemIdx) (s : State) : Out := s.laneAtomic (.axor f) f .xor
/-- AXCH (R154). -/
def execAxch (f : LaneMemIdx) (s : State) : Out := s.laneAtomic (.axch f) f .xch
/-- ACAS (R154): vd on entry is the new value. -/
def execAcas (f : LaneMemIdx) (s : State) : Out := s.laneAtomic (.acas f) f .cas
/-- AFADD (R154): always in RN, no flag. -/
def execAfadd (f : LaneMemIdx) (s : State) : Out := s.laneAtomic (.afadd f) f .fadd

/-! ## Prefetch (R156) -/

/-- PREF. -/
def execPref (f : LanePref) (s : State) : Out :=
  .next (s.laneWord (.pref f) { blocks := blockOf f.a 1, guard := lmGuard f.pg, srcs := [{ o := f.a }] }
    (fun s1 ts ks => ts.foldl (fun s t =>
      s.prefetch s.curCore s.curVd (s1.laneEa (s1.lv ks 0 t) (f.off.toInt * 128))) s1))

end Sys2Proof.Machine
end

