-- ==== Sys2Proof/Machine/GroupMem.lean ====
section
/-! DEFINITION. Group loads, stores, atomics and prefetch (09_access R145, R149, R150, R157 to R159). -/

namespace Sys2Proof.Machine

/-- The group's register becomes PENDING for an operation of its own (R102). -/
def State.groupPends (s : State) (d : Nat) (p : Piece) : State := s.setGrp ((s.grp.setState d .pending).addOp [p])

/-- What a group's load or atomic will receive. -/
def State.ownPiece (s : State) (d : Nat) (r : Except AccFault Nat) : Piece :=
  match r with
  | .ok v => { t := 32, regs := [(d, BitVec.ofNat 64 v)] }
  | .error f => { t := 32, regs := [(d, 0)], fault := some (s.grp.deferredOwn f d) }

/-- A group load of `n` bytes (R157). -/
def State.groupLoad (s : State) (i : Instr) (f : GrpMem) (n : Nat) : Out :=
  let d := regNum f.d
  let home := atHome f.sc f.st
  .next (s.groupWord i { srcs := [{ o := f.a }, { o := f.b }], dest := .regs d 1, counts := true }
    (fun s1 v =>
      let ea := gv v 0 + gv v 1
      if s1.blocked s1.curCore s1.curVd ea n .load home then .wait
      else
        let r := s1.performLoad s1.curCore s1.curVd ea n home
        .done (r.1.groupPends d (r.1.ownPiece d (match r.2 with
          | .ok bs => .ok (leValue bs)
          | .error e => .error e)))))

/-- GLD32 (R157). -/
def execGld32 (f : GrpMem) (s : State) : Out := s.groupLoad (.gld32 f) f 4
/-- GLD64 (R157). -/
def execGld64 (f : GrpMem) (s : State) : Out := s.groupLoad (.gld64 f) f 8

/-- A group store of `n` bytes (R157): a failed check, or a partial write to an uncorrectable granule, traps the group. -/
def State.groupStore (s : State) (i : Instr) (f : GrpMem) (n : Nat) : Out :=
  let home := atHome f.sc f.st
  .next (s.groupWord i { srcs := [{ o := f.a }, { o := f.b }, { o := f.d }] }
    (fun s1 v =>
      let ea := gv v 0 + gv v 1
      if s1.orderWaits f.sc (f.st != .plain) (f.st == .release) || s1.blocked s1.curCore s1.curVd ea n .store home then .wait
      else
        let r := (s1.beforeRelease f.sc (f.st == .release)).performStore s1.curCore s1.curVd ea
          (leBytes n (gv v 2).toNat) home
        match r.2 with
        | .stored => .done r.1
        | .bad e => .fault e
        | .late e => .fault e))

/-- GST32 (R157). -/
def execGst32 (f : GrpMem) (s : State) : Out := s.groupStore (.gst32 f) f 4
/-- GST64 (R157). -/
def execGst64 (f : GrpMem) (s : State) : Out := s.groupStore (.gst64 f) f 8

/-- GATOM (R158): gd on entry is the new value of a compare-and-swap. -/
def execGatom (f : GrpAtom) (s : State) : Out :=
  let d := regNum f.d
  .next (s.groupWord (.gatom f)
    { srcs := [{ o := f.a }, { o := f.b }], also := if f.op = .cas then [d] else [], dest := .regs d 1, counts := true }
    (fun s1 v =>
      if s1.orderWaits .device true (atomReleases f.st) ||
          s1.blocked s1.curCore s1.curVd (gv v 0) 8 .atomic true then .wait
      else
        let r := (s1.beforeRelease .device (atomReleases f.st)).performAtomic s1.curCore s1.curVd (gv v 0) 8
          (simpleOp f.op) (fun old => atomNew f.op 64 old (gv v 1).toNat (s1.grp.reg d).toNat)
        .done (r.1.groupPends d (r.1.ownPiece d r.2))))

/-- GPREF (R159). -/
def execGpref (f : GrpTwo) (s : State) : Out :=
  .next (s.groupWord (.gpref f) { srcs := [{ o := f.a }, { o := f.b }] }
    (fun s1 v => .done (s1.prefetch s1.curCore s1.curVd (gv v 0 + gv v 1))))

end Sys2Proof.Machine
end

