-- ==== Sys2Proof/Machine/Patterns.lean ====
section
/-! DEFINITION. The job grid, coordinate patterns, windows, and the checks at the source of a remote word
(11_fabric R185 to R188, R348, R393). -/

namespace Sys2Proof.Machine

/-! ## The grid (R185) -/

/-- Sizes of the axes in use; none while the fabric is off. -/
def VDev.axes (v : VDev) : List Nat :=
  let n := v.fabGrid.field 32 3
  let sizes := (List.range n).map (fun a => v.fabGrid.field (6 * a) 6 + 1)
  if 1 ≤ n ∧ n ≤ 5 ∧ v.fabGrid.field (6 * n) (30 - 6 * n) = 0 ∧ sizes.foldl (· * ·) 1 ≤ 4096 then sizes else []

/-- GRID of a virtual device. -/
def VDev.gridId (v : VDev) : Nat := v.fabGrid.field 48 16

/-- The fabric is on. -/
def VDev.fabricOn (v : VDev) : Bool := !v.axes.isEmpty

/-! ## Patterns (R186) -/

/-- LO of an axis. -/
def patLo (p : W64) (a : Nat) : Nat := p.field (12 * a) 6
/-- HI of an axis. -/
def patHi (p : W64) (a : Nat) : Nat := p.field (12 * a + 6) 6

/-- The pattern is valid in a grid. -/
def patOk (axes : List Nat) (p : W64) : Bool :=
  p.field 60 4 == 0 &&
    (List.range 5).all (fun a =>
      match axes[a]? with
      | some n => decide (patLo p a ≤ patHi p a) && decide (patHi p a < n)
      | none => p.field (12 * a) 12 == 0)

/-- The derived count. -/
def patCount (axes : List Nat) (p : W64) : Nat :=
  (List.range axes.length).foldl (fun n a => n * (patHi p a - patLo p a + 1)) 1

/-- The pattern names one coordinate on every axis. -/
def patExact (axes : List Nat) (p : W64) : Bool := (List.range axes.length).all (fun a => patLo p a == patHi p a)

/-- Linearised index (03_numbers R50): axis 0 varies fastest. -/
def linearFrom (axes : List Nat) (f : Nat → Nat) (a stride : Nat) : Nat :=
  match axes with
  | [] => 0
  | n :: r => f a * stride + linearFrom r f (a + 1) (stride * n)

/-- Linearised index of the lowest coordinate of a pattern. -/
def patIndex (axes : List Nat) (p : W64) : Nat := linearFrom axes (patLo p) 0 1

/-- Axis values of a linearised index. -/
def coordsOf (axes : List Nat) (i : Nat) : List Nat :=
  match axes with
  | [] => []
  | n :: r => i % n :: coordsOf r (i / n)

/-- The exact pattern of axis values, from axis `a` on. -/
def exactFrom (cs : List Nat) (a : Nat) : Nat :=
  match cs with
  | [] => 0
  | c :: r => (c * 64 + c) * 2 ^ (12 * a) + exactFrom r (a + 1)

/-- The exact pattern of a linearised index. -/
def patOf (axes : List Nat) (i : Nat) : W64 := BitVec.ofNat 64 (exactFrom (coordsOf axes i) 0)

/-- Devices of the grid. -/
def gridTotal (axes : List Nat) : Nat := axes.foldl (· * ·) 1

/-- A coordinate, by its linearised index, lies within a pattern. -/
def patWithin (axes : List Nat) (p : W64) (i : Nat) : Bool :=
  let cs := coordsOf axes i
  (List.range axes.length).all (fun a => decide (patLo p a ≤ cs.getD a 0) && decide (cs.getD a 0 ≤ patHi p a))

/-- The coordinates within a pattern, ascending. -/
def patCoords (axes : List Nat) (p : W64) : List Nat :=
  if patExact axes p then [patIndex axes p] else (List.range (gridTotal axes)).filter (patWithin axes p)

/-- The device's own linearised index. -/
def VDev.ownIndex (v : VDev) : Nat := patIndex v.axes v.fabCoord

/-! ## Window entries (R187) -/

/-- The four words of an entry of a table in device memory. -/
def State.entryWords (s : State) (pa : Nat) : List W64 := (List.range 4).map (fun i => s.readPte (pa + 8 * i))

/-- Physical address of a window entry. -/
def VDev.windowAt (v : VDev) (h : Nat) : Nat := v.fabWtab.field 16 40 * 2 ^ 16 + 32 * h

/-- The entry of a handle as the core's cluster sees it: cached, or at the home; none where it is uncorrectable. -/
def State.windowEntry (s : State) (core vd h : Nat) : Option (List W64) :=
  match (s.cluster (clusterOf core)).windows.find? (fun w => w.1 == vd && w.2.1 == h) with
  | some w => some w.2.2
  | none =>
    let pa := (s.vdev vd).windowAt h
    if s.poisoned pa 32 then none else some (s.entryWords pa)

/-- The cluster holds the entry that it has read: 256 at most. With the fabric off, or a handle above WMAX, none is read (R185, R188). -/
def State.keepWindow (s : State) (core vd h : Nat) : State :=
  let c := clusterOf core
  let x := s.cluster c
  if !(s.vdev vd).fabricOn || decide ((s.vdev vd).fabWtab.field 0 16 < h) then s
  else if x.windows.any (fun w => w.1 == vd && w.2.1 == h) then s
  else
    match s.windowEntry core vd h with
    | none => s
    | some ws => s.setCluster c { x with windows := ((vd, h, ws) :: x.windows).take 256 }

/-- The `n`-th word of an entry. -/
def entryWord (ws : List W64) (n : Nat) : W64 := ws.getD n 0
/-- KIND. -/
def entryKind (ws : List W64) : Nat := (entryWord ws 0).field 60 3
/-- The permission bit is set: RD 59, WR 58, AT 57, MC 56, RED 55. A POOL window permits neither MC nor RED. -/
def entryPerm (ws : List W64) (b : Nat) : Bool :=
  (entryWord ws 0).bit b && !(entryKind ws == 1 && (b == 56 || b == 55))
/-- KEY. -/
def entryKey (ws : List W64) : Nat := (entryWord ws 0).field 0 32
/-- TMO in microseconds. -/
def windowTmo (ws : List W64) : Nat :=
  let t := (entryWord ws 0).field 47 8
  if t = 0 then 20 else t
/-- An entry without reserved values. -/
def windowOk (ws : List W64) : Bool :=
  (entryWord ws 0).bit 63 && decide (entryKind ws ≤ 3) && decide ((entryWord ws 0).field 47 8 ≤ 200) &&
    (entryWord ws 0).field 32 15 == 0 && (entryWord ws 2).field 48 16 == 0

/-! ## Source checks (R188) -/

/-- What a remote word asks of its window. -/
structure WinUse where
  /-- permission bit -/
  perm : Nat
  /-- KINDs that it may use: 0 PEER, 1 POOL, 2 BIN, 3 SIGNAL -/
  kinds : List Nat := [0, 1]
  /-- one target only -/
  single : Bool := false
  /-- access size -/
  size : Nat
  /-- the word writes -/
  wr : Bool := false
  /-- RRST: its destination pattern; the pattern proper is then the contributors' -/
  dest : Option W64 := none
deriving DecidableEq, Repr

/-- Where a checked request goes. -/
structure Target where
  ws : List W64
  /-- pattern that the request carries -/
  pat : W64
  /-- linearised targets; [4096] for a pool -/
  coords : List Nat
  /-- OFFSET carried -/
  off : Nat
deriving DecidableEq, Repr

/-- Patterns of a checked word are in order (step 2). -/
def patternsOk (v : VDev) (ws : List W64) (pat : W64) (u : WinUse) : Bool :=
  entryKind ws == 1 ||
    (patOk v.axes pat && (!u.single || patCount v.axes pat == 1) &&
      (match u.dest with
        | none => true
        | some d => patOk v.axes d && patExact v.axes d && patWithin v.axes pat v.ownIndex))

/-- Targets of a checked word. -/
def targetsOf (v : VDev) (ws : List W64) (pat : W64) (u : WinUse) : List Nat :=
  if entryKind ws = 1 then [4096]
  else
    match u.dest with
    | none => patCoords v.axes pat
    | some d => [patIndex v.axes d]

/-- The checks of a remote word at its source, in order: `pat` none takes the entry's PAT. `addr` is the fault's address. -/
def State.sourceCheck (s : State) (core vd h : Nat) (pat : Option W64) (off : Int) (addr : W64) (u : WinUse) :
    Except AccFault Target :=
  let v := s.vdev vd
  let f : AccFault := { addr := addr, wr := u.wr, rmt := true }
  if !v.fabricOn || decide (v.fabWtab.field 0 16 < h) then .error { f with cause := .windowInvalid }
  else
    match s.windowEntry core vd h with
    | none => .error { f with cause := .uncorrectable }
    | some ws =>
      let p := pat.getD (entryWord ws 3)
      let base := (entryWord ws 1).field 0 48
      let multi := entryKind ws != 1 && u.dest.isNone && decide (1 < patCount v.axes p)
      if !windowOk ws then .error { f with cause := .windowInvalid }
      else if !patternsOk v ws p u then .error { f with cause := .patternInvalid }
      else if !entryPerm ws u.perm || (multi && !entryPerm ws 56) || !u.kinds.contains (entryKind ws) then
        .error { f with cause := .windowPerm }
      else if off % u.size ≠ 0 then .error { f with cause := .misaligned }
      else if off < 0 ∨ (entryWord ws 2).field 0 48 < off + u.size ∨ 2 ^ 48 < base + off + u.size then
        .error { f with cause := .windowBounds }
      else .ok { ws := ws, pat := u.dest.getD p, coords := targetsOf v ws p u, off := base + off.toNat }

/-! ## WSEL, COORD -/

/-- WSEL (R393): steps 1 and 2 of R188, then the two CSRs. -/
def execWsel (a b : Opnd) (dp : Bool) (s : State) : Out :=
  .next (s.groupWord (.unlisted (.wsel a b dp)) { srcs := if dp then [{ o := a }] else [{ o := a }, { o := b }] }
    (fun s1 vs =>
      let ga := gv vs 0
      let v := s1.vdev s1.curVd
      let h := ga.field 48 16
      let f : AccFault := { addr := ga, rmt := true }
      if !v.fabricOn || decide (v.fabWtab.field 0 16 < h) then .fault { f with cause := .windowInvalid }
      else
        match s1.windowEntry s1.curCore s1.curVd h with
        | none => .fault { f with cause := .uncorrectable }
        | some ws =>
          let p := if dp then entryWord ws 3 else gv vs 1
          if !windowOk ws then .fault { f with cause := .windowInvalid }
          else if entryKind ws != 1 && !patOk v.axes p then .fault { f with cause := .patternInvalid }
          else
            let s2 := s1.keepWindow s1.curCore s1.curVd h
            .done (s2.setGrp { s2.grp with wsel := ga, wpat := p })))

/-- What COORD returns (R348), or PATTERN_INVALID. -/
def VDev.coordValue (v : VDev) (sel : Nat) (a : W64) : Option W64 :=
  let n (x : Nat) : W64 := BitVec.ofNat 64 x
  if sel = 0 then some v.fabCoord
  else if sel = 1 then some (n (v.fabGrid.field 0 35))
  else if sel = 2 then some (n v.ownIndex)
  else if sel = 3 then (if patOk v.axes a && patExact v.axes a then some (n (patIndex v.axes a)) else none)
  else if sel = 4 then (if a.toNat < gridTotal v.axes then some (patOf v.axes a.toNat) else none)
  else (if patOk v.axes a then some (n (patCount v.axes a)) else none)

/-- COORD (R348). -/
def execCoord (d a : Opnd) (sel : Fin 8) (s : State) : Out :=
  .next (s.groupWord (.unlisted (.coord d a sel))
    { srcs := if sel.val < 3 then [] else [{ o := a }], dest := destOf d 1 } (fun s1 vs =>
      match (s1.vdev s1.curVd).coordValue sel.val (gv vs 0) with
      | some x => .done (s1.writeGroup d x)
      | none => .fault { cause := .patternInvalid }))

end Sys2Proof.Machine
end

