-- ==== Sys2Proof/Machine/Fabric.lean ====
section
/-! DEFINITION. Requests sent over the fabric and their replies: ports, tags, time-outs, the remote error record
(11_fabric R184, R196, R197, R202, R203). -/

namespace Sys2Proof.Machine

/-! ## Groups of saved teams -/

/-- Rewrites a group wherever it is: resident, or in the saved team that holds it (R203). -/
def State.updGroup (s : State) (k : Nat) (f : Group → Group) : State :=
  if (s.groups.find k).isSome then s.setGroup k (f (s.group k))
  else
    { s with vdevs := s.vdevs.mapKV (fun _ v =>
        { v with saved := v.saved.mapKV (fun _ t =>
            match t.groups.find k with
            | none => t
            | some g => { t with groups := t.groups.set k (f g) }) }) }

/-! ## Ports (R184, R199, R200) -/

/-- A port. -/
def State.port (s : State) (p : Nat) : Port := s.ports.get p {}
/-- Writes a port. -/
def State.setPort (s : State) (p : Nat) (x : Port) : State := { s with ports := s.ports.set p x }
/-- Ports in service, ascending. -/
def State.portsUp (s : State) : List Nat := (List.range 16).filter (fun p => (s.port p).up && !(s.port p).locked)
/-- The virtual channel whose buffers carry a channel after the folds made: MGT into SIG, BULK into REQ, ATM into REQ. -/
def Port.channel (p : Port) (vc : Nat) : Nat :=
  if vc = 5 ∧ 1 ≤ p.folds then 3 else if vc = 4 ∧ 2 ≤ p.folds then 0 else if vc = 2 ∧ 3 ≤ p.folds then 0 else vc

/-- The port that a request uses, if it can be sent now: some port is in service, none is draining, and the port's channel is
not paused. -/
def State.sendPort (s : State) (t : Target) (vd vc : Nat) : Option Nat :=
  let up := s.portsUp
  let l := if entryKind t.ws = 1 then 0 else patIndex (s.vdev vd).axes t.pat
  if up.isEmpty || s.ports.any (fun p => p.2.draining.isSome) then none
  else
    let p := up.getD ((l + t.off / 64) % up.length) 0
    if (s.port p).paused.contains ((s.port p).channel vc) then none else some p

/-! ## Packets and flits (R198, R199, R201) -/

/-- Port cycles of one unit of LIFE: 64 ns (R196, 18_platform R306). -/
def lifeCycles : Nat := 80
/-- LIFE units with which a packet starts. -/
def lifeStart : Nat := 4095

/-- LIFE that a packet has left at a port time: the nodes that it crosses take their dwell time from it (R196). -/
def SentPkt.life (p : SentPkt) (now : Nat) : Nat := lifeStart - (now - p.sentAt) / lifeCycles

/-- Payload bytes of a packet, over all its flits. -/
def SentPkt.payload (p : SentPkt) : List Byte := p.words.flatMap (fun w => leBytes 8 w.toNat) ++ p.data

/-- Payload bytes that one flit carries. -/
def flitPayload : Nat := 232

/-- Flits that so many payload bytes take. -/
def flitsFor (n : Nat) : Nat := max 1 ((n + flitPayload - 1) / flitPayload)

/-- Flits of a packet. -/
def SentPkt.flitCount (p : SentPkt) : Nat := flitsFor p.payload.length

/-- One step of the CRC-64 of ECMA-182, on a bit. -/
def crcBit (c : W64) (b : Bool) : W64 := if c.bit 63 != b then (c <<< 1) ^^^ 0x42F0E1EBA9EA3693 else c <<< 1

/-- The CRC-64 of ECMA-182 over some bytes (R198). -/
def crc64 (bs : List Byte) : W64 := bs.foldl (fun c b => (List.range 8).foldl (fun c i => crcBit c (b.getLsbD (7 - i))) c) 0

/-- Header of flit `i` of a packet, sent in protected mode or not. -/
def SentPkt.header (p : SentPkt) (i : Nat) (prot : Bool) : W64 :=
  let n := min flitPayload (p.payload.length - i * flitPayload)
  BitVec.ofNat 64 (p.vc % 8 * 2 ^ 61 + p.kind % 32 * 2 ^ 56 + p.tag.toNat * 2 ^ 40 + lifeStart * 2 ^ 28 + n * 2 ^ 20 +
    bitNat (i == 0) * 2 ^ 19 + bitNat (i + 1 == p.flitCount) * 2 ^ 18 + bitNat prot * 2 ^ 17 + p.gentag.toNat)

/-- The 256 bytes of flit `i` of a packet: header, payload (unused bytes 0), tag, CRC. `counter` is the port's flit counter in protected
mode. -/
def SentPkt.flit (p : SentPkt) (i : Nat) (prot : Bool) (counter : Nat) : List Byte :=
  let part := (p.payload.drop (i * flitPayload)).take flitPayload
  let body := part ++ List.replicate (flitPayload - part.length) 0
  let h := p.header i prot
  let head := leBytes 8 h.toNat ++ body ++ leBytes 8 (if prot then (Config.gcmTag p.port counter h body).toNat else 0)
  head ++ leBytes 8 (crc64 head).toNat

/-- A packet goes out at its port; in protected mode its flits are counted (R201). -/
def State.emit (s : State) (p : SentPkt) : State :=
  let x := s.port p.port
  let s1 := { s with sent := s.sent ++ [{ p with sentAt := s.portNow }] }
  if x.session then s1.setPort p.port { x with sentFlits := x.sentFlits + p.flitCount } else s1

/-- The port holds a packet back: its channel is paused, or others of the channel wait before it (R199). -/
def State.heldBack (s : State) (p : SentPkt) : Bool :=
  let x := s.port p.port
  x.paused.contains (x.channel p.vc) || s.outbox.any (fun y => y.port == p.port && y.vc == p.vc)

/-- A reply goes out on RSP, as soon as the port's channel lets it. -/
def State.sendReply (s : State) (port : Nat) (tag : BitVec 16) (kind : Nat) (data : List Byte) : State :=
  let p : SentPkt := { vc := 1, kind := kind, tag := tag, port := port, data := data }
  if s.heldBack p then { s with outbox := s.outbox ++ [p] } else s.emit p

/-- What a port held back goes out, where its channel is no longer paused. -/
def State.releaseOutbox (s : State) (port : Nat) : State :=
  let x := s.port port
  let goes := fun (p : SentPkt) => p.port == port && !x.paused.contains (x.channel p.vc)
  (s.outbox.filter goes).foldl State.emit { s with outbox := s.outbox.filter (fun p => !goes p) }

/-- A port discards a packet and counts it. -/
def State.discardAt (s : State) (p : Nat) : State := s.setPort p { s.port p with discarded := (s.port p).discarded + 1 }

/-- A port locks on a second tag failure: it leaves service until re-attestation, and its session ends (R201). -/
def State.lockPort (s : State) (p : Nat) : State :=
  s.setPort p { s.port p with locked := true, draining := some false, failed := false, session := false }

/-- A packet of `n` flits has arrived whole at a port. -/
def State.gotPacket (s : State) (p n : Nat) : State :=
  let x := s.port p
  if x.session || x.failed then s.setPort p { x with failed := false, gotFlits := if x.session then x.gotFlits + n else x.gotFlits } else s

/-- A flit fails its CRC, or in protected mode its tag: the link replays it once. A second tag failure locks the port; a flit whose replay
fails its CRC too is discarded and counted, for which the spec names nothing (DESIGN CHOICE, log entry 97). -/
def State.linkError (s : State) (p : Nat) (tag : Bool) : State :=
  let x := s.port p
  if !x.up || x.locked || (tag && !x.session) then s
  else if !x.failed then (s.setPort p { x with failed := true, replays := x.replays + 1 }).fire
  else if tag then (s.lockPort p).fire
  else (s.setPort p { x with failed := false, discarded := x.discarded + 1 }).fire

/-- KINDs that a flit may have (R198). -/
def kindOk (k : Nat) : Bool := decide (k ≤ 8) || [0x10, 0x11, 0x12, 0x18, 0x1F].contains k

/-- A flit with a reserved VC or KIND is discarded and counted (R198). -/
def State.oddFlit (s : State) (p vc kind : Nat) : State :=
  if (s.port p).up && (decide (6 ≤ vc) || !kindOk kind) then (s.discardAt p).fire else s

/-! ## Tags (R196) -/

/-- Tag slots of the device. -/
def nSlots : Nat := 2048
/-- A tag slot. -/
def State.slot (s : State) (i : Nat) : TagSlot := s.slots.get i {}
/-- Writes a tag slot. -/
def State.setSlot (s : State) (i : Nat) (x : TagSlot) : State := { s with slots := s.slots.set i x }
/-- The slot may take a request. -/
def TagSlot.isFree (x : TagSlot) : Bool := !x.busy && x.quarantine.isNone
/-- Slots that are free. -/
def State.freeSlots (s : State) : Nat := nSlots - s.slots.countP (fun p => !p.2.isFree)
/-- The lowest free slot. -/
def State.nextSlot (s : State) : Nat := ((List.range nSlots).find? (fun i => (s.slot i).isFree)).getD 0
/-- A slot and its incarnation as a tag. -/
def tagOf (i : Nat) (x : TagSlot) : BitVec 16 := BitVec.ofNat 16 (i * 32 + x.incarnation.toNat)

/-- Cycles of the port clock in a microsecond (18_platform R306). -/
def portPerUs : Nat := 1250

/-! ## Replies -/

/-- A piece receives its data (R205, R208). -/
def Piece.fill (p : Piece) (bs : List Byte) : Piece :=
  if p.t = 32 then { p with regs := p.regs.map (fun r => (r.1, BitVec.ofNat 64 (leValue bs))), fault := none, ready := true }
  else
    { p with regs := (p.regs.map (·.1)).zip ((wordsOf bs.length bs).map (·.zeroExtend 64)), fault := none, ready := true }

/-- A piece receives an error: its prepared record with the cause. -/
def Piece.fail (p : Piece) (c : BitVec 8) : Piece :=
  { p with fault := some { p.fault.getD {} with cause := c, v := true }, ready := true }

/-- The reply of a remote load or atomic: its piece completes (07_registers R102). -/
def Group.remoteReply (g : Group) (op t : Nat) (r : Except (BitVec 8) (List Byte)) : Group :=
  match g.ops.find? (fun o => o.id == op) with
  | none => g
  | some o =>
    match o.pieces.find? (fun p => p.t == t) with
    | none => g
    | some p =>
      let rest := o.pieces.filter (fun p => p.t != t)
      let ops := if rest.isEmpty then g.ops.filter (fun y => y.id != op)
        else g.ops.map (fun y => if y.id = op then { y with pieces := rest } else y)
      Group.completePiece { g with ops := ops } (match r with
        | .ok bs => p.fill bs
        | .error c => p.fail c)

/-- An error enters the remote error record (R202). -/
def Group.noteRemote (g : Group) (c : BitVec 8) : Group :=
  { g with rerrCause := if g.rerrCause = 0 then c else g.rerrCause
           rerrCount := if g.rerrCount = 0xFFFF then 0xFFFF else g.rerrCount + 1 }

/-- A posted request has its last reply. -/
def Group.settlePosted (g : Group) (serial : Nat) : Group :=
  { g with posted := (g.posted.map (fun l => l.filter (· != serial))).filter (fun l => !l.isEmpty) }

/-- The cause that a code names; NONE for a code that names none (15_faults R258). -/
def causeOfCode (c : BitVec 8) : Cause :=
  ([Cause.illegalOpcode, .reservedField, .privileged, .emptyRead, .misaligned, .pageNotPresent, .pageProtection, .sliceRange,
    .hostAtomicUnsupported, .maskMismatch, .stackOverflow, .windowInvalid, .windowBounds, .windowKey, .windowPerm,
    .patternInvalid, .remoteTimeout, .remoteContained, .tableStale, .tableIndex, .shapeTruncated, .attachMiss,
    .segmentConflict, .missedPromise, .queueClosed, .combineSlots, .generationRetired, .restoreCapacity, .uncorrectable,
    .breakpoint, .softwareTrap].find? (fun x => x.code == c)).getD .none

/-- A command's piece has its reply. -/
def CopyCmd.reply (c : CopyCmd) (serial row : Nat) (r : Except (BitVec 8) (List Byte)) (last : Bool) (addr : W64) :
    CopyCmd :=
  let c1 := if last then { c with tags := c.tags.filter (· != serial) } else c
  match r with
  | .ok _ => c1
  | .error e => if c1.err.isSome then c1 else { c1 with err := some (causeOfCode e, addr, row), pieces := [] }

/-- The slice of a key is still the virtual device's. -/
def State.sliceStays (s : State) (vd key : Nat) : Bool :=
  (s.vdev vd).live && (s.vdev vd).clusters.contains (clusterOf ((key - sliceBase) / sliceStride))

/-- What one reply does, by the kind of its request. A team's end or flush cancels no RGET that was sent: its data are still written (R203); `last` says that no further reply is awaited. -/
def State.replyEffect (s : State) (x : TagSlot) (r : Except (BitVec 8) (List Byte)) (last : Bool) : State :=
  match x.kind with
  | .load op t _ => s.updGroup x.group (fun g => g.remoteReply op t r)
  | .posted =>
    s.updGroup x.group (fun g =>
      let g1 := match r with
        | .ok _ => g
        | .error c => g.noteRemote c
      if last then g1.settlePosted x.serial else g1)
  | .copy cmd row key addr =>
    match s.copies.find cmd with
    | none => s
    | some c =>
      if !c.tags.contains x.serial then s
      else
        let s1 := match r with
          | .ok bs => if bs.isEmpty then s else s.writeKey key bs
          | .error _ => s
        { s1 with copies := s1.copies.set cmd (c.reply x.serial row r last addr) }
  | .rget key team cb addr =>
    let s1 := match r with
      | .ok bs => if s.sliceStays x.vd key then s.writeSlice key bs else s
      | .error _ => s
    if (s.teams.find team).isNone then s1
    else
      s1.arrive team cb 1 (match r with
        | .ok _ => none
        | .error c => some { cause := c, addr := addr, idx := 0 })
  | .tag =>
    s.updGroup x.group (fun g =>
      let g1 := match r with
        | .ok _ => { g with replyWait := g.replyWait.map (fun w => (w.1, w.2 + 1)) }
        | .error c => g.noteRemote c
      if last then { g1 with replyWait := g1.replyWait.map (fun w => (w.1.filter (· != x.serial), w.2)) } else g1)

/-- One reply for the busy slot `i`, from the target named. -/
def State.replyFor (s : State) (i target : Nat) (r : Except (BitVec 8) (List Byte)) : State :=
  let x := s.slot i
  let rest := x.targets.erase target
  let s1 := if rest.isEmpty then s.setSlot i { x with busy := false, targets := [] } else s.setSlot i { x with targets := rest }
  s1.replyEffect x r rest.isEmpty

/-! ## Sending -/

/-- A request to be sent. -/
structure Request where
  vd : Nat
  group : Nat
  t : Target
  vc : Nat
  kind : Nat
  op : Nat := 0
  size : Nat
  strength : Nat := 0
  data : List Byte := []
  rk : ReqKind
  gentag : BitVec 16 := 0

/-- The words that a request carries first (R198): pattern; GRID and OFFSET; KEY, source index, operation, size, strength. -/
def State.requestWords (s : State) (q : Request) : List W64 :=
  [q.t.pat, BitVec.ofNat 64 ((entryWord q.t.ws 1).field 48 16 * 2 ^ 48 + q.t.off % 2 ^ 48),
    BitVec.ofNat 64 (entryKey q.t.ws * 2 ^ 32 + (s.vdev q.vd).ownIndex * 2 ^ 20 + q.op * 2 ^ 16 + q.size % 2 ^ 8 * 2 ^ 8 +
      q.strength * 2 ^ 6)]

/-- Targets of a request that containment answers at once: the contained ones, or all where the device's own coordinate is
(R197). -/
def State.containedTargets (s : State) (q : Request) : List Nat :=
  let v := s.vdev q.vd
  let grid := (entryWord q.t.ws 1).field 48 16
  if s.contained.contains (v.gridId, v.ownIndex) then q.t.coords
  else q.t.coords.filter (fun c => s.contained.contains (grid, c))

/-- Sends a request: it takes the lowest free slot; contained targets answer at once. -/
def State.sendReq (s : State) (q : Request) : State :=
  let i := s.nextSlot
  let x : TagSlot :=
    { s.slot i with busy := true, serial := s.sends, vd := q.vd, group := q.group, kind := q.rk, targets := q.t.coords,
                    deadline := s.portNow + windowTmo q.t.ws * portPerUs, quarantine := none,
                    grid := BitVec.ofNat 16 ((entryWord q.t.ws 1).field 48 16) }
  let p : SentPkt :=
    { vc := q.vc, kind := q.kind, tag := tagOf i x, gentag := q.gentag, port := (s.sendPort q.t q.vd q.vc).getD 0,
      words := s.requestWords q, data := q.data }
  let s1 := ({ s.setSlot i x with sends := s.sends + 1 } : State).emit p
  (s.containedTargets q).foldl (fun s c => s.replyFor i c (.error (Cause.code .remoteContained))) s1

/-- A word's requests to these targets can all be sent: slots are free and every port takes its request. -/
def State.canSend (s : State) (vd vc : Nat) (ts : List Target) : Bool :=
  decide (ts.length ≤ s.freeSlots) && ts.all (fun t => (s.sendPort t vd vc).isSome)

/-! ## The replies as events -/

/-- The busy slot that a tag matches. -/
def State.slotOf (s : State) (tag : BitVec 16) : Option Nat :=
  let i := tag.toNat / 32
  if (s.slot i).busy && (s.slot i).incarnation.toNat == tag.toNat % 32 then some i else none

/-- A reply for its tag, which has arrived at port `on.b`: one that matches no outstanding request is discarded there and counted. -/
def State.reply (s0 : State) (tag : BitVec 16) (n : Nat) (r : Except (BitVec 8) (List Byte)) : State :=
  let s := s0.gotPacket s0.on.b (flitsFor n)
  match s.slotOf tag with
  | none => (s.discardAt s.on.b).fire
  | some i => (s.replyFor i ((s.slot i).targets.headD 0) r).fire

/-- The slot of an RGET whose data would be written under a claim: the write waits (06_copy R89). -/
def State.getClaimed (s : State) (tag : BitVec 16) : Option Nat :=
  match s.slotOf tag with
  | none => none
  | some i =>
    match (s.slot i).kind with
    | .rget key _ _ _ => if s.claimed key 64 then some i else none
    | .load _ _ _ => none
    | .posted => none
    | .copy _ _ _ _ => none
    | .tag => none

/-- READ_DATA (R196). An RGET's data waits while a claim holds its destination (06_copy R89). -/
def execReadData (tag : BitVec 16) (data : List Byte) (s : State) : Out :=
  match s.getClaimed tag with
  | some i =>
    if s.on.c = 3 then .next s
    else .next { s with arrivals := s.arrivals ++ [(Instr.readData tag data, { s.on with a := i, c := 3 })] }.fire
  | none => .next ({ s with arrivals := s.arrivals.erase (Instr.readData tag data, s.on) }.reply tag data.length (.ok data))
/-- ACKNOWLEDGEMENT (R196). -/
def execAcknowledgement (tag : BitVec 16) (s : State) : Out := .next (s.reply tag 0 (.ok []))
/-- ERROR_REPLY (R202). -/
def execErrorReply (tag : BitVec 16) (cause : BitVec 8) (s : State) : Out := .next (s.reply tag 1 (.error cause))

/-- Cycles of the port clock that a quarantine lasts: 524 µs. -/
def quarantineCycles : Nat := 524 * portPerUs

/-- The slot's data has arrived and waits for a claim. -/
def State.replyHeld (s : State) (i : Nat) : Bool := s.arrivals.any (fun a => a.2.c == 3 && a.2.a == i)

/-- REQUEST_TIMEOUT of slot `on.a` (R196). -/
def execRequestTimeout (s : State) : Out :=
  let i := s.on.a
  let x := s.slot i
  if x.busy && decide (x.deadline ≤ s.portNow) && !s.replyHeld i then
    let s1 := s.setSlot i { x with busy := false, targets := [], incarnation := x.incarnation + 1,
                                   quarantine := some (s.portNow + quarantineCycles) }
    .next (s1.replyEffect x (.error (Cause.code .remoteTimeout)) true).fire
  else .next s

/-- SLOT_QUARANTINE_END of slot `on.a` (R196). -/
def execSlotQuarantineEnd (s : State) : Out :=
  let x := s.slot s.on.a
  match x.quarantine with
  | none => .next s
  | some e => if e ≤ s.portNow then .next (s.setSlot s.on.a { x with quarantine := none }).fire else .next s

/-- PACKET_LIFE_EXPIRY of packet `on.a` of those sent (R196): its LIFE has reached 0, and a node drops it. -/
def execPacketLifeExpiry (s : State) : Out :=
  match s.sent[s.on.a]? with
  | none => .next s
  | some p => if p.life s.portNow = 0 then .next { s with sent := s.sent.eraseIdx s.on.a }.fire else .next s

end Sys2Proof.Machine
end

