-- ==== Sys2Proof/Machine/Remote.lean ====
section
/-! DEFINITION. The remote words: lane and group loads, stores and atomics, reducing stores, RGET, signals, RFENCE
(11_fabric R192, R202 to R208, R354, R394 to R398). -/

namespace Sys2Proof.Machine

/-! ## Common parts -/

/-- Strength as a request carries it (02_encoding R20). -/
def strengthCode : Strength → Nat
  | .plain => 0
  | .relaxed => 1
  | .acquire => 2
  | .release => 3

/-- A load or atomic of this strength is a remote acquire. -/
def remoteAcquires (atomic : Bool) (st : Strength) : Bool := st == .acquire || (atomic && st == .plain)

/-- Whether a remote store or atomic has to wait first: a release for what a release at domain scope awaits, a strong store
for the group's earlier remote loads (12_consistency R219). -/
def State.remoteWaits (s : State) (rel strong : Bool) : Bool :=
  s.releaseWaits .domain rel || (strong && s.awaitsRemote s.cur)

/-- A posted word of the executing group: its requests. -/
def State.addPosted (s : State) (serials : List Nat) : State :=
  let alive := serials.filter (fun n => s.slots.any (fun p => p.2.busy && p.2.serial == n))
  if alive.isEmpty then s else s.setGrp { s.grp with posted := s.grp.posted ++ [alive] }

/-- Sends posted requests in order and enters them. -/
def State.sendPosted (s : State) (qs : List Request) : State :=
  (qs.foldl State.sendReq s).addPosted ((List.range qs.length).map (fun i => s.sends + i))

/-! ## Lane words (R205, R206) -/

/-- Offset of a lane word's access: WOFF + u(va) + off. -/
def State.remoteOff (s : State) (a : W32) (off : Int) : Int := s.grp.wsel.field 0 48 + a.toNat + off

/-- Window address that a record of a lane word's source check carries. -/
def State.remoteAddr (s : State) (off : Int) : W64 :=
  BitVec.ofNat 64 (s.grp.wsel.field 48 16 * 2 ^ 48 + (w64OfInt off).toNat % 2 ^ 48)

/-- A lane word's source check for one thread. -/
def State.laneCheck (s : State) (off : Int) (u : WinUse) : Except AccFault Target :=
  s.sourceCheck s.curCore s.curVd (s.grp.wsel.field 48 16) (some s.grp.wpat) off (s.remoteAddr off) u

/-- The threads whose source check fails park at the word (R202). -/
def State.parkBad (s : State) (ts : List Nat) (chk : Nat → Except AccFault Target) : State :=
  s.setGrp (s.grp.mapThreads ts (fun t x =>
    match chk t with
    | .ok _ => x
    | .error f => { x with st := .parked, fault := s.grp.threadRec x f }))

/-- The targets of the threads that pass, with the threads. -/
def passing (ts : List Nat) (chk : Nat → Except AccFault Target) : List (Nat × Target) :=
  ts.filterMap (fun t =>
    match chk t with
    | .ok x => some (t, x)
    | .error _ => none)

/-- The piece that a remote load will fill: ready when its reply is here, its record prepared. -/
def State.remotePiece (s : State) (t d n : Nat) : Piece :=
  { t := t, regs := (regList d n).map (fun k => (k, 0)), ready := false,
    fault := some { s.grp.deferredRec (s.grp.thread t) { rmt := true } d with cause := 0 } }

/-- Remote loads and atomics of a lane word: pieces become outstanding, then the requests go out in thread order. -/
def State.laneRequests (s : State) (d n : Nat) (acq : Bool) (ps : List (Nat × Target)) (q : Nat → Target → Request) : State :=
  if ps.isEmpty then s
  else
    let op := s.grp.freshOp
    let g := s.grp.setPending (ps.map (·.1)) (regList d n)
    let s1 := s.setGrp { g with ops := g.ops ++ [{ id := op, pieces := ps.map (fun p => s.remotePiece p.1 d n), acq := acq }] }
    ps.foldl (fun s p => s.sendReq { q p.1 p.2 with rk := .load op p.1 (4 * n) }) s1

/-- The window entry that the lane words use is kept by the cluster (R185). -/
def State.keepSelected (s : State) : State := s.keepWindow s.curCore s.curVd (s.grp.wsel.field 48 16)

/-- RLD32 and RLD64: `n` registers. -/
def State.remoteLoad (s : State) (i : Instr) (f : LaneRemote) (n : Nat) : Out :=
  let d := regNum f.d
  .next (s.laneWordM i
    { blocks := blockOf f.d n ++ blockOf f.a 1, guard := lmGuard f.pg, srcs := [{ o := f.a }],
      dest := .regs d n, counts := true }
    (fun s1 ts ks =>
      let chk := fun t => s1.laneCheck (s1.remoteOff (s1.lv ks 0 t) (f.off.toInt * (4 * n : Nat)))
        { perm := 59, single := true, size := 4 * n }
      let ps := passing ts chk
      if !s1.canSend s1.curVd 0 (ps.map (·.2)) then none
      else
        some (((s1.parkBad ts chk).keepSelected).laneRequests d n (remoteAcquires false f.st) ps (fun _ t =>
          { vd := s1.curVd, group := s1.cur, t := t, vc := 0, kind := 0, size := 4 * n,
            strength := strengthCode f.st, rk := .posted, gentag := s1.grp.gentag }))))

/-- RLD32 (R205). -/
def execRld32 (f : LaneRemote) (s : State) : Out := s.remoteLoad (.rld32 f) f 1
/-- RLD64 (R205). -/
def execRld64 (f : LaneRemote) (s : State) : Out := s.remoteLoad (.rld64 f) f 2

/-- KIND of a write: multicast where it has several targets (R198). -/
def writeKind (t : Target) : Nat := if 1 < t.coords.length then 2 else 1

/-- RST32 and RST64: `n` registers. -/
def State.remoteStore (s : State) (i : Instr) (f : LaneRemote) (n : Nat) : Out :=
  let d := regNum f.d
  .next (s.laneWordM i
    { blocks := blockOf f.d n ++ blockOf f.a 1, guard := lmGuard f.pg,
      srcs := if n = 1 then [{ o := f.a }, { o := f.d }] else [{ o := f.a }],
      also := if n = 1 then [] else regList d n, counts := true }
    (fun s1 ts ks =>
      let chk := fun t => s1.laneCheck (s1.remoteOff (s1.lv ks 0 t) (f.off.toInt * (4 * n : Nat)))
        { perm := 58, size := 4 * n, wr := true }
      let ps := passing ts chk
      if s1.remoteWaits (f.st == .release) (f.st != .plain) || !s1.canSend s1.curVd 0 (ps.map (·.2)) then none
      else
        let s2 := ((s1.beforeRelease .domain (f.st == .release)).parkBad ts chk).keepSelected
        some (s2.sendPosted (ps.map (fun p =>
          { vd := s1.curVd, group := s1.cur, t := p.2, vc := 0, kind := writeKind p.2, size := 4 * n,
            strength := strengthCode f.st, gentag := s1.grp.gentag, rk := .posted,
            data := if n = 1 then leBytes 4 (s1.lv ks 1 p.1).toNat else (s1.grp.thread p.1).blockBytes d (4 * n) })))))

/-- RST32 (R205). -/
def execRst32 (f : LaneRemote) (s : State) : Out := s.remoteStore (.rst32 f) f 1
/-- RST64 (R205). -/
def execRst64 (f : LaneRemote) (s : State) : Out := s.remoteStore (.rst64 f) f 2

/-- Code of an atomic operation (02_encoding R26). -/
def atomCode : AtomOp → Nat
  | .add => 0
  | .smin => 1
  | .smax => 2
  | .umin => 3
  | .umax => 4
  | .and => 5
  | .or => 6
  | .xor => 7
  | .xch => 8
  | .cas => 9
  | .fadd => 10

/-- RATOM (R206): the payload is the operand and, for a compare-and-swap, the new value after it. -/
def execRatom (f : LaneRatom) (s : State) : Out :=
  let d := regNum f.d
  .next (s.laneWordM (.ratom f)
    { blocks := blockOf f.d 1 ++ blockOf f.a 1 ++ blockOf f.b 1, srcs := [{ o := f.a }, { o := f.b }],
      also := if f.op = .cas then [d] else [], dest := .regs d 1, counts := true }
    (fun s1 ts ks =>
      let chk := fun t => s1.laneCheck (s1.remoteOff (s1.lv ks 0 t) 0) { perm := 57, single := true, size := 4, wr := true }
      let ps := passing ts chk
      if s1.remoteWaits (atomReleases f.st) true || !s1.canSend s1.curVd 2 (ps.map (·.2)) then none
      else
        let s2 := ((s1.beforeRelease .domain (atomReleases f.st)).parkBad ts chk).keepSelected
        some (s2.laneRequests d 1 (remoteAcquires true f.st) ps (fun t x =>
          { vd := s1.curVd, group := s1.cur, t := x, vc := 2, kind := 4, op := atomCode f.op, size := 4,
            strength := strengthCode f.st, rk := .posted, gentag := s1.grp.gentag,
            data := leBytes 4 (s1.lv ks 1 t).toNat ++
              (if f.op = .cas then leBytes 4 ((s1.grp.thread t).reg d).toNat else []) }))))

/-! ## Group words (R207, R208, R354) -/

/-- A group word's source check: `ga` is the window address. -/
def State.grpCheck (s : State) (ga : W64) (pat : Option W64) (u : WinUse) : Except AccFault Target :=
  s.sourceCheck s.curCore s.curVd (ga.field 48 16) pat (ga.field 0 48) ga u

/-- The window entry of a group word is kept by the cluster. -/
def State.keepOf (s : State) (ga : W64) : State := s.keepWindow s.curCore s.curVd (ga.field 48 16)

/-- The sources of a group remote word: the window address, and the pattern without dp. -/
def remoteSrcs (a b : Opnd) (dp : Bool) : List Src := if dp then [{ o := a }] else [{ o := a }, { o := b }]

/-- The pattern operand. -/
def patOperand (dp : Bool) (vs : List W64) : Option W64 := if dp then none else some (gv vs 1)

/-- A group's remote load or atomic: its register pends, the request goes out. -/
def State.groupRequest (s : State) (d : Nat) (acq : Bool) (q : Request) : State :=
  let op := s.grp.freshOp
  let p : Piece :=
    { t := 32, regs := [(d, 0)], ready := false, fault := some { s.grp.deferredOwn { rmt := true } d with cause := 0 } }
  let g := s.grp.setState d .pending
  (s.setGrp { g with ops := g.ops ++ [{ id := op, pieces := [p], acq := acq }] }).sendReq
    { q with rk := .load op 32 q.size }

/-- RGLD (R208). -/
def execRgld (f : GrpRemote) (s : State) : Out :=
  let n := if f.n32 then 4 else 8
  let d := regNum f.d
  .next (s.groupWord (.rgld f) { srcs := remoteSrcs f.a f.b f.dp, dest := .regs d 1, counts := true } (fun s1 vs =>
    match s1.grpCheck (gv vs 0) (patOperand f.dp vs) { perm := 59, single := true, size := n } with
    | .error e => .fault e
    | .ok t =>
      if !s1.canSend s1.curVd 0 [t] then .wait
      else .done ((s1.keepOf (gv vs 0)).groupRequest d (remoteAcquires false f.st)
        { vd := s1.curVd, group := s1.cur, t := t, vc := 0, kind := 0, size := n, strength := strengthCode f.st,
          rk := .posted, gentag := s1.grp.gentag })))

/-- RGST and RMST: gd is a source after the others. -/
def State.groupRemoteStore (s : State) (i : Instr) (f : GrpRemote) (single : Bool) : Out :=
  let n := if f.n32 then 4 else 8
  .next (s.groupWord i { srcs := remoteSrcs f.a f.b f.dp ++ [{ o := f.d }], counts := true } (fun s1 vs =>
    match s1.grpCheck (gv vs 0) (patOperand f.dp vs) { perm := 58, single := single, size := n, wr := true } with
    | .error e => .fault e
    | .ok t =>
      if s1.remoteWaits (f.st == .release) (f.st != .plain) || !s1.canSend s1.curVd 0 [t] then .wait
      else .done (((s1.beforeRelease .domain (f.st == .release)).keepOf (gv vs 0)).sendPosted
        [{ vd := s1.curVd, group := s1.cur, t := t, vc := 0, kind := writeKind t, size := n,
           strength := strengthCode f.st, rk := .posted, gentag := s1.grp.gentag,
           data := leBytes n (gv vs (if f.dp then 1 else 2)).toNat }])))

/-- RGST (R208). -/
def execRgst (f : GrpRemote) (s : State) : Out := s.groupRemoteStore (.rgst f) f true
/-- RMST (R208). -/
def execRmst (f : GrpRemote) (s : State) : Out := s.groupRemoteStore (.rmst f) f false

/-- RGATM (R354): always acquire-release; for a compare-and-swap gd + 1 is the expected value. -/
def execRgatm (f : GrpRgatm) (s : State) : Out :=
  let n := if f.n32 then 4 else 8
  let d := regNum f.d
  .next (s.groupWord (.rgatm f)
    { srcs := remoteSrcs f.a f.b f.dp, also := if f.op = .cas then [d, d + 1] else [d], dest := .regs d 1,
      counts := true } (fun s1 vs =>
    match s1.grpCheck (gv vs 0) (patOperand f.dp vs) { perm := 57, single := true, size := n, wr := true } with
    | .error e => .fault e
    | .ok t =>
      if s1.remoteWaits true true || !s1.canSend s1.curVd 2 [t] then .wait
      else .done (((s1.beforeRelease .domain true).keepOf (gv vs 0)).groupRequest d true
        { vd := s1.curVd, group := s1.cur, t := t, vc := 2, kind := 4, op := atomCode f.op, size := n,
          strength := 0, rk := .posted, gentag := s1.grp.gentag,
          data := if f.op = .cas then leBytes n (s1.grp.reg (d + 1)).toNat ++ leBytes n (s1.grp.reg d).toNat
            else leBytes n (s1.grp.reg d).toNat })))

/-! ## RRST, RGET (R394, R398) -/

/-- RRST: `op` and log2 of the size less 3 are fields of the word. The contributor pattern follows the request's words. -/
def execRrst (d a b : Opnd) (dp : Bool) (op : Fin 8) (size : Fin 4) (s : State) : Out :=
  let n := 8 * 2 ^ size.val
  let r := regNum d
  .next (s.groupWord (.unlisted (.rrst d a b dp op size))
    { srcs := remoteSrcs a b dp, also := [r, r + 1], counts := true } (fun s1 vs =>
    match s1.grpCheck (gv vs 0) (patOperand dp vs)
        { perm := 55, kinds := [0], size := n, wr := true, dest := some (s1.grp.reg (r + 1)) } with
    | .error e => .fault e
    | .ok t =>
      if s1.blocked s1.curCore s1.curVd (s1.grp.reg r) n .load false || !s1.canSend s1.curVd 0 [t] then .wait
      else
        let x := s1.performLoad s1.curCore s1.curVd (s1.grp.reg r) n false
        match x.2 with
        | .error e => .fault e
        | .ok bs =>
          .done ((x.1.keepOf (gv vs 0)).sendPosted
            [{ vd := s1.curVd, group := s1.cur, t := t, vc := 0, kind := 3, op := op.val, size := n, rk := .posted,
               gentag := s1.grp.gentag,
               data := leBytes 8 ((patOperand dp vs).getD (entryWord t.ws 3)).toNat ++ bs }])))

/-- RGET. -/
def execRget (d a b : Opnd) (dp : Bool) (cb : Fin 16) (s : State) : Out :=
  .next (s.groupWord (.unlisted (.rget d a b dp cb)) { srcs := remoteSrcs a b dp ++ [{ o := d }], counts := true }
    (fun s1 vs =>
      let ga := gv vs 0
      let dst := gv vs (if dp then 1 else 2)
      match s1.grpCheck ga (patOperand dp vs) { perm := 59, single := true, size := 64 } with
      | .error e => .fault e
      | .ok t =>
        if !addrOk dst then .fault { cause := .pageNotPresent, addr := dst, wr := true }
        else if dst.toNat < sliceBase then .fault { cause := .sliceRange, addr := dst, wr := true }
        else
          match s1.sliceAt s1.curCore s1.curVd dst.toNat with
          | none => .fault { cause := .sliceRange, addr := dst, wr := true }
          | some key =>
            if dst.toNat % 64 ≠ 0 then .fault { cause := .misaligned, addr := dst, wr := true }
            else if s1.claimed key 64 || !s1.canSend s1.curVd 0 [t] then .wait
            else .done ((s1.keepOf ga).sendReq
              { vd := s1.curVd, group := s1.cur, t := t, vc := 0, kind := 0, size := 64, gentag := s1.grp.gentag,
                rk := .rget key s1.grp.team cb.val (BitVec.ofNat 56 (ga.field 0 48)) })))

/-! ## Signals (R192, R395, R396) -/

/-- The signal at a local address, aligned to 16 and in a slice or device memory: its key. -/
def State.signalKey (s : State) (core vd : Nat) (ea : W64) (k : AccKind) : Except AccFault Nat :=
  match s.check core vd ea 16 k with
  | .error f => .error f
  | .ok p =>
    if p.isHost then .error { cause := .pageProtection, addr := ea, wr := k.writes, host := true } else .ok p.key

/-- Every remote write that the device has sent is acknowledged: stores, multicasts, contributions and CPYW put pieces. -/
def State.writesAcked (s : State) : Bool :=
  !s.slots.any (fun p => p.2.busy && (match p.2.kind with
    | .posted => true
    | .copy c _ _ _ => (s.copies.get c {}).kind != .cpywGet
    | .load _ _ _ => false
    | .rget _ _ _ _ => false
    | .tag => false))

/-- SIGADD. -/
def execSigadd (d a b : Opnd) (dp loc : Bool) (s : State) : Out :=
  .next (s.groupWord (.unlisted (.sigadd d a b dp loc))
    { srcs := if loc then [{ o := a }, { o := d }] else remoteSrcs a b dp ++ [{ o := d }], counts := !loc }
    (fun s1 vs =>
      let ga := gv vs 0
      if loc then
        match s1.signalKey s1.curCore s1.curVd ga .atomic with
        | .error e => .fault e
        | .ok _ =>
          if s1.releaseWaits .device true || s1.blocked s1.curCore s1.curVd ga 8 .atomic true then .wait
          else
            let r := (s1.beforeRelease .device true).performAtomic s1.curCore s1.curVd ga 8 true
              (fun old => (old + (gv vs 1).toNat) % 2 ^ 64)
            match r.2 with
            | .error e => .fault e
            | .ok _ => .done r.1
      else
        match s1.grpCheck ga (patOperand dp vs) { perm := 57, kinds := [3], size := 8, wr := true } with
        | .error e => .fault e
        | .ok t =>
          if s1.releaseWaits .domain true || !s1.writesAcked || !s1.canSend s1.curVd 3 [t] then .wait
          else .done (((s1.beforeRelease .domain true).keepOf ga).sendPosted
            [{ vd := s1.curVd, group := s1.cur, t := t, vc := 3, kind := 5, size := 8, strength := 3, rk := .posted,
               gentag := s1.grp.gentag, data := leBytes 8 (gv vs (if dp then 1 else 2)).toNat }])))

/-- A signal's wait as it issues and as it ends: `ends` looks at VALUE, `result` gives what gd receives. The end is a full
acquire (12_consistency R214). -/
def State.signalWait (s : State) (i : Instr) (d a b : Opnd) (te : Bool) (ends : W64 → W64 → Bool)
    (result : W64 → W64 → W64) : Out :=
  .next (s.groupWord i { srcs := [{ o := a }, { o := b }], dest := destOf d 1 } (fun s1 vs =>
    let ga := gv vs 0
    match s1.signalKey s1.curCore s1.curVd ga .load with
    | .error e => .fault e
    | .ok key =>
      if s1.blocked s1.curCore s1.curVd ga 16 .load true then .wait
      else
        let r := s1.performLoad s1.curCore s1.curVd ga 16 true
        match r.2 with
        | .error e => .fault e
        | .ok bs =>
          let v : W64 := BitVec.ofNat 64 (leValue (bs.take 8))
          let w : W64 := BitVec.ofNat 64 (leValue (bs.drop 8))
          let err := w.bit 32
          if (ends v (gv vs 1) || err) && !r.1.dirtyClaimed r.1.curCore then
            let s2 := (r.1.flushAll r.1.curCore).writeGroup d (result v w)
            if te && err then .trapAfter s2 (BitVec.ofNat 8 (w.field 40 8)) ga 0 else .done s2
          else if s.grp.hint.isSome then .wait
          else .hold (s.addHint s.cur (key + 8))))

/-- Signed comparison of SIGWT. -/
def signalTest (c : IntCond) (v b : W64) : Bool :=
  match c with
  | .eq => v == b
  | .ne => v != b
  | .lt => decide (v.toInt < b.toInt)
  | .le => decide (v.toInt ≤ b.toInt)
  | .gt => decide (b.toInt < v.toInt)
  | .ge => decide (b.toInt ≤ v.toInt)

/-- SIGWT. -/
def execSigwt (d a b : Opnd) (cond : IntCond) (te : Bool) (s : State) : Out :=
  s.signalWait (.unlisted (.sigwt d a b cond te)) d a b te (signalTest cond) (fun v _ => v)

/-- RWAIT: gd is word 1 with HINT cleared. -/
def execRwait (d a b : Opnd) (te : Bool) (s : State) : Out :=
  s.signalWait (.unlisted (.rwait d a b te)) d a b te (signalTest .ge) (fun _ w => w &&& 0xFFFFFFFF00000000)

/-! ## RFENCE (R397) -/

/-- The groups whose requests and records a word concerns: the executing one, or with TEAM those of its team. -/
def State.fenceGroups (s : State) (team : Bool) : List Nat := if team then s.curTeam.groups else [s.cur]

/-- Serial numbers of the posted requests of groups that await replies. -/
def State.postedOf (s : State) (ks : List Nat) : List Nat := ks.flatMap (fun k => (s.group k).posted.flatten)

/-- The requests that RFENCE still awaits: those that stood outstanding when it issued. -/
def State.fenceLeft (s : State) (team : Bool) : List Nat :=
  let now := s.postedOf (s.fenceGroups team)
  match s.grp.replyWait with
  | none => now
  | some w => w.1.filter (fun n => now.contains n)

/-- The cause that RFENCE reads: of the lowest-indexed group whose record holds one. -/
def State.fenceCause (s : State) (ks : List Nat) : BitVec 8 :=
  match ks with
  | [] => 0
  | k :: r => if (s.group k).rerrCause = 0 then s.fenceCause r else (s.group k).rerrCause

/-- The errors that RFENCE reads, held at 0xFFFF. -/
def State.fenceErrors (s : State) (ks : List Nat) : Nat :=
  min 0xFFFF (ks.foldl (fun n k => n + (s.group k).rerrCount.toNat) 0)

/-- The records are cleared. -/
def State.clearRemote (s : State) (ks : List Nat) : State :=
  ks.foldl (fun s k => s.setGroup k { s.group k with rerrCause := 0, rerrCount := 0 }) s

/-- RFENCE. -/
def execRfence (d : Opnd) (team te : Bool) (s : State) : Out :=
  .next (s.groupWord (.unlisted (.rfence d team te)) { dest := destOf d 1 } (fun s1 _ =>
    let ks := s1.fenceGroups team
    let left := s1.fenceLeft team
    if left.isEmpty then
      let c := s1.fenceCause ks
      let s2 := (s1.clearRemote ks).writeGroup d (BitVec.ofNat 64 (c.toNat * 2 ^ 56 + s1.fenceErrors ks * 2 ^ 40))
      if te && c != 0 then .trapAfter s2 c 0 0 else .done s2
    else if s1.grp.replyWait.isSome then .wait
    else .hold (s1.setGrp { s1.grp with replyWait := some (left, 0) })))

end Sys2Proof.Machine
end

