-- ==== Sys2Proof/Machine/Ranges.lean ====
section
/-! DEFINITION. Ranges of virtual addresses as pieces of memory, page by page: for the engines and for the fabric import
agent, which move more than one page's bytes (04_memory R53 to R59, R67). -/

namespace Sys2Proof.Machine

/-- Where a range lies: pieces of first key and length, each within one 64 KiB page or granule. `place` gives the key of one
address; the first fault ends it. `fuel` is at least the number of pages touched. -/
def rangeFrom (place : Nat → Except AccFault Nat) (fuel a n : Nat) : Except AccFault (List (Nat × Nat)) :=
  match fuel with
  | 0 => .ok []
  | k + 1 =>
    if n = 0 then .ok []
    else
      let m := min n (0x10000 - a % 0x10000)
      match place a with
      | .error f => .error f
      | .ok key =>
        match rangeFrom place k (a + m) (n - m) with
        | .error f => .error f
        | .ok r => .ok ((key, m) :: r)

/-- The pieces of a range of `n` bytes. -/
def rangeOf (place : Nat → Except AccFault Nat) (a n : Nat) : Except AccFault (List (Nat × Nat)) :=
  rangeFrom place (n / 0x10000 + 2) a n

/-- The key of one address for an agent beside a core: its cluster's copy engine, its table unit, its combine engine. -/
def State.corePlace (s : State) (core vd : Nat) (k : AccKind) (a : Nat) : Except AccFault Nat :=
  if 2 ^ 64 ≤ a then .error { cause := .pageNotPresent, addr := BitVec.ofNat 64 a, wr := k.writes }
  else
    match s.check core vd (BitVec.ofNat 64 a) 1 k with
    | .error f => .error f
    | .ok p => .ok p.key

/-- The pages of a range. -/
def pagesOf (a n : Nat) : List Nat :=
  if n = 0 then [] else (List.range ((a + n - 1) / 0x10000 - a / 0x10000 + 1)).map (fun i => a / 0x10000 * 0x10000 + i * 0x10000)

/-- The marks that an access to a range leaves, for an agent beside a core (R59, R61). -/
def State.touchRange (s : State) (core vd a n : Nat) (k : AccKind) : State :=
  (pagesOf a n).foldl (fun s p =>
    match s.check core vd (BitVec.ofNat 64 p) 1 k with
    | .error _ => s
    | .ok x => s.touch core vd (BitVec.ofNat 64 p) x k.writes) s

/-- The first piece of a range that holds an uncorrectable byte. -/
def State.badPiece (s : State) (ps : List (Nat × Nat)) : Option Nat := (ps.find? (fun p => s.poisoned p.1 p.2)).map (·.1)

/-- Where in a range the first uncorrectable byte lies. -/
def State.badOffset (s : State) (ps : List (Nat × Nat)) : Option Nat :=
  match ps with
  | [] => none
  | p :: r =>
    if s.poisoned p.1 p.2 then (List.range p.2).find? (fun i => s.poisoned (p.1 + i) 1)
    else (s.badOffset r).map (· + p.2)

/-- Bytes of the pieces. -/
def State.readPieces (s : State) (ps : List (Nat × Nat)) : List Byte := ps.flatMap (fun p => s.bytes p.1 p.2)

/-- Bytes written over the pieces, in ascending order. -/
def State.writePieces (s : State) (ps : List (Nat × Nat)) (bs : List Byte) : State :=
  match ps with
  | [] => s
  | p :: r => State.writePieces (s.writeKey p.1 (bs.take p.2)) r (bs.drop p.2)

/-- A write over the pieces would meet an uncorrectable granule in part. -/
def State.badWrite (s : State) (ps : List (Nat × Nat)) : Option Nat := (ps.find? (fun p => s.poisonPartial p.1 p.2)).map (·.1)

/-- The cells of pieces that receive bytes. -/
def cellsOf (ps : List (Nat × Nat)) (bs : List Byte) : List Host.Cell :=
  match ps with
  | [] => []
  | p :: r => (List.range p.2).zipWith (fun i b => (p.1 + i, b)) (bs.take p.2) ++ cellsOf r (bs.drop p.2)

end Sys2Proof.Machine
end

