-- ==== Sys2Proof/Machine/Copy.lean ====
section
/-! DEFINITION. Copy engines: descriptors, claims, promises, the words CPY to CPYST, and the events of a command
(06_copy R85 to R94, R359 to R362). -/

namespace Sys2Proof.Machine

/-! ## Descriptors (R86, R87) -/

/-- The fields of the eight words of a descriptor. -/
def CopyDesc.ofWords (ws : List W64) : CopyDesc :=
  let w := fun i => ws.getD i 0
  { src := w 0, dst := w 1, sstride := (w 2).truncate 32, dstride := BitVec.ofNat 32 ((w 2).field 32 32),
    len := (w 3).truncate 32, qin := (w 3).bit 34, qfmt := BitVec.ofNat 2 ((w 3).field 32 2), idx := w 4, aux := w 5,
    pat := w 6, tag := (w 7).truncate 32 }

/-- Eight words of 64 bytes. -/
def wordsOf64 (bs : List Byte) : List W64 := (List.range 8).map (fun i => BitVec.ofNat 64 (leValue ((bs.drop (8 * i)).take 8)))

/-- The command moves rows between local memory and a window. -/
def CopyKind.isWindow : CopyKind → Bool
  | .cpywPut => true
  | .cpywGet => true
  | .cpy => false
  | .cpys => false
  | .cpyg => false
  | .cpyx => false
  | .cpyq => false
  | .stow => false
  | .restore => false

/-- The highest count (R93). -/
def CopyKind.maxCount (k : CopyKind) : Nat := if k = .cpy then 2 ^ 36 else 1048576

/-- Reserved fields are 0, values are in range, and a field that the command does not use is 0 (R87). -/
def descOk (k : CopyKind) (ws : List W64) (count : W64) : Bool :=
  let d := CopyDesc.ofWords ws
  let indexed := k == .cpyg || k == .cpyx
  (ws.getD 3 0).field 35 29 == 0 && (ws.getD 7 0).field 32 32 == 0 && decide (count.toNat ≤ k.maxCount) &&
    (if k = .cpyq then decide (d.qfmt.toNat < 2) else !d.qin && d.qfmt == 0) &&
    (if k = .cpy then d.len == 0 && d.sstride == 0 && d.dstride == 0
     else decide (1 ≤ d.len.toNat) && decide (d.len.toNat ≤ 16777216)) &&
    (indexed || d.idx == 0) && (k == .cpyq || k.isWindow || d.aux == 0) && (k.isWindow || d.pat == 0) &&
    (k != .cpywPut || d.dst == 0) && (k != .cpywGet || d.src == 0)

/-- Local addresses that the command uses, in the order of R87. -/
def localAddrs (k : CopyKind) (d : CopyDesc) : List W64 :=
  (if k = .cpywGet then [] else [d.src]) ++ (if k = .cpywPut then [] else [d.dst]) ++
    (if k = .cpyg ∨ k = .cpyx then [d.idx] else []) ++ (if k = .cpyq then [d.aux] else [])

/-- The first address that breaks R53 or R54. -/
def State.badAddr (s : State) (core vd : Nat) (as : List W64) : Option AccFault :=
  as.findSome? (fun a =>
    if !addrOk a then some { cause := .pageNotPresent, addr := a }
    else if sliceBase ≤ a.toNat ∧ (s.sliceAt core vd a.toNat).isNone then some { cause := .sliceRange, addr := a }
    else none)

/-- An own-slice address is resolved at issue (R92). -/
def resolved (core : Nat) (a : W64) : W64 := if aliasBase ≤ a.toNat then BitVec.ofNat 64 (ownSlice core a.toNat) else a

/-- The descriptor with its own-slice addresses resolved. -/
def CopyDesc.resolve (d : CopyDesc) (core : Nat) (k : CopyKind) : CopyDesc :=
  { d with src := resolved core d.src, dst := resolved core d.dst, idx := resolved core d.idx,
           aux := if k.isWindow then d.aux else resolved core d.aux }

/-! ## Rows -/

/-- Rows of a command, or for CPY its blocks of 4 KiB. -/
def rowCount (k : CopyKind) (count : Nat) : Nat := if k = .cpy then (count + 4095) / 4096 else count
/-- Elements of a CPYQ row. -/
def CopyDesc.elems (d : CopyDesc) : Nat := if d.qin then d.len.toNat / 2 else d.len.toNat / 4
/-- Bytes that row `i` moves, at its source. -/
def rowBytes (k : CopyKind) (d : CopyDesc) (count i : Nat) : Nat :=
  if k = .cpy then min 4096 (count - 4096 * i) else d.len.toNat
/-- Bytes that row `i` writes at DST. -/
def rowOut (k : CopyKind) (d : CopyDesc) (count i : Nat) : Nat := if k = .cpyq then d.elems else rowBytes k d count i
/-- Source address of row or index `i`. -/
def CopyDesc.srcRow (d : CopyDesc) (k : CopyKind) (i : Nat) : Int :=
  if k = .cpy then d.src.toNat + 4096 * i else d.src.toNat + i * d.sstride.toInt
/-- Destination address of row or index `i`. -/
def CopyDesc.dstRow (d : CopyDesc) (k : CopyKind) (i : Nat) : Int :=
  if k = .cpy then d.dst.toNat + 4096 * i else d.dst.toNat + i * d.dstride.toInt

/-- Pieces of a row at an exact address, which must not leave the region of its base (R94). -/
def State.rowPieces (s : State) (core vd : Nat) (k : AccKind) (base : W64) (a : Int) (n : Nat) :
    Except AccFault (List (Nat × Nat)) :=
  let f : AccFault := { addr := w64OfInt a, wr := k.writes }
  if sliceBase ≤ base.toNat then
    if a < sliceBase ∨ 2 ^ 56 < a + n then .error { f with cause := .sliceRange } else rangeOf (s.corePlace core vd k) a.toNat n
  else if a < 0 ∨ sliceBase < a + n then .error { f with cause := .pageNotPresent }
  else rangeOf (s.corePlace core vd k) a.toNat n

/-- Where row `i` of a command with claims writes its codes or bytes. -/
def State.rowPlace (s : State) (core vd : Nat) (k : CopyKind) (d : CopyDesc) (count i : Nat) :
    Except AccFault (List (Nat × Nat)) :=
  s.rowPieces core vd .store d.dst (d.dstRow k i) (rowOut k d count i)

/-- Address of the scales of row `i` of CPYQ (R359). -/
def CopyDesc.auxRow (d : CopyDesc) (i : Nat) : Nat := d.aux.toNat + i * (d.elems / 32)

/-- Where the scales of row `i` of CPYQ go: checked while the command runs (R87). -/
def State.auxPlace (s : State) (core vd : Nat) (d : CopyDesc) (i : Nat) : Except AccFault (List (Nat × Nat)) :=
  s.rowPieces core vd .store d.aux (d.auxRow i : Nat) (d.elems / 32)

/-- Where every row from `i` on writes, up to the first fault, with its row. -/
def State.rowPlaces (s : State) (core vd : Nat) (k : CopyKind) (d : CopyDesc) (count i n : Nat) :
    List (List (Nat × Nat)) × Option (AccFault × Nat) :=
  match n with
  | 0 => ([], none)
  | m + 1 =>
    match s.rowPlace core vd k d count i with
    | .error f => ([], some (f, i))
    | .ok p =>
      let r := s.rowPlaces core vd k d count (i + 1) m
      (p :: r.1, r.2)

/-- The pieces of the scales of every row of CPYQ that translate now: units that the command writes into. -/
def State.auxPieces (s : State) (core vd : Nat) (d : CopyDesc) (n : Nat) : List (Nat × Nat) :=
  (List.range n).flatMap (fun i =>
    match s.auxPlace core vd d i with
    | .ok ps => ps
    | .error _ => [])

/-! ## Claims (R88, R89) -/

/-- The destination is claimed: CPYX and CPYW put take none. -/
def CopyKind.claims : CopyKind → Bool
  | .cpyx => false
  | .cpywPut => false
  | .cpy => true
  | .cpys => true
  | .cpyg => true
  | .cpyq => true
  | .cpywGet => true
  | .stow => true
  | .restore => true

/-- Bounding ranges of the destination: lowest address and length. -/
def boundsOf (k : CopyKind) (d : CopyDesc) (count : Nat) : List (Int × Nat) :=
  if count = 0 ∨ !k.claims then []
  else
    let n := rowCount k count
    let last := (n - 1 : Nat) * (if k = .cpy then 4096 else d.dstride.toInt)
    let len := if k = .cpy then count else last.natAbs + rowOut k d count 0
    (d.dst.toNat + min 0 last, len) :: (if k = .cpyq then [((d.aux.toNat : Int), n * (d.elems / 32))] else [])

/-- A slice destination lies within one slice (R87). For CPYQ the element rows and the scale range are each tested by themselves, and may lie
in two slices, or one of them in device memory (DESIGN CHOICE, log entry 83). -/
def boundsInSlice (bs : List (Int × Nat)) (base : W64) : Bool :=
  bs.all (fun b => decide (base.toNat < sliceBase) ||
    (decide ((sliceBase : Int) ≤ b.1) && decide (keyOff b.1.toNat + b.2 ≤ Config.sliceBytes)))

/-- Keys of a claimed range, in whole units; pages that do not translate, or translate to host memory, hold no claim. -/
def extentFrom (place : Nat → Except AccFault Nat) (fuel a n : Nat) : List (Nat × Nat) :=
  match fuel with
  | 0 => []
  | k + 1 =>
    if n = 0 then []
    else
      let m := min n (0x10000 - a % 0x10000)
      let r := extentFrom place k (a + m) (n - m)
      match place a with
      | .error _ => r
      | .ok key =>
        if isHostKey key then r
        else
          let u := unitSize key
          (key / u * u, (key + m + u - 1) / u * u - key / u * u) :: r

/-- The extent of a command, as memory keys. -/
def State.extentsOf (s : State) (core vd : Nat) (bs : List (Int × Nat)) : List (Nat × Nat) :=
  bs.flatMap (fun b => extentFrom (s.corePlace core vd .store) (b.2 / 0x10000 + 2) b.1.toNat b.2)

/-- Units that pieces touch. -/
def unitsOf (ps : List (Nat × Nat)) : List Nat :=
  (ps.flatMap (fun p =>
    if p.2 = 0 ∨ isHostKey p.1 then []
    else
      let u := unitSize p.1
      (List.range ((p.1 + p.2 - 1) / u - p.1 / u + 1)).map (fun i => p.1 / u * u + i * u))).eraseDups

/-- Two extents overlap. -/
def rangesMeet (xs ys : List (Nat × Nat)) : Bool :=
  xs.any (fun x => ys.any (fun y => decide (x.1 < y.1 + y.2) && decide (y.1 < x.1 + x.2)))

/-- Channels that an extent touches. -/
def channelsOf (xs : List (Nat × Nat)) : List Nat :=
  (xs.flatMap (fun x =>
    if !isDeviceKey x.1 then []
    else if 0x4000 ≤ x.2 then List.range 32
    else (List.range ((x.1 + x.2 + 255) / 256 - x.1 / 256)).map (fun i => channelOf ((x.1 / 256 + i) * 256)))).eraseDups

/-- Slices that an extent lies in. -/
def slicesOf (xs : List (Nat × Nat)) : List Nat :=
  ((xs.filter (fun x => isSliceKey x.1)).map (fun x => keyCore x.1)).eraseDups

/-- Commands whose claims are granted, but for one. -/
def State.grantedOthers (s : State) (k : Nat) : List CopyCmd :=
  (s.copies.filter (fun p => p.1 != k && p.2.granted)).map (·.2)

/-- The claim of a command can be granted: no granted claim overlaps it, and every table that it needs has an entry. -/
def State.canGrant (s : State) (k : Nat) (c : CopyCmd) : Bool :=
  let os := s.grantedOthers k
  os.all (fun o => !rangesMeet c.extents o.extents) &&
    (slicesOf c.extents).all (fun x => decide (os.countP (fun o => (slicesOf o.extents).contains x) < 32)) &&
    (channelsOf c.extents).all (fun x => decide (os.countP (fun o => (channelsOf o.extents).contains x) < 64))

/-- The issuing core's L1 lines that a device claim overlaps are written back and invalidated (04_memory R56). -/
def State.flushExtents (s : State) (core : Nat) (xs : List (Nat × Nat)) : State :=
  (s.core core).l1.foldl (fun s l =>
    if xs.any (fun x => isDeviceKey x.1 && decide (x.1 < l.line * 128 + 128) && decide (l.line * 128 < x.1 + x.2)) then
      s.flushLine core l.line
    else s) s

/-- A key that no copy command has had. -/
def State.copyKey (s : State) : Nat := max s.made s.copies.fresh

/-- A command is created under a new key. -/
def State.putCopy (s : State) (k : Nat) (c : CopyCmd) : State :=
  { s with copies := s.copies.set k c, made := max s.made (k + 1) }

/-- The claim is granted: the command joins the claim order and its engine's queue. -/
def State.grant (s : State) (k : Nat) (c : CopyCmd) : State :=
  let s1 := s.flushExtents c.core c.extents
  { s1.putCopy k { c with granted := true, phase := .queued } with claims := s1.claims ++ [k] }

/-- Commands that a cluster's engine holds (R85). -/
def State.engineLoad (s : State) (cl : Nat) : Nat := s.copies.countP (fun p => clusterOf p.2.core == cl)

/-! ## Promises (R91) -/

/-- The page that holds an address lies in a slice or in device memory, as PROBE would see it. -/
def State.promisable (s : State) (core vd : Nat) (a : W64) : Bool :=
  if !addrOk a then false
  else if sliceBase ≤ a.toNat then true
  else
    match s.translate core vd a.toNat with
    | .leaf e _ _ => e.field 62 2 == 0
    | .missing _ => false
    | .uncorrectable _ => false

/-- The command has a promise. -/
def State.hasPromise (s : State) (core vd : Nat) (k : CopyKind) (np : Bool) (d : CopyDesc) : Bool :=
  !np && !k.isWindow && (localAddrs k d).all (s.promisable core vd)

/-- The promised completion time: beyond the issue cycle by at least one; how far is the device's own (log entry 9). -/
def State.promiseTime (s : State) (core : Nat) : W64 := s.cyc core + 1 + BitVec.ofNat 64 (Config.promiseSlack s.free)

/-! ## The source of a CPYW's window (R360) -/

/-- The window checks of a CPYW: every row within bounds; put needs WR, get RD. -/
def State.windowCheck (s : State) (k : CopyKind) (d : CopyDesc) (count : Nat) : Except AccFault Target :=
  let stride := if k = .cpywPut then d.dstride.toInt else d.sstride.toInt
  let last := (count - 1 : Nat) * stride
  let lo : Int := d.aux.field 0 48 + min 0 last
  let n := if count = 0 then 0 else last.natAbs + d.len.toNat
  let u : WinUse :=
    if k = .cpywPut then { perm := 58, kinds := [0, 1, 2], size := 1, wr := true }
    else { perm := 59, single := true, size := 1 }
  match s.sourceCheck s.curCore s.curVd (d.aux.field 48 16) (some d.pat) (d.aux.field 0 48) d.aux { u with size := 1 } with
  | .error f => if count = 0 ∧ f.cause = .windowBounds then .ok { ws := [], pat := 0, coords := [], off := 0 } else .error f
  | .ok t =>
    if count ≠ 0 ∧ (lo < 0 ∨ (entryWord t.ws 2).field 0 48 < lo + n ∨ 2 ^ 48 < (entryWord t.ws 1).field 0 48 + lo + n) then
      .error { cause := .windowBounds, addr := d.aux, wr := u.wr, rmt := true }
    else .ok t

/-! ## Issue (R85, R87, R93) -/

/-- The checks of R87 after the descriptor is read, in order. -/
def State.copyChecks (s : State) (k : CopyKind) (ws : List W64) (count : W64) : Option AccFault :=
  let d := CopyDesc.ofWords ws
  let core := s.curCore
  if !descOk k ws count then some (plainFault .reservedField)
  else
    match s.badAddr core s.curVd (localAddrs k d) with
    | some f => some f
    | none =>
      let r := d.resolve core k
      if (k = .cpyg ∨ k = .cpyx) ∧ d.idx.toNat % 4 ≠ 0 then some { cause := .misaligned, addr := d.idx }
      else if !boundsInSlice ((boundsOf k r count.toNat).take 1) r.dst then some { cause := .sliceRange, addr := d.dst, wr := true }
      else if !boundsInSlice ((boundsOf k r count.toNat).drop 1) r.aux then some { cause := .sliceRange, addr := d.aux, wr := true }
      else if k = .cpyq ∧ (d.len.toNat % (if d.qin then 64 else 128) ≠ 0 ∨ d.src.toNat % (if d.qin then 2 else 4) ≠ 0 ∨
          d.sstride.toNat % (if d.qin then 2 else 4) ≠ 0) then
        some { cause := .misaligned, addr := d.src }
      else if k.isWindow then
        match s.windowCheck k r count.toNat with
        | .error f => some f
        | .ok _ => none
      else none

/-- The command that a checked word creates: its places and extent as the issue sees them; a fault at the destination ends it
at once in error, with the failing row (R88, R92). -/
def State.newCopy (s : State) (k : CopyKind) (d : CopyDesc) (descAt : W64) (count cb gd : Nat) (np : Bool) : CopyCmd :=
  let core := s.curCore
  let vd := s.curVd
  let c : CopyCmd :=
    { vd := vd, team := s.grp.team, group := s.cur, core := core, kind := k, desc := d, descAt := descAt,
      count := count, cb := cb, np := np, gd := gd, gentag := s.grp.gentag,
      window := if k.isWindow then (s.windowEntry core vd (d.aux.field 48 16)).getD [] else [] }
  if !k.claims then c
  else
    let n := rowCount k count
    let ps := s.rowPlaces core vd k d count 0 n
    match ps.2 with
    | some f => { c with places := ps.1, err := some (f.1.cause, f.1.addr, f.2) }
    | none =>
      { c with places := ps.1, extents := s.extentsOf core vd (boundsOf k d count),
               held := unitsOf (ps.1.flatten ++ (if k = .cpyq then s.auxPieces core vd d n else [])) }

/-- The marks that the translation of the destination leaves: A and D of every page that a row touches. -/
def State.touchDest (s : State) (c : CopyCmd) : State :=
  if !c.kind.claims || c.err.isSome then s
  else
    (List.range (rowCount c.kind c.count)).foldl (fun s i =>
      s.touchRange c.core c.vd (c.desc.dstRow c.kind i).toNat (rowOut c.kind c.desc c.count i) .store) s

/-! ## A running command -/

/-- The index of a row of CPYG or CPYX. -/
def State.indexAt (s : State) (c : CopyCmd) (i : Nat) : Except AccFault Nat :=
  match s.rowPieces c.core c.vd .load c.desc.idx (c.desc.idx.toNat + 4 * i : Nat) 4 with
  | .error f => .error f
  | .ok ps =>
    match s.badOffset ps with
    | some o => .error { cause := .uncorrectable, addr := BitVec.ofNat 64 (c.desc.idx.toNat + 4 * i + o) }
    | none => .ok (leValue (s.readPieces ps))

/-- Where row `i` is read: its pieces, none for a row of zeros or of nothing. -/
def State.rowSource (s : State) (c : CopyCmd) (i : Nat) : Except AccFault (Option (List (Nat × Nat))) :=
  let n := rowBytes c.kind c.desc c.count i
  let at_ := fun (a : Int) =>
    match s.rowPieces c.core c.vd .load c.desc.src a n with
    | .error f => Except.error f
    | .ok ps =>
      match s.badOffset ps with
      | some o => .error { cause := .uncorrectable, addr := w64OfInt (a + (o : Nat)) }
      | none => .ok (some ps)
  match c.kind with
  | .cpyg =>
    (match s.indexAt c i with
    | .error f => .error f
    | .ok x => if x = 0xFFFFFFFF then .ok none else at_ (c.desc.src.toNat + x * c.desc.sstride.toInt))
  | .cpyx =>
    (match s.indexAt c i with
    | .error f => .error f
    | .ok x => if x = 0xFFFFFFFF then .ok none else at_ (c.desc.srcRow c.kind i))
  | _ => at_ (c.desc.srcRow c.kind i)

/-- Where row `i` is written: as the issue translated it, or for CPYX by its index now. -/
def State.rowTarget (s : State) (c : CopyCmd) (i : Nat) : Except AccFault (List (Nat × Nat)) :=
  if c.kind = .cpyx then
    match s.indexAt c i with
    | .error f => .error f
    | .ok x => s.rowPieces c.core c.vd .store c.desc.dst (c.desc.dst.toNat + x * c.desc.dstride.toInt) c.desc.len.toNat
  else .ok (c.places.getD i [])

/-- One block of 32 elements of CPYQ: scale, codes, and the clamps met (R359). -/
def quantBlock (f : Fmt) (xs : List Ext) : Nat × List Nat × Bool × Bool :=
  if xs.all (fun x => match x with
      | .fin _ m _ => m == 0
      | .inf _ => false
      | .nan => false) then (0, xs.map (fun _ => 0), false, false)
  else if xs.any (fun x => match x with
      | .fin _ _ _ => false
      | .inf _ => true
      | .nan => true) then (0xFF, xs.map (fun _ => 0x7F), false, false)
  else
    let mag := fun (x : Ext) => match x with
      | .fin _ m e => Ext.fin false m e
      | y => y
    let mx := (xs.map mag).foldl (fun a b => if Ext.lt a b then b else a) (.fin false 0 0)
    let r := e8m0Of mx f
    (r.1, xs.map (fun x => (f.encode .rn true (x.scale (127 - (r.1 : Int)))).1), r.2.1, r.2.2)

/-- The elements of a CPYQ row. -/
def quantElems (qin : Bool) (bs : List Byte) : List Ext :=
  let w := if qin then 2 else 4
  (List.range (bs.length / w)).map (fun i => exact (if qin then .bf16 else .fp32) (leValue ((bs.drop (w * i)).take w)))

/-- A quantised row: codes, scales, and the clamps met. -/
def quantRow (d : CopyDesc) (bs : List Byte) : List Byte × Bool × Bool :=
  let f : Fmt := if d.qfmt = 0 then .e4m3 else .e5m2
  let xs := quantElems d.qin bs
  let blocks := (List.range (xs.length / 32)).map (fun j => quantBlock f ((xs.drop (32 * j)).take 32))
  (blocks.flatMap (fun b => b.2.1.map (BitVec.ofNat 8)) ++ blocks.map (fun b => BitVec.ofNat 8 b.1),
    blocks.any (fun b => b.2.2.1), blocks.any (fun b => b.2.2.2))

/-- A row as it will be written: bytes at the pieces of the ranges. -/
def copyRowOf (i : Nat) (ranges : List (W64 × Nat)) (ps : List (Nat × Nat)) (bs : List Byte) : CopyRow :=
  { i := i, cells := cellsOf ps bs, ranges := ranges, pieces := ps }

/-- Where row `i` goes, by address: for CPYX by its index. -/
def State.rowRange (s : State) (c : CopyCmd) (i : Nat) : W64 × Nat :=
  let a : Int :=
    if c.kind = .cpyx then
      (match s.indexAt c i with
      | .ok x => c.desc.dst.toNat + x * c.desc.dstride.toInt
      | .error _ => c.desc.dst.toNat)
    else c.desc.dstRow c.kind i
  (w64OfInt a, rowOut c.kind c.desc c.count i)

/-- The row that a command will write, and whether a clamp was met; a row that moves nothing has no cells. -/
def State.copyRow (s : State) (c : CopyCmd) (i : Nat) : Except AccFault (CopyRow × Bool × Bool) :=
  match s.rowSource c i with
  | .error f => .error f
  | .ok none =>
    if c.kind = .cpyg then
      .ok (copyRowOf i [s.rowRange c i] (c.places.getD i []) (List.replicate c.desc.len.toNat 0), false, false)
    else .ok ({ i := i }, false, false)
  | .ok (some ps) =>
    match s.rowTarget c i with
    | .error f => .error f
    | .ok ts =>
      let bs := s.readPieces ps
      if c.kind = .cpyq then
        match s.auxPlace c.core c.vd c.desc i with
        | .error f => .error f
        | .ok as =>
          let q := quantRow c.desc bs
          .ok (copyRowOf i [s.rowRange c i, (BitVec.ofNat 64 (c.desc.auxRow i), c.desc.elems / 32)] (ts ++ as) q.1, q.2.1, q.2.2)
      else .ok (copyRowOf i [s.rowRange c i] ts bs, false, false)

/-- The rows from `i` on, up to the first fault. -/
def State.copyRows (s : State) (c : CopyCmd) (i n : Nat) : CopyCmd :=
  match n with
  | 0 => c
  | m + 1 =>
    match s.copyRow c i with
    | .error f => { c with err := some (f.cause, f.addr, i) }
    | .ok r =>
      s.copyRows { c with rows := c.rows ++ [r.1], qunder := c.qunder || r.2.1, qover := c.qover || r.2.2 }
        (i + 1) m

/-- Cuts `n` bytes into pieces that cross no boundary of 64 bytes, on either side: offset and length. -/
def cutFrom (fuel off key n : Nat) : List (Nat × Nat) :=
  match fuel with
  | 0 => []
  | k + 1 =>
    if n = 0 then []
    else
      let m := min n (min (64 - off % 64) (64 - key % 64))
      (off, m) :: cutFrom k (off + m) (key + m) (n - m)

/-- The pieces of row `i` of a CPYW: `base` is the row's offset in the window, `local_` its pieces here. -/
def windowPieces (i base : Nat) (local_ : List (Nat × Nat)) (bs : List Byte) : List CopyPiece :=
  match local_ with
  | [] => []
  | p :: r =>
    (cutFrom (2 * p.2 / 64 + 3) base p.1 p.2).map (fun x =>
      { row := i, off := x.1, n := x.2, key := p.1 + (x.1 - base), data := (bs.drop (x.1 - base)).take x.2 }) ++
      windowPieces i (base + p.2) r (bs.drop p.2)

/-- The offset in the window of row `i` of a CPYW. -/
def CopyCmd.windowRow (c : CopyCmd) (i : Nat) : Nat :=
  ((c.desc.aux.field 0 48 : Int) + i * (if c.kind = .cpywPut then c.desc.dstride.toInt else c.desc.sstride.toInt)).toNat

/-- The pieces of a CPYW from row `i` on, up to the first fault at the source. -/
def State.windowRows (s : State) (c : CopyCmd) (i n : Nat) : CopyCmd :=
  match n with
  | 0 => c
  | m + 1 =>
    if c.kind = .cpywGet then
      s.windowRows { c with pieces := c.pieces ++ windowPieces i (c.windowRow i) (c.places.getD i []) [] } (i + 1) m
    else
      match s.rowSource c i with
      | .error f => { c with err := some (f.cause, f.addr, i) }
      | .ok none => c
      | .ok (some ps) =>
        s.windowRows { c with pieces := c.pieces ++ windowPieces i (c.windowRow i) ps (s.readPieces ps) } (i + 1) m

/-- What a command reads, as pieces: its rows and its index list; a stow the parts of its segment. -/
def State.copySources (s : State) (c : CopyCmd) : List (Nat × Nat) :=
  if c.kind.isImage then c.places.flatten
  else (List.range (rowCount c.kind c.count)).flatMap (fun i =>
    (match s.rowSource c i with
      | .ok (some ps) => ps
      | .ok none => []
      | .error _ => []) ++
    (if c.kind = .cpyg ∨ c.kind = .cpyx then
      (match s.rowPieces c.core c.vd .load c.desc.idx (c.desc.idx.toNat + 4 * i : Nat) 4 with
        | .ok ps => ps
        | .error _ => [])
    else []))

/-- The commands before one in claim order. -/
def State.earlier (s : State) (k : Nat) : List CopyCmd :=
  (s.claims.takeWhile (· != k)).filterMap (fun n => s.copies.find n)

/-- A source of a command lies in a unit that an earlier command in claim order has not released (R89). -/
def State.sourceHeld (s : State) (k : Nat) (ps : List (Nat × Nat)) : Bool :=
  let es := s.earlier k
  ps.any (fun p => es.any (fun e => e.blocks p.1 p.2))

/-- Running commands of a cluster's engine. -/
def State.engineRunning (s : State) (cl : Nat) : Nat :=
  s.copies.countP (fun p => clusterOf p.2.core == cl && p.2.phase == .running)

/-- The first command in claim order that waits in a cluster's queue. -/
def State.firstQueued (s : State) (cl : Nat) : Option Nat :=
  s.claims.find? (fun n => match s.copies.find n with
    | some c => clusterOf c.core == cl && c.phase == .queued
    | none => false)

/-- The marks that running leaves: those of the sources, and for CPYQ those of the scales, which are checked now. -/
def State.touchSources (s : State) (c : CopyCmd) : State :=
  if c.kind = .cpywGet then s
  else
    (List.range (rowCount c.kind c.count)).foldl (fun s i =>
      let t := s.touchRange c.core c.vd (c.desc.srcRow c.kind i).toNat (rowBytes c.kind c.desc c.count i) .load
      if c.kind = .cpyq then t.touchRange c.core c.vd (c.desc.auxRow i) (c.desc.elems / 32) .store else t) s

/-- Host memory that a command reads is captured (17_command R296). -/
def State.captureHost (s : State) (vd : Nat) (ps : List (Nat × Nat)) : State :=
  (ps.filter (fun p => isHostKey p.1)).foldl (fun s p =>
    s.captureRead vd (BitVec.ofNat 64 (p.1 - hostKey 0)) (s.bytes p.1 p.2)) s

/-- COPY_CLAIM_GRANT of command `on.a` (R88). -/
def execCopyClaimGrant (s : State) : Out :=
  match s.copies.find s.on.a with
  | none => .next s
  | some c => if c.phase = .claiming ∧ s.canGrant s.on.a c then .next (s.grant s.on.a c).fire else .next s

/-- COPY_COMMAND_START of command `on.a` (R85, R90): the first in its engine's queue, with a slot free, once its word has
written gd. It reads its source as it stands now, once no earlier claim holds it. -/
def execCopyCommandStart (s : State) : Out :=
  let k := s.on.a
  match s.copies.find k with
  | none => .next s
  | some c =>
    let cl := clusterOf c.core
    if s.firstQueued cl = some k ∧ s.engineRunning cl < 4 ∧ (s.group c.group).copyWait ≠ some k then
      let c1 := { c with phase := .running }
      if s.sourceHeld k (s.copySources c) then .next s
      else if c.kind.isImage then .next { s with copies := s.copies.set k c1 }.fire
      else
        let s1 := (s.touchSources c).captureHost c.vd (s.copySources c)
        let c2 := if c.kind.isWindow then s.windowRows c1 0 c.count else s.copyRows c1 0 (rowCount c.kind c.count)
        .next { s1 with copies := s1.copies.set k c2 }.fire
    else .next s

/-- Consecutive cells as one run of bytes. -/
def runsOfCells (cs : List Host.Cell) : List (Nat × List Byte) :=
  match cs with
  | [] => []
  | (k, b) :: r =>
    match runsOfCells r with
    | (k', bs) :: t => if k' = k + 1 then (k, b :: bs) :: t else (k, [b]) :: (k', bs) :: t
    | [] => [(k, [b])]

/-- Cells are written, run by run. A CPYX's lines leave the issuing core's L1 first, so that the completion acquires them
(R97). -/
def State.writeCells (s : State) (cs : List Host.Cell) : State :=
  (runsOfCells cs).foldl (fun s r => s.writeKey r.1 r.2) s

/-- The runs would meet an uncorrectable granule in part. -/
def State.badCells (s : State) (cs : List Host.Cell) : Bool := (runsOfCells cs).any (fun r => s.poisonPartial r.1 r.2.length)

/-- The issuing core's lines under cells of a command without a claim are written back and invalidated. -/
def State.flushCells (s : State) (core : Nat) (cs : List Host.Cell) : State :=
  s.flushExtents core ((runsOfCells cs).map (fun r => (r.1, r.2.length)))

/-- Units are released before completion: CPY, and CPYS whose rows do not overlap (R89). -/
def CopyCmd.recallable (c : CopyCmd) : Bool :=
  c.kind == .cpy || (c.kind == .cpys && (decide (c.count ≤ 1) || decide (c.desc.len.toNat ≤ c.desc.dstride.toInt.natAbs)))

/-- The unit that the command writes next: that of its first byte left, for it writes rows and bytes in ascending order (R89). -/
def CopyCmd.nextUnit (c : CopyCmd) : Option Nat := ((c.rows.flatMap (·.cells)).head?).map (fun x => unitOf x.1)

/-- The key that an address names, whatever its page permits. -/
def State.keyAt (s : State) (core vd : Nat) (ea : W64) : Option Nat :=
  if !addrOk ea then none
  else if sliceBase ≤ ea.toNat then s.sliceAt core vd ea.toNat
  else
    match s.translate core vd ea.toNat with
    | .leaf e _ sz => some (leafKey e sz ea.toNat)
    | .missing _ => none
    | .uncorrectable _ => none

/-- The sized lane access that a word is: its operands and its bytes. -/
def sizedAccess (i : Instr) : Option (LaneMem × Nat) :=
  match i with
  | .ld8 f => some (f, 1)
  | .ld16 f => some (f, 2)
  | .ld32 f => some (f, 4)
  | .ld64 f => some (f, 8)
  | .ld128 f => some (f, 16)
  | .st8 f => some (f, 1)
  | .st16 f => some (f, 2)
  | .st32 f => some (f, 4)
  | .st64 f => some (f, 8)
  | .st128 f => some (f, 16)
  | _ => none

/-- The indexed lane access or lane atomic that a word is: its operands, and whether the index is scaled into the address. -/
def indexedAccess (i : Instr) : Option (LaneMemIdx × Bool) :=
  match i with
  | .ldx f => some (f, true)
  | .stx f => some (f, true)
  | .aadd f => some (f, false)
  | .amin f => some (f, false)
  | .amax f => some (f, false)
  | .aumin f => some (f, false)
  | .aumax f => some (f, false)
  | .aand f => some (f, false)
  | .aor f => some (f, false)
  | .axor f => some (f, false)
  | .axch f => some (f, false)
  | .acas f => some (f, false)
  | .afadd f => some (f, false)
  | _ => none

/-- The group access that a word is: the operands of its address, and its bytes. -/
def groupAccess (i : Instr) : Option (List Opnd × Nat) :=
  match i with
  | .gld32 f => some ([f.a, f.b], 4)
  | .gld64 f => some ([f.a, f.b], 8)
  | .gst32 f => some ([f.a, f.b], 4)
  | .gst64 f => some ([f.a, f.b], 8)
  | .gatom f => some ([f.a], 8)
  | _ => none

/-- The addresses that a waiting memory word of the executing group names, and the bytes at each. -/
def State.waitedAddrs (s : State) (i : Instr) : List W64 × Nat :=
  let run := fun (p : Fin 4) => s.grp.run.filter (fun t => lmGuard p (s.grp.thread t))
  match sizedAccess i, indexedAccess i, groupAccess i with
  | some (f, n), _, _ =>
    let ks := (s.take [f.a]).1
    ((run f.pg).map (fun t => s.laneEa (s.lv ks 0 t) (f.off.toInt * n)), n)
  | none, some (f, scaled), _ =>
    let ks := (s.take [f.a, f.b]).1
    ((run f.pg).map (fun t => if scaled then s.indexEa (s.lv ks 0 t) (s.lv ks 1 t) else s.laneEa (s.lv ks 0 t) 0), 4)
  | none, none, some (os, n) =>
    ([(((s.take os).1).map (fun k => k.group s.grp true)).foldl (· + ·) 0], n)
  | none, none, none => ([], 0)

/-- A waiting access of a thread or a group overlaps the unit. -/
def State.groupWaitsOn (s : State) (k u : Nat) : Bool :=
  match (s.group k).waitWord with
  | none => false
  | some i =>
    let x := { s with cur := k }
    let a := x.waitedAddrs i
    a.1.any (fun ea => match x.keyAt x.curCore x.curVd ea with
      | none => false
      | some key => decide (key < u + unitSize u) && decide (u < key + a.2))

/-- A waiting arrival overlaps the unit: a host access by its range; where a fabric request lands is not looked up, and any unit may be moved
forward for it. -/
def arrivalOn (a : Instr × On) (u : Nat) : Bool :=
  match a.1 with
  | .hostCxlMemRead => decide (a.2.a < u + unitSize u) && decide (u < a.2.a + a.2.b)
  | .hostCxlMemWrite k bs => decide (k < u + unitSize u) && decide (u < k + bs.length)
  | _ => true

/-- Some access waits on the unit: it is recalled, and moves to the front of the command's remaining writes (R89). -/
def State.recalled (s : State) (u : Nat) : Bool :=
  s.groups.any (fun p => p.2.live && s.groupWaitsOn p.1 u) || s.arrivals.any (fun a => arrivalOn a u)

/-- COPY_UNIT_RELEASE of unit `on.b` of command `on.a` (R89): the last byte that the command writes into the unit is written. Units are
written in ascending order, but for one that is recalled. -/
def execCopyUnitRelease (s : State) : Out :=
  match s.copies.find s.on.a with
  | none => .next s
  | some c =>
    let u := s.on.b
    let inU := fun (x : Host.Cell) => decide (u ≤ x.1) && decide (x.1 < u + unitSize u)
    let cs := c.rows.flatMap (fun r => r.cells.filter inU)
    if c.phase = .running ∧ c.recallable ∧ c.err = none ∧ c.held.contains u ∧ !s.badCells cs ∧
        (c.nextUnit = some u ∨ s.recalled u) then
      let s1 := s.writeCells cs
      let c1 := { c with held := c.held.filter (· != u),
                         rows := c.rows.map (fun r => { r with cells := r.cells.filter (fun x => !inU x) }) }
      .next { s1 with copies := s1.copies.set s.on.a c1 }.fire
    else .next s

/-- How far into pieces a key lies. -/
def offsetIn (ps : List (Nat × Nat)) (key : Nat) : Nat :=
  match ps with
  | [] => 0
  | p :: r => if p.1 ≤ key ∧ key < p.1 + p.2 then key - p.1 else p.2 + offsetIn r key

/-- The address that stands so far into the ranges of a row. -/
def addressIn (rs : List (W64 × Nat)) (off : Nat) : W64 :=
  match rs with
  | [] => 0
  | r :: t => if off < r.2 ∨ t.isEmpty then r.1 + BitVec.ofNat 64 off else addressIn t (off - r.2)

/-- The address of the first byte of a row that meets an uncorrectable granule in part (R92). -/
def State.failAddress (s : State) (r : CopyRow) : W64 :=
  let runs := runsOfCells r.cells
  match runs.find? (fun x => s.poisonPartial x.1 x.2.length) with
  | none => addressIn r.ranges 0
  | some x =>
    let j := ((List.range x.2.length).find? (fun j => s.lostByte x.1 x.2.length (x.1 + j))).getD 0
    addressIn r.ranges (offsetIn r.pieces (x.1 + j))

/-- The remaining rows are written in ascending order, up to one that meets an uncorrectable granule in part: the state, and that row. -/
def State.writeRows (s : State) (c : CopyCmd) (rs : List CopyRow) : State × Option CopyRow :=
  match rs with
  | [] => (s, none)
  | r :: t =>
    if s.badCells r.cells then (s, some r)
    else
      let s1 := if c.kind = .cpyx then s.flushCells c.core r.cells else s
      State.writeRows (s1.writeCells r.cells) c t

/-- The command ends: its claim is released, it leaves the engine, and its arrival is delivered (R92, R93). One that ends after its
promised time is noted for its group (R91). A CPYQ that is cancelled, or stopped by an uncorrectable destination, raises the flags of every
row that it took when it started: whether rows that it did not write count is left open (DESIGN CHOICE, log entry 84). -/
def State.endCopy (s : State) (k : Nat) (c : CopyCmd) (e : Option ArrErr) : State :=
  let s1 := { s with copies := s.copies.erase k, claims := s.claims.filter (· != k) }
  let s2 := if c.qunder || c.qover then s1.updGroup c.group (fun g => g.raiseQ c.qunder c.qover) else s1
  let s3 := if s.pastPromise c.core c && !c.missed then s2.updGroup c.group (fun g => { g with late := g.late ++ [c.descAt] }) else s2
  s3.arrive c.team c.cb 1 e

/-- The error record of a command. -/
def CopyCmd.errRec (c : CopyCmd) : Option ArrErr := c.err.map (fun e => arrErr e.1 e.2.1 e.2.2)

/-- Rows that a CPYW has completed when it is cancelled: those before the first with a piece not sent. -/
def CopyCmd.rowsSent (c : CopyCmd) : Nat :=
  match c.pieces with
  | [] => c.count
  | p :: _ => p.row

/-- A piece of a CPYW is sent: until a failure at some row, and of the rows before it (R92). -/
def CopyCmd.sends (c : CopyCmd) (p : CopyPiece) : Bool :=
  match c.err with
  | none => true
  | some e => decide (p.row < e.2.2)

/-- COPY_COMMAND_COMPLETE of command `on.a` (R92, R93, R97). -/
def execCopyCommandComplete (s : State) : Out :=
  let k := s.on.a
  match s.copies.find k with
  | none => .next s
  | some c =>
    if c.phase != .running || c.kind.isImage then .next s
    else if c.kind.isWindow then
      (if c.tags.isEmpty && !c.pieces.any c.sends then
        .next (s.endCopy k c (if c.cancelled then some { cause := 0, addr := 0, idx := c.count } else c.errRec)).fire
      else .next s)
    else
      let all := c.rows.flatMap (·.cells)
      if c.kind = .cpy && !s.badCells all then .next ((s.writeCells all).endCopy k c c.errRec).fire
      else
        let r := s.writeRows c c.rows
        let e := match r.2 with
          | none => c.errRec
          | some x => some (arrErr .uncorrectable (s.failAddress x) x.i)
        .next (r.1.endCopy k c e).fire

/-- A CPYW sends its next piece, if it can (R360). -/
def State.pumpCopy (s : State) (k : Nat) (c : CopyCmd) : State :=
  match c.pieces with
  | [] => s
  | p :: r =>
    let ws := c.window
    let v := s.vdev c.vd
    let t : Target :=
      { ws := ws, pat := c.desc.pat, coords := targetsOf v ws c.desc.pat { perm := 0, size := 1 },
        off := (entryWord ws 1).field 0 48 + p.off }
    if c.phase = .running ∧ c.sends p ∧ s.canSend c.vd 4 [t] then
      let get := c.kind == .cpywGet
      let s1 := { s with copies := s.copies.set k { c with pieces := r, tags := c.tags ++ [s.sends] } }
      (s1.sendReq { vd := c.vd, group := c.group, t := t, vc := 4, kind := if get then 8 else 7, size := p.n,
                    data := p.data, gentag := c.gentag,
                    rk := .copy k p.row p.key (BitVec.ofNat 64 (c.desc.aux.field 48 16 * 2 ^ 48 + p.off)) }).fire
    else s

/-! ## Issue, in order (R85) -/

/-- A command that fails at its destination when it claims (R88): the rows before the failing one move first, for they are written (R92). -/
def CopyCmd.head (c : CopyCmd) : Nat :=
  match c.err with
  | some e => e.2.2
  | none => 0

/-- Those rows wait: on claims at their sources or at their places. -/
def State.headWaits (s : State) (c : CopyCmd) : Bool :=
  (List.range c.head).any (fun i =>
    (c.places.getD i []).any (fun p => s.claimed p.1 p.2) ||
    (match s.rowSource c i with
    | .ok (some ps) => ps.any (fun p => s.claimed p.1 p.2)
    | .ok none => false
    | .error _ => false))

/-- The command completes at once in error, with the rows before the failing one written (R88, R92). A row of these that fails itself is
the failing row. -/
def State.endInError (s : State) (c : CopyCmd) : State :=
  let n := c.head
  let c1 := if c.kind.isWindow then { c with err := none } else s.copyRows { c with err := none } 0 n
  let s1 := (s.touchDest { c with count := if c.kind = .cpy then 4096 * n else n, err := none }).flushCells c.core (c1.rows.flatMap (·.cells))
  let r := s1.writeRows c1 c1.rows
  let e := match r.2, c1.err with
    | some x, _ => some (arrErr .uncorrectable (s1.failAddress x) x.i)
    | none, some e => some (arrErr e.1 e.2.1 e.2.2)
    | none, none => c.errRec
  let s2 := if c1.qunder || c1.qover then r.1.updGroup c.group (fun g => g.raiseQ c1.qunder c1.qover) else r.1
  s2.arrive c.team c.cb 1 e

/-- A copy word's checks and effect: `src` are the window address operands' values. -/
def State.copyIssue (s s1 : State) (k : CopyKind) (dst : Option Opnd) (np : Bool) (cb : Nat) (ga gb : W64) : GRes :=
  let core := s1.curCore
  let give := fun (x : State) (v : W64) =>
    match dst with
    | some o => x.writeGroup o v
    | none => x
  match s1.grp.copyWait with
  | some n =>
    let c := s1.copies.get n {}
    if c.phase = .claiming then .wait
    else
      let s2 := s1.setGrp { s1.grp with copyWait := none }
      if s1.hasPromise core s1.curVd k np c.desc && c.phase != .done then
        let p := s2.promiseTime core
        .done ((give { s2 with copies := s2.copies.set n { c with promise := some p } } p).draw)
      else .done (give s2 0)
  | none =>
    if ga.toNat % 64 ≠ 0 then .fault { cause := .misaligned, addr := ga }
    else if s1.blocked core s1.curVd ga 64 .load false then .wait
    else
      let r := s1.performLoad core s1.curVd ga 64 false
      match r.2 with
      | .error f => .fault f
      | .ok bs =>
        let ws := wordsOf64 bs
        match s1.copyChecks k ws gb with
        | some f => .fault f
        | none =>
          let d := (CopyDesc.ofWords ws).resolve core k
          let promised := s1.hasPromise core s1.curVd k np d
          if gb = 0 then
            .done (give (r.1.arrive s1.grp.team cb 1 none) (if promised then s1.cyc core + 1 else 0))
          else if s1.counterFull s1.cur || decide (64 ≤ s1.engineLoad (clusterOf core)) || s1.dirtyClaimed core then .wait
          else
            let c := s1.newCopy k d ga gb.toNat cb (match dst with
              | some o => regNum o
              | none => 0) np
            let n := s1.copyKey
            let prep := fun (x : State) =>
              let y := (x.cleanAll core).touchDest c
              if k.isWindow then y.keepWindow core y.curVd (d.aux.field 48 16) else y
            if c.err.isSome then
              (if s1.headWaits c then .wait
              else
                let s2 := (prep r.1).endInError c
                .done ((give s2 (if promised then s2.promiseTime core else 0)).draw))
            else if !k.claims || s1.canGrant n c then
              let s2 := (prep r.1).grant n c
              if promised then
                let p := s2.promiseTime core
                .done ((give { s2 with copies := s2.copies.set n { (s2.copies.get n {}) with promise := some p } } p).draw)
              else .done (give s2 0)
            else
              let s2 := prep s
              .hold ((s2.putCopy n c).setGrp { s2.grp with copyWait := some n })

/-- CPY, CPYS, CPYG, CPYX and CPYQ. -/
def State.copyWord (s : State) (i : Instr) (k : CopyKind) (f : GrpCpy) : Out :=
  .next (s.groupWord i { srcs := [{ o := f.a }, { o := f.b }], dest := destOf f.d 1 }
    (fun s1 vs => s.copyIssue s1 k (some f.d) f.np f.cb.val (gv vs 0) (gv vs 1)))

/-- CPY (R94). -/
def execCpy (f : GrpCpy) (s : State) : Out := s.copyWord (.cpy f) .cpy f
/-- CPYS (R94). -/
def execCpys (f : GrpCpy) (s : State) : Out := s.copyWord (.cpys f) .cpys f
/-- CPYG (R94). -/
def execCpyg (f : GrpCpy) (s : State) : Out := s.copyWord (.cpyg f) .cpyg f
/-- CPYX (R94). -/
def execCpyx (f : GrpCpy) (s : State) : Out := s.copyWord (.cpyx f) .cpyx f
/-- CPYQ (R359). -/
def execCpyq (f : GrpCpy) (s : State) : Out := s.copyWord (.unlisted (.cpyq f)) .cpyq f
/-- CPYW (R360). -/
def execCpyw (a b : Opnd) (get : Bool) (cb : Fin 16) (s : State) : Out :=
  .next (s.groupWord (.unlisted (.cpyw a b get cb)) { srcs := [{ o := a }, { o := b }] }
    (fun s1 vs => s.copyIssue s1 (if get then .cpywGet else .cpywPut) none true cb.val (gv vs 0) (gv vs 1)))

/-! ## MISSED_PROMISE (R91) -/

/-- A copy word that waits at issue has not been performed: its command is withdrawn (R92). -/
def State.withdrawCopy (s : State) (k : Nat) : State :=
  match (s.group k).copyWait with
  | none => s
  | some n =>
    { s with copies := s.copies.erase n, claims := s.claims.filter (· != n) }.setGroup k { s.group k with copyWait := none }

/-- MISSED_PROMISE of group `on.a`: a trap before the next word, at which `trappc` points. -/
def execMissedPromise (s : State) : Out :=
  let k := s.on.a
  match s.promiseDue k, (s.group k).issuePc with
  | some at_, some pc =>
    if !(s.group k).live || (s.group k).held then .next s
    else
      let s1 := ((s.takePromise k).unhint k).withdrawCopy k
      let g := s1.group k
      let s2 := s1.setGroup k { g with waitWord := none, sleepLeft := none, inPipe := false }
      .next (s2.trapWith k ((s2.group k).ownRec { cause := .missedPromise, addr := at_ }) pc
        (maskOf (s2.group k).run)).fire
  | _, _ => .next s

/-! ## CPYC and CPYST (R361, R362) -/

/-- Rows or blocks that a cancelled command has completed: those before the first with cells left. -/
def CopyCmd.rowsDone (c : CopyCmd) : Nat :=
  match c.rows.find? (fun r => !r.cells.isEmpty) with
  | some r => if c.phase = .running then r.i else 0
  | none =>
    if c.phase = .running then
      (match c.err with
      | none => rowCount c.kind c.count
      | some e => e.2.2)
    else 0

/-- The word of the command has not come to the end of its issue: it waits for its claim, or has still to write gd (R85). No other word
counts or cancels the command yet. -/
def State.issuing (s : State) (n : Nat) : Bool := s.groups.any (fun p => p.2.copyWait == some n)

/-- The commands that CPYC matches: the team's own, on the barrier, with the tag, whose words have issued. -/
def State.cancelled (s : State) (team cb : Nat) (tag : W32) (all : Bool) : List Nat :=
  s.copies.keysWhere (fun n c => c.team == team && c.cb == cb && !s.issuing n && !c.kind.isImage && (all || c.desc.tag == tag))

/-- One command is cancelled: at once, or where requests are outstanding once they are answered. -/
def State.cancelOne (s : State) (k : Nat) : State :=
  let c := s.copies.get k {}
  if c.tags.isEmpty then
    s.endCopy k c (some { cause := 0, addr := 0, idx := if c.kind.isWindow then (if c.phase = .running then c.rowsSent else 0)
                                                        else c.rowsDone })
  else { s with copies := s.copies.set k { c with cancelled := true, pieces := [], count := c.rowsSent } }

/-- CPYC. -/
def execCpyc (f : GrpDA) (all : Bool) (cb : Fin 16) (s : State) : Out :=
  .next (s.groupWord (.unlisted (.cpyc f all cb)) { srcs := [{ o := f.a }], dest := destOf f.d 1 } (fun s1 vs =>
    match s1.grp.cancelWait with
    | some (ks, n) =>
      if ks.any (fun k => (s1.copies.find k).isSome) then .wait else .done (s1.writeGroup f.d (BitVec.ofNat 64 n))
    | none =>
      let ks := s1.cancelled s1.grp.team cb.val ((gv vs 0).truncate 32) all
      let s2 := ks.foldl State.cancelOne s1
      let left := ks.filter (fun k => (s2.copies.find k).isSome)
      if left.isEmpty then .done (s2.writeGroup f.d (BitVec.ofNat 64 ks.length))
      else
        let s3 := ks.foldl State.cancelOne s
        .hold (s3.setGrp { s3.grp with cancelWait := some (left, ks.length) })))

/-- The team's outstanding commands that name a barrier. -/
def State.cbCommands (s : State) (team cb : Nat) : List CopyCmd :=
  (s.copies.filter (fun p => p.2.team == team && p.2.cb == cb && !p.2.kind.isImage && !s.issuing p.1)).map (·.2)

/-- The commands of teams that a cluster's engine holds, running ones among them. -/
def State.engineCommands (s : State) (cl : Nat) : Nat :=
  s.copies.countP (fun p => clusterOf p.2.core == cl && !p.2.kind.isImage && !s.issuing p.1)

/-- The status that CPYST returns. -/
def State.copyStatus (s : State) (team cb : Nat) : W64 :=
  let cs := s.cbCommands team cb
  let p := (cs.filterMap (·.promise)).foldl (fun m x => if m.toNat < x.toNat then x else m) (0 : W64)
  BitVec.ofNat 64 (p.field 0 32 * 2 ^ 32 + min 0xFFFF (s.engineCommands (clusterOf (s.team team).core)) * 2 ^ 16 +
    min 0xFFFF cs.length)

/-- Status waits that a group may hold (07_registers R105). -/
def maxStatusWaits : Nat := 7

/-- A word with WT: its register pends until the status wait ends. -/
def State.statusWait (s : State) (d : Opnd) (k : StatusKind) : State :=
  s.setGrp { s.grp.setState (regNum d) .pending with waits := s.grp.waits ++ [(regNum d, k)] }

/-- CPYST. -/
def execCpyst (d : Opnd) (wt : Bool) (cb : Fin 16) (s : State) : Out :=
  .next (s.groupWord (.unlisted (.cpyst d wt cb)) { dest := destOf d 1, counts := wt, ok := !wt || d.isReg } (fun s1 _ =>
    if !wt then .done (s1.writeGroup d (s1.copyStatus s1.grp.team cb.val))
    else if maxStatusWaits ≤ s1.grp.waits.length then .wait
    else .done (s1.statusWait d (.cpyst cb.val))))

end Sys2Proof.Machine
end

