-- ==== Sys2Proof/Machine/TableMath.lean ====
section
/-! DEFINITION. Arithmetic of the table unit: A elements, table entries, B codes and the exact sum of a step (10_table R162 to
R167, 03_numbers R43, R48, R50). -/

namespace Sys2Proof.Machine

/-! ## Formats -/

/-- AFMT is an A format (R162). -/
def aFmtOk (afmt : Nat) : Bool := decide (afmt ≤ 8) && afmt != 5

/-- Value of an A element's code (R162). -/
def aValue (afmt code : Nat) : Ext :=
  if afmt = 0 then exact .e4m3 code
  else if afmt = 1 then exact .e5m2 code
  else if afmt = 2 then exact .e2m3 (code % 64)
  else if afmt = 3 then exact .e3m2 (code % 64)
  else if afmt = 4 then exact .e2m1 (code % 16)
  else if afmt = 6 then exact .bf16 code
  else if afmt = 7 then exact .fp16 code
  else Ext.ofInt (signedOf 8 code)

/-- Element `k` of an A row (R162). -/
def aElement (afmt : Nat) (row : List Byte) (k : Nat) : Ext :=
  let at_ (i : Nat) : Nat := (row.getD i 0).toNat
  if afmt = 4 then aValue 4 (at_ (k / 2) / 16 ^ (k % 2) % 16)
  else if afmt = 6 ∨ afmt = 7 then aValue afmt (at_ (2 * k) + 256 * at_ (2 * k + 1))
  else aValue afmt (at_ k)

/-- Format of a BFMT code below 5 (R168). -/
def bFmt (bfmt : Nat) : Fmt :=
  if bfmt = 0 then .e4m3 else if bfmt = 1 then .e5m2 else if bfmt = 2 then .e2m3 else if bfmt = 3 then .e3m2 else .e2m1

/-- Mantissa width m of a BFMT code (R164). -/
def bMant (bfmt : Nat) : Nat := if bfmt = 5 then 0 else (bFmt bfmt).mant

/-- Code planes of a BFMT code (R163). -/
def bPlanes (bfmt : Nat) : Nat := if bfmt = 5 then 8 else (bFmt bfmt).bits

/-! ## Table entries (R167) -/

/-- FP32 code of half a value. -/
def halfCode (x : Ext) : W32 := (roundFp32 .rn (x.scale (-1))).1

/-- Sum of special and exact values (R48); the empty sum is +0. -/
def sumExt (l : List Ext) : Ext :=
  match l with
  | [] => .fin false 0 0
  | x :: r => r.foldl (fun a b => (a.add .rn b).1) x

/-- Entries of one row of a G1 table: `n` elements, `2 ^ m` multiples of each. -/
def g1Row (m n : Nat) (a : Nat → Ext) : List W32 :=
  (List.range n).flatMap (fun k => (List.range (2 ^ m)).map (fun j => halfCode ((a k).mul (.fin false (2 ^ m + j) (-(m : Int)))).1))

/-- Entries of one row of a G4 SGN table: 32 groups of 8 signed sums. -/
def sgnRow (a : Nat → Ext) : List W32 :=
  (List.range 32).flatMap (fun g => (List.range 8).map (fun i =>
    halfCode (sumExt ((List.range 3).map (fun q => if natBit i q then a (4 * g + q) else (a (4 * g + q)).neg) ++ [a (4 * g + 3)]))))

/-- Entries of one row of a G4 SUB table: 16 groups of 16 subset sums. -/
def subRow (a : Nat → Ext) : List W32 :=
  (List.range 16).flatMap (fun g => (List.range 16).map (fun i =>
    halfCode (sumExt ((((List.range 4).filter (natBit i)).map (fun q => a (4 * g + q)))))))

/-! ## Terms (R164, R165) -/

/-- The value that the unit uses for a stored code: twice it. -/
def entryValue (w : W32) : Ext := (fp32 w).scale 1

/-- Term of a G1 weight code; `t j` is T[j] of the activation. T[0] is the activation itself, which gives the terms that the
multiples do not: those of an infinite activation or of a zero. -/
def g1Term (bfmt code : Nat) (t : Nat → Ext) : Ext :=
  if bfmt = 5 then (if ds8Value code = 0 then .fin false 0 0 else ((ds8Exact code).mul (t 0)).1)
  else
    let f := bFmt bfmt
    let mag := code % 2 ^ (f.bits - 1)
    let neg := natBit code (f.bits - 1)
    let e := mag / 2 ^ f.mant
    let j := mag % 2 ^ f.mant
    let signed (x : Ext) : Ext := if neg then x.neg else x
    if mag = 0 then .fin false 0 0
    else
      match exact f code with
      | .nan => .nan
      | .inf n => ((Ext.inf n).mul (t 0)).1
      | .fin n c k =>
        if e = 0 then
          match t 0, t j with
          | .fin n0 m0 k0, .fin nj mj kj =>
            if m0 = 0 ∧ mj = 0 then ((Ext.fin n c k).mul (t 0)).1
            else signed ((((Ext.fin nj mj kj).add .rn (Ext.fin n0 m0 k0).neg).1).scale (1 - (f.bias : Int)))
          | .inf n0, .inf nj => if n0 = nj then signed (.inf n0) else .nan
          | a, b => signed ((b.add .rn a.neg).1)
        else signed ((t j).scale ((e : Int) - f.bias))

/-- Term of a G4 group at plane `p` of `planes`: index `i`, and the group's entries. -/
def g4Term (sgn : Bool) (planes p i : Nat) (e : Nat → Ext) : Ext :=
  let x := if sgn then (if 8 ≤ i then e (i - 8) else (e (7 - i)).neg)
           else if p + 1 = planes then (e i).neg else e i
  x.scale p

/-! ## B blocks (R163) -/

/-- Plane rows of a block: 16 bytes each, as numbers; bit c is column c. -/
def planeRows (bs : List Byte) (n : Nat) : List Nat :=
  match n with
  | 0 => []
  | k + 1 => leValue (bs.take 16) :: planeRows (bs.drop 16) k

/-- Size of a step's B block. -/
def bBlockSize (g4 sgn sp : Bool) (bfmt planes : Nat) : Nat :=
  if g4 then planes * (if sgn then 128 else 64) * 16
  else bPlanes bfmt * 512 + (if sp then 1024 else 0)

/-- A number whose bit `i` is bit `c` of the plane row that `at_ i` names. -/
def columnBits (rows : List Nat) (c n : Nat) (at_ : Nat → Nat) : Nat :=
  (List.range n).foldl (fun v i => v + bitNat (natBit (rows.getD (at_ i) 0) c) * 2 ^ i) 0

/-- The codes of column `c` in a G1 block, each with its K index. -/
def g1Column (rows : List Nat) (bfmt : Nat) (sp : Bool) (c : Nat) : List (Nat × Nat) :=
  let p := bPlanes bfmt
  (List.range 32).map (fun q =>
    let code := columnBits rows c p (fun i => i * 32 + q)
    if sp then
      let pos := columnBits rows c 4 (fun x => p * 32 + x * 16 + q / 2)
      (4 * (q / 2) + pos / 4 ^ (q % 2) % 4, code)
    else (q, code))

/-- The group indices of column `c` in a G4 block: plane, group and index. -/
def g4Column (rows : List Nat) (sgn : Bool) (planes c : Nat) : List (Nat × Nat × Nat) :=
  let k := if sgn then 128 else 64
  (List.range planes).flatMap (fun p => (List.range (k / 4)).map (fun g =>
    (p, g, columnBits rows c 4 (fun q => p * k + 4 * g + q))))

/-- The exact sums of a step (R166): for each row's entries and each column below NE. -/
def stepSums (g4 sgn sp : Bool) (bfmt planes ne : Nat) (block : List Byte) (rows : List (List W32)) : List (List Ext) :=
  let pr := planeRows block ((bBlockSize g4 sgn sp bfmt planes) / 16)
  if g4 then
    let w := if sgn then 8 else 16
    let cols := (List.range ne).map (g4Column pr sgn planes)
    rows.map (fun es => cols.map (fun col => sumExt (col.map (fun x =>
      g4Term sgn planes x.1 x.2.2 (fun i => entryValue (es.getD (x.2.1 * w + i) 0))))))
  else
    let m := bMant bfmt
    let cols := (List.range ne).map (g1Column pr bfmt sp)
    rows.map (fun es => cols.map (fun col => sumExt (col.map (fun x =>
      g1Term bfmt x.2 (fun j => entryValue (es.getD (x.1 * 2 ^ m + j) 0))))))

/-! ## Accumulators (R166, R369) -/

/-- Rewrites every element of an accumulator: row, column, value. -/
def Acc.rewrite (a : Acc) (f : Nat → Nat → W32 → W32) : Acc :=
  { a with vals := (List.range 2048).filterMap (fun e =>
      let v := f (e / 128) (e % 128) (a.vals.get e 0)
      if v = 0 then none else some (e, v)) }

/-- The sums of a step go into an accumulator, or into a slot (R166). -/
def Acc.takeSums (a : Acc) (sums : List (List Ext)) (pm : Bool) : Acc :=
  { a.rewrite (fun r c old =>
      match (sums.getD r [])[c]? with
      | none => old
      | some x => (roundFp32 .rn (if pm then x else ((fp32 old).add .rn x).1)).1) with full := true }

/-- The sums of a step as a slot takes them: each rounded once (R166). -/
def roundSums (sums : List (List Ext)) : List (List W32) := sums.map (fun r => r.map (fun x => (roundFp32 .rn x).1))

/-- The rounded sums of a step go into a slot. -/
def Acc.putSums (a : Acc) (ws : List (List W32)) : Acc :=
  { a.rewrite (fun r c old => ((ws.getD r [])[c]?).getD old) with full := true }

/-- The scaled slot is added (R369): `er` and `ec` are the E8M0 codes of rows and columns. -/
def Acc.scaleIn (a slot : Acc) (er ec : Nat → Nat) : Acc :=
  { a.rewrite (fun r c old =>
      match e8m0 (er r), e8m0 (ec c) with
      | some x, some y =>
        (roundFp32 .rn (((fp32 old).add .rn ((fp32 (slot.vals.get (r * 128 + c) 0)).scale (x + y))).1)).1
      | _, _ => 0x7FC00000) with full := true }

/-- Format of ACVT's FMT (R371). -/
def acvtFmt (fmt : Nat) : Fmt := if fmt = 0 then .bf16 else if fmt = 1 then .fp16 else if fmt = 2 then .e4m3 else .e5m2

/-- Bytes of row `r` of an accumulator, converted by `f` to `n` bytes each. -/
def Acc.rowBytes (a : Acc) (r n : Nat) (f : W32 → Nat) : List Byte :=
  (List.range 128).flatMap (fun c =>
    let v := f (a.vals.get (r * 128 + c) 0)
    (List.range n).map (fun i => BitVec.ofNat 8 (v / 256 ^ i)))

/-! ## What a sequencer word reads (R168, R169) -/

/-- K extent of a step (R161). -/
def stepK (g4 : Bool) (h : Shape) : Nat := if g4 then (if h.kind then 128 else 64) else (if h.sp then 64 else 32)

/-- Bytes from the first to the last byte of an A block of `rows` rows. -/
def aBlockLen (g4 : Bool) (h : Shape) (rows : Nat) : Nat :=
  (max rows 1 - 1) * h.ars.toNat + aRowBytes h.afmt (stepK g4 h)

/-- The word runs G4 steps or builds a G4 table. -/
def SeqCmd.isG4 (q : SeqCmd) : Bool :=
  match q.kind with
  | .tbld4 => true
  | .mloop4 => true
  | .mstep => q.g4
  | .tbld => false
  | .mloop => false
  | .tinv => false
  | .tspl => false
  | .tfil => false

/-- The word builds the tables of its own steps. -/
def SeqKind.loops : SeqKind → Bool
  | .mloop => true
  | .mloop4 => true
  | .tbld => false
  | .tbld4 => false
  | .tinv => false
  | .tspl => false
  | .tfil => false
  | .mstep => false

/-- The steps that a word runs: those of a loop, or the one of an MSTEP. -/
def SeqCmd.stepList (q : SeqCmd) : List Nat :=
  if q.kind.loops then (List.range (q.shape.ks - q.shape.s0)).map (fun i => q.shape.s0 + i)
  else if q.kind = .mstep then [q.shape.s0] else []

/-- The address of the A block of step `n`, or of the block that a build reads. -/
def SeqCmd.aOf (q : SeqCmd) (n : Nat) : Int :=
  if q.kind.loops then q.shape.abase.toNat + n * q.shape.astep.toInt else q.addr.toNat
/-- The address of the B block of step `n`. -/
def SeqCmd.bOf (q : SeqCmd) (n : Nat) : Int := q.shape.bbase.toNat + n * q.shape.bstep.toInt

/-- The rows of an A block: address and length of each. -/
def SeqCmd.aRows (q : SeqCmd) (a : Int) : List (Int × Nat) :=
  (List.range q.rows).map (fun r => (a + (r * q.shape.ars.toNat : Nat), aRowBytes q.shape.afmt (stepK q.isG4 q.shape)))

/-- Bytes of a TSPL image. -/
def imageBytes : Nat := 16448

/-- The byte ranges that a sequencer word reads or writes (05_slices R78): its A blocks, its B blocks, its row-count word and its image. -/
def SeqCmd.ranges (q : SeqCmd) : List (Int × Nat) :=
  let h := q.shape
  let rcp : List (Int × Nat) := if h.rcp = 0 then [] else [((h.rcp.toNat : Int), 4)]
  let b (n : Nat) : Int × Nat := (q.bOf n, bBlockSize q.isG4 h.kind h.sp h.bfmt h.p)
  match q.kind with
  | .tspl => [((q.addr.toNat : Int), imageBytes)]
  | .tfil => [((q.addr.toNat : Int), imageBytes)]
  | .tinv => []
  | .tbld => rcp ++ q.aRows q.addr.toNat
  | .tbld4 => rcp ++ q.aRows q.addr.toNat
  | .mstep => rcp ++ (if q.rows = 0 then [] else q.stepList.map b)
  | .mloop => rcp ++ (if q.rows = 0 then [] else q.stepList.flatMap (fun n => b n :: q.aRows (q.aOf n)))
  | .mloop4 => rcp ++ (if q.rows = 0 then [] else q.stepList.flatMap (fun n => b n :: q.aRows (q.aOf n)))

end Sys2Proof.Machine
end

