-- ==== Sys2Proof/Machine/CombineBuffer.lean ====
section
/-! DEFINITION. Granules of slices, and combine buffers as they lie in a segment: header, slots, abandonment (05_slices R68, R75,
16_experts R274 to R277). -/

namespace Sys2Proof.Machine

/-- Bytes of a granule. -/
def granuleBytes : Nat := 0x10000
/-- Number of a granule over all slices. -/
def granuleOf (core n : Nat) : Nat := core * 40 + n
/-- Key of a granule's first byte. -/
def granuleKey (core n : Nat) : Nat := sliceKey core (n * granuleBytes)
/-- The base of a segment: its first byte. -/
def Seg.base (g : Seg) : Nat := granuleKey g.core g.gran

/-! ## Buffers (R274, R275) -/

/-- A combine buffer as its header gives it. -/
structure CmbBuf where
  vd : Nat
  core : Nat
  base : Nat
  inOrder : Bool
  renorm : Bool
  bf16Out : Bool
  bf16In : Bool
  rlen : Nat
  kmax : Nat
  nslot : Nat
  tmo : Nat
  out : W64
  ostride : Nat
  sig : W64

/-- The buffer that a header's words describe. -/
def cmbOf (vd core base : Nat) (w : Nat → W64) : CmbBuf :=
  { vd := vd, core := core, base := base, inOrder := (w 0).bit 25, renorm := (w 0).bit 24, bf16Out := (w 0).bit 23,
    bf16In := (w 0).bit 22, rlen := 64 * ((w 0).field 15 7 + 1), kmax := (w 0).field 12 3 + 1, nslot := (w 0).field 0 12 + 1,
    tmo := (w 1).field 0 32, out := w 2, ostride := (w 3).field 0 32, sig := w 4 }

/-- The buffer at a segment's base. -/
def State.cmbAt (s : State) (vd : Nat) (g : Seg) : CmbBuf := cmbOf vd g.core g.base (fun i => s.load64 (g.base + 8 * i))

/-- Key of a slot's header. -/
def CmbBuf.slotKey (b : CmbBuf) (i : Nat) : Nat := b.base + 64 + 64 * i
/-- Key of a staging row. -/
def CmbBuf.rowKey (b : CmbBuf) (i j : Nat) : Nat := b.base + 64 * (b.nslot + 1) + (i * b.kmax + j) * b.rlen
/-- Elements of a row. -/
def CmbBuf.elements (b : CmbBuf) : Nat := if b.bf16In then b.rlen / 2 else b.rlen / 4

/-- The engine writes a 64-bit word. -/
def State.cmbPut (s : State) (k : Nat) (w : Nat) : State := s.putSlice k (leBytes 8 w)

/-- A counter of header word 5 rises by 1, held at 0xFFFF: LATE at 48, SUBST at 32, ABANDON at 16. -/
def State.cmbCount (s : State) (b : CmbBuf) (at_ : Nat) : State :=
  let w := s.load64 (b.base + 0x28)
  if w.field at_ 16 = 0xFFFF then s else s.cmbPut (b.base + 0x28) (w.toNat + 2 ^ at_)

/-- OPENCNT changes. -/
def State.cmbOpenCount (s : State) (b : CmbBuf) (f : Nat → Nat) : State :=
  let w := s.load64 (b.base + 0x30)
  s.cmbPut (b.base + 0x30) (w.toNat - w.field 24 13 * 2 ^ 24 + f (w.field 24 13) % 2 ^ 13 * 2 ^ 24)

/-- NEXTTOK. -/
def State.nextTok (s : State) (b : CmbBuf) : Nat := (s.load64 (b.base + 0x30)).field 0 24

/-- NEXTTOK goes on, modulo its width. -/
def State.bumpTok (s : State) (b : CmbBuf) : State :=
  let w := s.load64 (b.base + 0x30)
  s.cmbPut (b.base + 0x30) (w.toNat - w.field 0 24 + (w.field 0 24 + 1) % 2 ^ 24)

/-! ## Slots (R276) -/

/-- A word of a slot's header. -/
def State.slotWord (s : State) (b : CmbBuf) (i n : Nat) : W64 := s.load64 (b.slotKey i + 8 * n)
/-- STATE: 0 FREE, 1 OPEN, 2 DONE. -/
def State.slotState (s : State) (b : CmbBuf) (i : Nat) : Nat := (s.slotWord b i 0).field 36 4
/-- TOKEN. -/
def State.slotToken (s : State) (b : CmbBuf) (i : Nat) : Nat := (s.slotWord b i 0).field 0 24
/-- TAG. -/
def State.slotTag (s : State) (b : CmbBuf) (i : Nat) : Nat := (s.slotWord b i 0).field 48 16
/-- NK. -/
def State.slotNk (s : State) (b : CmbBuf) (i : Nat) : Nat := (s.slotWord b i 0).field 32 4
/-- The bit of entry `j` in ARR. -/
def State.slotArr (s : State) (b : CmbBuf) (i j : Nat) : Bool := (s.slotWord b i 0).bit (40 + j)
/-- EIDX of entry `j`. -/
def State.slotExpert (s : State) (b : CmbBuf) (i j : Nat) : Nat := (s.slotWord b i (2 + j / 4)).field (16 * (j % 4)) 16
/-- W of entry `j`. -/
def State.slotWeight (s : State) (b : CmbBuf) (i j : Nat) : W32 :=
  BitVec.ofNat 32 ((s.slotWord b i (4 + j / 2)).field (32 * (j % 2)) 32)
/-- Every entry is present. -/
def State.slotFull (s : State) (b : CmbBuf) (i : Nat) : Bool := (List.range (s.slotNk b i)).all (s.slotArr b i)

/-- A slot becomes FREE: its whole header is written to zero (R277). -/
def State.slotFree (s : State) (b : CmbBuf) (i : Nat) : State :=
  (s.putSlice (b.slotKey i) (List.replicate 64 0)).cmbOpenCount b (· - 1)

/-- A slot is abandoned (R277). -/
def State.slotAbandon (s : State) (b : CmbBuf) (i : Nat) : State :=
  let s1 := s.cmbCount b 16
  let s2 := if b.inOrder && s1.slotToken b i == s1.nextTok b then s1.bumpTok b else s1
  s2.slotFree b i

/-- The slots of a buffer that are not FREE and pass a test are abandoned, in token order from NEXTTOK. -/
def State.abandonWhere (s : State) (b : CmbBuf) (hit : Nat → Bool) : State :=
  let is := (List.range b.nslot).filter (fun i => s.slotState b i != 0 && hit i)
  let key (i : Nat) : Nat := (s.slotToken b i + 2 ^ 24 - s.nextTok b) % 2 ^ 24
  (sortBy (fun x y => decide (key x ≤ key y)) is).foldl (fun s i => s.slotAbandon b i) s

/-- Every slot of the buffer in a segment is abandoned (R274), if it holds one. -/
def State.abandonAll (s : State) (vd : Nat) (g : Seg) : State :=
  if g.buffer && g.present then s.abandonWhere (s.cmbAt vd g) (fun _ => true) else s

end Sys2Proof.Machine
end

