-- ==== Sys2Proof/Machine/Segments.lean ====
section
/-! DEFINITION. Granules, named segments, attaches, stows and restores, and the segment words (05_slices R68 to R84, R330 to
R336). -/

namespace Sys2Proof.Machine

/-! ## Granules (R68, R71, R72) -/

/-- The granule is free. -/
def State.granuleFree (s : State) (core n : Nat) : Bool := (s.granules.find (granuleOf core n)).isNone

/-- The lowest run of `n` granules that is free in every listed slice. -/
def State.freeRun (s : State) (cores : List Nat) (n : Nat) : Option Nat :=
  (List.range (41 - n)).find? (fun g => cores.all (fun c => (List.range n).all (fun i => s.granuleFree c (g + i))))

/-- Cells outside a range of keys. -/
def cellsOutside (m : List Host.Cell) (k n : Nat) : List Host.Cell := m.filter (fun c => !(decide (k ≤ c.1) && decide (c.1 < k + n)))
/-- Cells of a range, moved to another place. -/
def cellsMoved (m : List Host.Cell) (k n to_ : Nat) : List Host.Cell :=
  (m.filter (fun c => decide (k ≤ c.1) && decide (c.1 < k + n))).map (fun c => (to_ + (c.1 - k), c.2))

/-- A range of slice keys counts as written: generations and monitors (R71). -/
def State.noteSlice (s : State) (k n : Nat) : State :=
  { s with gens := (granulesOf k n).foldl (fun g i => g.set i (bumpGen (g.get i (0, false)))) s.gens
           teams := s.noteTables k n }

/-- A range of slice keys becomes zero, which counts as a write (R72). -/
def State.zeroSlice (s : State) (k n : Nat) : State :=
  { s with mem := cellsOutside s.mem k n, poison := s.healed k n }.noteSlice k n

/-- Granules are given to a virtual device, zeroed first (R72). -/
def State.takeGranules (s : State) (vd : Nat) (cores : List Nat) (g n : Nat) : State :=
  cores.foldl (fun s c =>
    ({ s with granules := (List.range n).foldl (fun m i => m.set (granuleOf c (g + i)) (vd + 1)) s.granules }).zeroSlice
      (granuleKey c g) (n * granuleBytes)) s

/-- Granules are freed. -/
def State.freeGranules (s : State) (cores : List Nat) (g n : Nat) : State :=
  { s with granules := cores.foldl (fun m c => (List.range n).foldl (fun m i => m.erase (granuleOf c (g + i))) m) s.granules }

/-! ## Segments -/

/-- The 8 cores of a core's cluster. -/
def clusterCores (core : Nat) : List Nat := (List.range 8).map (fun i => core / 8 * 8 + i)
/-- The slices that a segment lies in (R75). -/
def Seg.cores (g : Seg) : List Nat := if g.cluster then clusterCores g.core else [g.core]
/-- The parts of a segment: first key and length. -/
def Seg.parts (g : Seg) : List (Nat × Nat) := g.cores.map (fun c => (granuleKey c g.gran, g.ng * granuleBytes))
/-- 64 KiB units of the stowed image (R80). -/
def Seg.units (g : Seg) : Nat := if g.cluster then 8 * g.ng else g.ng
/-- The segment occupies granules. -/
def Seg.resident (g : Seg) : Bool :=
  match g.state with
  | .free => false
  | .local_ => true
  | .resident => true
  | .stowing => true
  | .stowed => false
  | .restoring => g.placed
/-- Some team holds an attach. -/
def Seg.attached (g : Seg) : Bool := g.writer.isSome || !g.readers.isEmpty
/-- The team holds an attach. -/
def Seg.heldBy (g : Seg) (t : Nat) : Bool := g.writer == some t || g.readers.contains t

/-- A segment of a virtual device's directory. -/
def State.seg (s : State) (vd i : Nat) : Seg := (s.vdev vd).segs.get i {}
/-- Writes a segment; a FREE one leaves the directory. -/
def State.setSeg (s : State) (vd i : Nat) (g : Seg) : State :=
  let v := s.vdev vd
  s.setVdev vd { v with segs := if g.state = .free then v.segs.erase i else v.segs.set i g }

/-- The segment that has a name; no segment has the name 0. -/
def State.segNamed (s : State) (vd : Nat) (name : W64) : Option Nat :=
  if name = 0 then none else ((s.vdev vd).segs.keysWhere (fun _ g => g.name == name)).head?

/-- The live segment with a base. -/
def State.segAtBase (s : State) (vd : Nat) (a : W64) : Option Nat :=
  ((s.vdev vd).segs.keysWhere (fun _ g => g.present && g.base == a.toNat)).head?

/-- The segment with a base on which a team holds an attach. -/
def State.segHeld (s : State) (vd team : Nat) (a : W64) : Option Nat :=
  ((s.vdev vd).segs.keysWhere (fun _ g => g.present && g.base == a.toNat && g.heldBy team)).head?

/-- STATE field. -/
def SegState.code : SegState → Nat
  | .free => 0
  | .local_ => 1
  | .resident => 2
  | .stowing => 3
  | .stowed => 4
  | .restoring => 5

/-- Word `n` of a descriptor (R74). GRAN reads 0 while a RESTORING segment has no granules yet (DESIGN CHOICE, log entry 86). -/
def Seg.word (g : Seg) (n : Nat) : W64 :=
  let away := g.state == .stowed
  if g.state = .free then 0
  else if n = 0 then g.name
  else if n = 1 then
    BitVec.ofNat 64 (bitNat g.cluster * 2 ^ 62 + g.state.code * 2 ^ 59 + bitNat g.pin * 2 ^ 58 + bitNat g.writer.isSome * 2 ^ 57 +
      (if away then 0 else g.core * 2 ^ 46 + g.gran * 2 ^ 40) + g.ng % 64 * 2 ^ 34 + g.readers.length % 2 ^ 16 * 2 ^ 16)
  else if n = 2 then (if g.state = .stowed ∨ g.state = .stowing then BitVec.ofNat 64 g.stowPa else 0)
  else BitVec.ofNat 64 (g.lseq.toNat * 2 ^ 32 + g.dseq.toNat)

/-! ## The stow pool (R80) -/

/-- Units of the pool that hold an image: STOWING, STOWED and RESTORING segments. -/
def VDev.poolUsed (v : VDev) (u : Nat) : Bool :=
  v.segs.any (fun p => (match p.2.state with
    | .stowing => true
    | .stowed => true
    | .restoring => true
    | .free => false
    | .local_ => false
    | .resident => false) &&
    (let first := (p.2.stowPa - v.stowBase.toNat) / granuleBytes
     decide (first ≤ u) && decide (u < first + p.2.units)))

/-- Places in the pool where `n` units fit. -/
def VDev.poolPlaces (v : VDev) (n : Nat) : List Nat :=
  (List.range (v.stowLen.toNat + 1 - n)).filter (fun u => (List.range n).all (fun i => !v.poolUsed (u + i)))

/-- The place that the device chooses: its own choice among those that fit (log entry 10). -/
def State.poolPlace (s : State) (vd n : Nat) : Option Nat :=
  let v := s.vdev vd
  let ps := v.poolPlaces n
  if v.stowLen.toNat < n ∨ ps.isEmpty then none
  else some (v.stowBase.toNat + ps.getD (Config.stowChoice s.free % ps.length) 0 * granuleBytes)

/-- An import entry names some part of the segment's range (R80); none does while the fabric is off (11_fabric R185). -/
def State.imported (s : State) (vd : Nat) (g : Seg) : Bool :=
  let v := s.vdev vd
  g.resident && v.fabricOn &&
    (List.range (v.fabItab.field 0 12 + 1)).any (fun i =>
      let ws := s.entryWords (v.fabItab.field 16 40 * 2 ^ 16 + 32 * i)
      (entryWord ws 0).bit 63 && g.parts.any (fun p =>
        let iva := (entryWord ws 1).field 0 56
        decide (iva < p.1 + p.2) && decide (p.1 < iva + (entryWord ws 2).field 0 48)))

/-! ## Operations that wait at a segment (R76) -/

/-- The word waits at the directory: an attach, a drop or a stow. -/
def isSegWord (i : Instr) : Bool :=
  match i with
  | .unlisted (.sgatt _ _ _) => true
  | .unlisted (.sgdrop _ _) => true
  | .unlisted (.sgstow _) => true
  | _ => false

/-- An operation that arrived at a segment still waits there. -/
def State.waits (s : State) (w : SegWaiter) : Bool :=
  match w with
  | .group k => (s.group k).live && (s.team (s.group k).team).runs && (match (s.group k).waitWord with
    | some i => isSegWord i
    | none => false)
  | .team t => (s.team t).phase == .placing
  | .packet vd q i => (s.hqueue vd q).packets.any (fun p => p.index == i && p.started)

/-- No operation that arrived earlier waits at the segment: operations are performed in the order of their arrival (R76; what an operation
that waits means for later ones is DEDUCED, log entry 85). -/
def State.turnAt (s : State) (vd i : Nat) (w : SegWaiter) : Bool :=
  ((s.seg vd i).waiting.takeWhile (· != w)).all (fun x => !s.waits x)

/-- The operation has arrived and waits. -/
def State.joinQueue (s : State) (vd i : Nat) (w : SegWaiter) : State :=
  let v := s.vdev vd
  s.setVdev vd { v with segs := v.segs.mapKV (fun j g =>
    if j = i then (if g.waiting.contains w then g else { g with waiting := g.waiting.filter s.waits ++ [w] })
    else { g with waiting := g.waiting.filter (· != w) }) }

/-- The operation waits no more. -/
def State.leave (s : State) (vd i : Nat) (w : SegWaiter) : State :=
  s.setSeg vd i { s.seg vd i with waiting := (s.seg vd i).waiting.filter (· != w) }

/-- The operation is noted already as one that waits. -/
def State.noted (s : State) (vd i : Nat) (w : SegWaiter) : Bool := (s.seg vd i).waiting.contains w

/-- The segment is eligible to be stowed (R80): no operation waits at it, and a combine buffer with an open slot counts as attached
(16_experts R274). -/
def State.stowable (s : State) (vd : Nat) (g : Seg) : Bool :=
  g.state == .resident && !g.pin && !g.attached && !s.imported vd g && !g.waiting.any s.waits &&
    !(g.buffer && decide ((s.load64 (g.base + 0x30)).field 24 13 ≠ 0))

/-! ## Stows and restores as copy-engine work -/

/-- A stow begins: the image's place is chosen, and the engine of the segment's cluster gets the work. `room` is the allocation that it
makes room for. -/
def State.beginStow (s : State) (vd i : Nat) (room : Option RoomFor) : Option State :=
  let g := s.seg vd i
  match s.poolPlace vd g.units with
  | none => none
  | some pa =>
    let c : CopyCmd :=
      { vd := vd, core := g.core, kind := .stow, seg := i, places := [g.parts], extents := [(pa, g.units * granuleBytes)],
        forRoom := room }
    some (((s.putCopy s.copyKey c).setSeg vd i { g with state := .stowing, stowPa := pa }).draw)

/-- The work of the engine for a segment, if there is any. -/
def State.segWork (s : State) (vd i : Nat) : Option Nat :=
  (s.copies.keysWhere (fun _ c => c.kind.isImage && c.vd == vd && c.seg == i)).head?

/-- The engine's work for a segment is withdrawn. -/
def State.dropWork (s : State) (vd i : Nat) : State :=
  match s.segWork vd i with
  | none => s
  | some n => { s with copies := s.copies.erase n, claims := s.claims.filter (· != n) }

/-- A stow is cut short: the partial image is discarded and the segment is RESIDENT at the same base (R76). -/
def State.cutStow (s : State) (vd i : Nat) : State :=
  (s.dropWork vd i).setSeg vd i { s.seg vd i with state := .resident, stowPa := 0 }

/-- Cells and uncorrectable granules of a range move to another (R78, R80). -/
def State.moveImage (s : State) (k n to_ : Nat) : State :=
  let moved := cellsMoved s.mem k n to_
  let bad := (s.poison.filter (fun p => decide (k ≤ p.1) && decide (p.1 < k + n))).map (fun p => (to_ + (p.1 - k), p.2))
  let s1 := { s with mem := Memory.setCells (cellsOutside s.mem to_ n) moved, poison := s.healed to_ n ++ bad }
  let marked := (List.range ((n + granuleBytes - 1) / granuleBytes)).foldl (fun m i => s1.noteDirty m (to_ + i * granuleBytes) granuleBytes) s1.mem
  if isSliceKey to_ then s1.noteSlice to_ n else { s1 with mem := marked }

/-- Every part of a segment moves to its image, or back. -/
def State.moveParts (s : State) (parts : List (Nat × Nat)) (pa : Nat) (out : Bool) : State :=
  match parts with
  | [] => s
  | p :: r =>
    (if out then s.moveImage p.1 p.2 pa else s.moveImage pa p.2 p.1).moveParts r (pa + p.2) out

/-- STOW_COMPLETE of segment `on.b` of virtual device `on.a` (R80): the image is complete and the granules are freed. -/
def execStowComplete (s : State) : Out :=
  let vd := s.on.a
  let i := s.on.b
  let g := s.seg vd i
  match s.segWork vd i with
  | none => .next s
  | some n =>
    if g.state = .stowing ∧ (s.copies.get n {}).phase = .running then
      let s1 := ((s.moveParts g.parts g.stowPa true).freeGranules g.cores g.gran g.ng).dropWork vd i
      .next (s1.setSeg vd i { g with state := .stowed }).fire
    else .next s

/-- RESTORE_COMPLETE of segment `on.b` of virtual device `on.a` (R81). -/
def execRestoreComplete (s : State) : Out :=
  let vd := s.on.a
  let i := s.on.b
  let g := s.seg vd i
  match s.segWork vd i with
  | none => .next s
  | some n =>
    if g.state = .restoring ∧ (s.copies.get n {}).phase = .running then
      let s1 := (s.moveParts g.parts g.stowPa false).dropWork vd i
      .next (s1.setSeg vd i { g with state := .resident, stowPa := 0 }).fire
    else .next s

/-! ## Allocation with stows for room (R80) -/

/-- What an allocation comes to. -/
inductive Alloc where
  /-- the first granule of a free run -/
  | run (g : Nat)
  /-- stows make room; `s` has those that this attempt began, if it began any -/
  | wait (s : State) (begun : Bool)
  /-- no candidate remains -/
  | none_

/-- The segment occupies one of the slices. -/
def Seg.inSlices (g : Seg) (cores : List Nat) : Bool := g.resident && g.cores.any cores.contains

/-- The granules as they will be once the stows under way have ended. -/
def State.afterStows (s : State) : State :=
  s.vdevs.foldl (fun s v => v.2.segs.foldl (fun s p =>
    if p.2.state = .stowing then s.freeGranules p.2.cores p.2.gran p.2.ng else s) s) s

/-- A free run of `n` granules in each of the slices: what an allocation asks for. -/
def runFits (cores : List Nat) (n : Nat) (s : State) : Bool := (s.freeRun cores n).isSome

/-- Some stow is under way in the slices. -/
def State.stowing (s : State) (cores : List Nat) : Bool :=
  s.vdevs.any (fun v => v.2.segs.any (fun p => p.2.state == .stowing && p.2.inSlices cores))

/-- The candidates for room, best first: lowest DSEQ, then lowest index. -/
def State.candidatesFor (s : State) (vd : Nat) (cores : List Nat) : List Nat :=
  let l := (s.vdev vd).segs.keysWhere (fun _ g => g.inSlices cores && s.stowable vd g)
  let le := fun (a b : Nat) =>
    let x := (s.seg vd a).dseq.toNat
    let y := (s.seg vd b).dseq.toNat
    decide (x < y) || (x == y && decide (a ≤ b))
  sortBy le l

/-- Begins stows, candidate by candidate, until what they free fits or none remains; one for which the pool has no place is passed over. -/
def State.beginStows (s : State) (vd : Nat) (key : RoomFor) (fits : State → Bool) (l : List Nat) : State :=
  match l with
  | [] => s
  | i :: r =>
    if fits s.afterStows then s
    else
      match s.beginStow vd i (some key) with
      | none => State.beginStows s vd key fits r
      | some s1 => State.beginStows s1 vd key fits r

/-- A stow that an allocation has started is under way. -/
def State.stowsFor (s : State) (key : RoomFor) : Bool := s.copies.any (fun p => p.2.kind == .stow && p.2.forRoom == some key)

/-- An allocation of `n` granules in each of the slices. It waits for every stow that it has started. While none is eligible but stows that
others began are under way in the slices it waits as well, and does not fail (DESIGN CHOICE, log entry 87). -/
def State.allocate (s : State) (vd : Nat) (cores : List Nat) (n : Nat) (key : RoomFor) : Alloc :=
  if s.stowsFor key then .wait s false
  else
    match s.freeRun cores n with
    | some g => .run g
    | none =>
      let s1 := s.beginStows vd key (runFits cores n) (s.candidatesFor vd cores)
      if s1.stowsFor key then .wait s1 true
      else if s.stowing cores then .wait s false
      else .none_

/-! ## Attaches (R77, R78, R81) -/

/-- What an attach comes to. -/
inductive Attach where
  | granted (s : State) (base : Nat)
  | refused (c : Cause)
  /-- it waits; `s` differs from what it was where `changed` -/
  | wait (s : State) (changed : Bool)

/-- The attach of a RESIDENT segment is settled (R77). -/
def State.settleAttach (s : State) (vd i team : Nat) (write : Bool) : Attach :=
  let g := s.seg vd i
  let add := fun (s : State) => s.setTeam team { s.team team with attaches := (i, write) :: (s.team team).attaches.filter (fun a => a.1 != i) }
  if g.writer = some team ∨ (!write && g.readers.contains team) then .granted s g.base
  else if write then
    (if g.writer.isSome || g.readers.any (· != team) then .refused .segmentConflict
    else .granted (add (s.setSeg vd i { g with writer := some team, readers := [] })) g.base)
  else if g.writer.isSome then .refused .segmentConflict
  else .granted (add (s.setSeg vd i { g with readers := g.readers ++ [team] })) g.base

/-- A RESTORING segment that has no granules yet gets them, and the engine the work, where there is room or stows make it (R81); none where
nothing changes. -/
def State.allocRestore (s : State) (vd i : Nat) : Option State :=
  let g := s.seg vd i
  if g.state ≠ .restoring ∨ g.placed then none
  else
    match s.allocate vd g.cores g.ng (.restore vd i) with
    | .run r =>
      let g1 : Seg := { g with gran := r, placed := true }
      let c : CopyCmd :=
        { vd := vd, core := g.core, kind := .restore, seg := i, places := [[(g.stowPa, g.units * granuleBytes)]], extents := g1.parts }
      some (((s.takeGranules vd g.cores r g.ng).putCopy s.copyKey c).setSeg vd i g1)
    | .wait s1 begun => if begun then some s1 else none
    | .none_ => none

/-- A STOWED segment goes to RESTORING, into the slices of a core or its cluster (R76, R81, R82). -/
def State.beginRestore (s : State) (vd i core : Nat) (pin : Bool) : State :=
  let g := s.seg vd i
  let s1 := s.setSeg vd i
    { g with state := .restoring, core := if g.cluster then core / 8 * 8 else core, gran := 0, placed := false, pin := g.pin || pin }
  (s1.allocRestore vd i).getD s1

/-- The first RESTORING segment that waits for granules and can go on does so. -/
def State.restoreStep (s : State) : State :=
  let ks := s.vdevs.flatMap (fun v => (v.2.segs.keysWhere (fun _ g => g.state == .restoring && !g.placed)).map (fun i => (v.1, i)))
  match ks.findSome? (fun k => s.allocRestore k.1 k.2) with
  | none => s
  | some s1 => s1.fire

/-- An attach request of a team on a core (R77, R81), which the waiter `w` makes. -/
def State.attach (s : State) (vd team core : Nat) (name : W64) (write noRestore : Bool) (w : SegWaiter) : Attach :=
  match s.segNamed vd name with
  | none => .refused .attachMiss
  | some i =>
    if !s.turnAt vd i w then .wait (s.joinQueue vd i w) (!s.noted vd i w)
    else
      match (s.seg vd i).state with
      | .free => .refused .attachMiss
      | .local_ => .refused .attachMiss
      | .resident => (s.leave vd i w).settleAttach vd i team write
      | .stowing => ((s.leave vd i w).cutStow vd i).settleAttach vd i team write
      | .restoring => .wait (s.joinQueue vd i w) (!s.noted vd i w)
      | .stowed =>
        if noRestore then .refused .attachMiss else .wait ((s.joinQueue vd i w).beginRestore vd i core false) true

/-- A segment becomes FREE: the slots of a combine buffer are abandoned, granules or pool area are freed. -/
def State.freeSeg (s : State) (vd i : Nat) : State :=
  let g := s.seg vd i
  let s0 := s.abandonAll vd g
  let s1 := if g.resident then s0.freeGranules g.cores g.gran g.ng else s0
  (s1.dropWork vd i).setSeg vd i { g with state := .free }

/-- A team holds no attach on a segment any more. -/
def State.endAttach (s : State) (vd i team : Nat) : State :=
  let g := s.seg vd i
  let s1 := s.setSeg vd i { g with writer := if g.writer = some team then none else g.writer,
                                   readers := g.readers.filter (· != team) }
  if (s1.teams.find team).isNone then s1
  else s1.setTeam team { s1.team team with attaches := (s1.team team).attaches.filter (fun a => a.1 != i) }

/-- The segment goes with its last attach: it is LOCAL, or has been dropped (R76). -/
def Seg.goes (g : Seg) : Bool := g.state == .local_ || (g.dropped && !g.attached)

/-- A team's attach on a segment ends, without release. -/
def State.loseAttach (s : State) (vd i team : Nat) : State :=
  let s1 := s.endAttach vd i team
  if (s1.seg vd i).goes then s1.freeSeg vd i else s1

/-- A detach at the directory (R333): the detach sequence number is noted and counted on; a LOCAL segment, or a dropped one with
no attach left, becomes FREE. -/
def State.detach (s : State) (vd i team : Nat) : State :=
  let s1 := s.endAttach vd i team
  let v := s1.vdev vd
  let g := s1.seg vd i
  let s2 := (s1.setSeg vd i { g with dseq := v.dseq })
  let s3 := s2.setVdev vd { s2.vdev vd with dseq := v.dseq + 1 }
  if g.goes then s3.freeSeg vd i else s3

/-! ## What a detach awaits (R78) -/

/-- A range overlaps a part of the segment. -/
def Seg.meets (g : Seg) (k n : Nat) : Bool := g.parts.any (fun p => decide (p.1 < k + n) && decide (k < p.1 + p.2))

/-- Where a copy command writes: its rows as issue translated them, for CPYX those that its indices name, for CPYQ the scales too. -/
def State.copyDests (s : State) (c : CopyCmd) : List (Nat × Nat) :=
  if c.kind = .cpyx then
    if c.phase = .running then c.rows.flatMap (·.pieces)
    else
      (List.range c.count).flatMap (fun i =>
        match s.indexAt c i with
        | .error _ => []
        | .ok x =>
          if x = 0xFFFFFFFF then []
          else
            match s.rowTarget c i with
            | .error _ => []
            | .ok ps => ps)
  else c.places.flatten ++ (if c.kind = .cpyq then s.auxPieces c.core c.vd c.desc c.count else [])

/-- The destination of a copy command of the team overlaps the segment. -/
def State.copiesInto (s : State) (team : Nat) (g : Seg) : Bool :=
  s.copies.any (fun p => p.2.team == team && !p.2.kind.isImage && !s.issuing p.1 &&
    (s.copyDests p.2).any (fun x => g.meets x.1 x.2))

/-- A sequencer word of the team may touch the segment; an MSTEP may read its tile's A block again (10_table R174). -/
def State.seqsTouch (s : State) (team : Nat) (g : Seg) : Bool :=
  let core := (s.team team).core
  (s.core core).seqs.any (fun q => q.team == team &&
    (q.ranges.any (fun r => decide (0 ≤ r.1) && g.meets (ownSlice core r.1.toNat) r.2) ||
      (q.kind == .mstep && (let t := (s.team team).tiles.get q.tile {}
                            let e := t.extent core (aRowBytes t.afmt t.k)
                            t.state == .rebuild && g.meets e.1 e.2))))

/-- The values that operands of a group have now. -/
def State.operandsOf (s : State) (k : Nat) (os : List Opnd) : List W64 :=
  ((({ s with cur := k } : State).take os).1).map (fun x => x.group (s.group k) true)

/-- The byte ranges that a group's word in the accumulator pipe reads or writes: its rows or its scale block. -/
def State.pipeRanges (s : State) (k : Nat) : List (Nat × Nat) :=
  let rows (a b : Opnd) (n : Nat) : List (Nat × Nat) :=
    let v := s.operandsOf k [a, b]
    (List.range 16).map (fun r => ((gv v 0 + BitVec.ofNat 64 r * gv v 1).toNat, n))
  match (s.group k).waitWord with
  | some (.unlisted (.scacc _ _ b _)) => [((gv (s.operandsOf k [b]) 0).toNat, 144)]
  | some (.unlisted (.asto _ a b _)) => rows a b 512
  | some (.unlisted (.alda _ a b)) => rows a b 512
  | some (.unlisted (.acvt _ a b fmt _ _)) => rows a b (if fmt.val < 2 then 256 else 128)
  | _ => []

/-- A word of the team in the accumulator pipe touches the segment. -/
def State.pipeTouches (s : State) (team : Nat) (g : Seg) : Bool :=
  let core := (s.team team).core
  (s.team team).groups.any (fun k => (s.group k).inPipe && (s.pipeRanges k).any (fun r => g.meets (ownSlice core r.1) r.2))

/-- The byte ranges of a buffer that a combine word with a control word names: the buffer, the output row of the token, the signal. -/
def State.bufferRanges (s : State) (vd : Nat) (base ctl : W64) : List (Nat × Nat) :=
  match s.segAtBase vd base with
  | none => []
  | some i =>
    let b := s.cmbAt vd (s.seg vd i)
    [(b.base, bufferBytes (s.load64 b.base)),
     (b.out.toNat + ctl.field 0 24 * b.ostride, b.elements * (if b.bf16Out then 2 else 4)), (b.sig.toNat, 16)]

/-- The byte ranges that a group's combine word names, which a claim holds up. -/
def State.combineRanges (s : State) (k : Nat) : List (Nat × Nat) :=
  let vd := (s.team (s.group k).team).vd
  match (s.group k).waitWord with
  | some (.unlisted (.cmbput f false)) =>
    let v := s.operandsOf k [f.a, f.b, f.d]
    s.bufferRanges vd (gv v 1) (gv v 2)
  | some (.unlisted (.cmbrel f _)) =>
    let v := s.operandsOf k [f.a, f.b]
    s.bufferRanges vd (gv v 1) (gv v 0)
  | _ => []

/-- A combine word of the team names the segment's range. -/
def State.combineTouches (s : State) (team : Nat) (g : Seg) : Bool :=
  (s.team team).groups.any (fun k => (s.group k).live && (s.combineRanges k).any (fun r => g.meets r.1 r.2))

/-- The detach of R78 has to wait. -/
def State.detachWaits (s : State) (team : Nat) (g : Seg) : Bool :=
  s.copiesInto team g || s.seqsTouch team g || s.pipeTouches team g || s.combineTouches team g

/-! ## The words -/

/-- SGNEW (R330). The new segment takes the lowest free index of the directory (DESIGN CHOICE, log entry 88). -/
def execSgnew (d b : Opnd) (pin clu : Bool) (s : State) : Out :=
  .next (s.groupWord (.unlisted (.sgnew d b pin clu)) { srcs := [{ o := b }], dest := destOf d 1 } (fun s1 vs =>
    let size := (gv vs 0).toNat
    let core := s1.curCore
    let vd := s1.curVd
    let parts := if clu then 8 else 1
    let ng := (size + parts * granuleBytes - 1) / (parts * granuleBytes)
    let cores := if clu then clusterCores core else [core]
    let v := s1.vdev vd
    if size = 0 ∨ parts * Config.sliceBytes < size then .fault (plainFault .sliceRange)
    else if 4096 ≤ v.segs.length then .done (s1.writeGroup d 0)
    else
      match s1.allocate vd cores ng (.sgnew s1.cur) with
      | .none_ => .done (s1.writeGroup d 0)
      | .wait _ begun => if begun then .hold (s.beginStows vd (.sgnew s.cur) (runFits cores ng) (s.candidatesFor vd cores)) else .wait
      | .run r =>
        let i := ((List.range 4096).find? (fun i => (v.segs.find i).isNone)).getD 0
        let g : Seg :=
          { cluster := clu, state := .local_, pin := pin, writer := some s1.grp.team, core := cores.headD core, gran := r,
            ng := ng, lseq := BitVec.ofNat 32 s1.curTeam.launch }
        let s2 := (s1.takeGranules vd cores r ng).setSeg vd i g
        let t := s2.curTeam
        .done ((s2.setTeam s2.grp.team { t with attaches := (i, true) :: t.attaches }).writeGroup d (BitVec.ofNat 64 g.base))))

/-- The fault of a base on which the team holds no attach (R84). -/
def attachMissAt (a : W64) : AccFault := { cause := .attachMiss, addr := a }

/-- SGNAME (R331): the write attach is that of the LOCAL segment's creator. -/
def execSgname (f : GrpThree) (s : State) : Out :=
  .next (s.groupWord (.unlisted (.sgname f)) { srcs := [{ o := f.a }, { o := f.b }], dest := destOf f.d 1 } (fun s1 vs =>
    let vd := s1.curVd
    match s1.segHeld vd s1.grp.team (gv vs 0) with
    | none => .fault (attachMissAt (gv vs 0))
    | some i =>
      let g := s1.seg vd i
      let name := gv vs 1
      let st := if name = 0 then 3 else if g.state ≠ .local_ then 2 else if (s1.segNamed vd name).isSome then 1 else 0
      let s2 := if st = 0 then
          (s1.setSeg vd i { g with state := .resident, name := name, dseq := (s1.vdev vd).dseq }).journal vd 6 0 0 0 name
            (BitVec.ofNat 64 g.base)
        else s1
      .done (s2.writeGroup f.d (BitVec.ofNat 64 st))))

/-- SGATT (R332): the end is a full acquire (12_consistency R214). -/
def execSgatt (f : GrpDA) (nr w : Bool) (s : State) : Out :=
  .next (s.groupWord (.unlisted (.sgatt f nr w)) { srcs := [{ o := f.a }], dest := destOf f.d 1 } (fun s1 vs =>
    let name := gv vs 0
    if s1.dirtyClaimed s1.curCore then .wait
    else
      match s1.attach s1.curVd s1.grp.team s1.curCore name w nr (.group s1.cur) with
      | .refused c => .fault { cause := c, addr := name }
      | .granted s2 base => .done ((s2.flushAll s2.curCore).writeGroup f.d (BitVec.ofNat 64 base))
      | .wait _ changed =>
        if !changed then .wait
        else
          match s.attach s.curVd s.grp.team s.curCore name w nr (.group s.cur) with
          | .wait s2 _ => .hold s2
          | .refused _ => .wait
          | .granted _ _ => .wait))

/-- SGDET (R333): a release at device scope. -/
def execSgdet (a : Opnd) (s : State) : Out :=
  .next (s.groupWord (.unlisted (.sgdet a)) { srcs := [{ o := a }] } (fun s1 vs =>
    let vd := s1.curVd
    match s1.segHeld vd s1.grp.team (gv vs 0) with
    | none => .fault (attachMissAt (gv vs 0))
    | some i =>
      if s1.releaseWaits .device true || s1.detachWaits s1.grp.team (s1.seg vd i) || !s1.turnAt vd i (.group s1.cur) then .wait
      else .done ((s1.beforeRelease .device true).detach vd i s1.grp.team)))

/-- A drop (R334): the status, and the state after it; none where it waits for a stow or restore, or for its turn. The slots of a combine
buffer are abandoned (16_experts R274). -/
def State.dropSeg (s : State) (vd i : Nat) (team : Option Nat) (w : SegWaiter) : Option (Nat × State) :=
  let g := s.seg vd i
  if g.state = .stowing ∨ g.state = .restoring ∨ !s.turnAt vd i w then none
  else
    let s0 := s.abandonAll vd g
    let s1 := match team with
      | none => s0
      | some t => s0.endAttach vd i t
    let g1 := s1.seg vd i
    if g1.attached then some (1, s1.setSeg vd i { g1 with name := 0, dropped := true })
    else some (0, s1.freeSeg vd i)

/-- A word that has to wait at a segment: the first time it is noted there. -/
def State.holdAt (s : State) (vd i : Nat) : GRes :=
  if s.noted vd i (.group s.cur) then .wait else .hold (s.joinQueue vd i (.group s.cur))

/-- SGDROP (R334). -/
def execSgdrop (f : GrpDA) (byName : Bool) (s : State) : Out :=
  .next (s.groupWord (.unlisted (.sgdrop f byName)) { srcs := [{ o := f.a }], dest := destOf f.d 1 } (fun s1 vs =>
    let vd := s1.curVd
    let found := if byName then s1.segNamed vd (gv vs 0) else s1.segHeld vd s1.grp.team (gv vs 0)
    match found with
    | none => if byName then .done (s1.writeGroup f.d 2) else .fault (attachMissAt (gv vs 0))
    | some i =>
      match s1.dropSeg vd i (some s1.grp.team) (.group s1.cur) with
      | none => s.holdAt vd i
      | some (st, s2) => .done (s2.writeGroup f.d (BitVec.ofNat 64 st))))

/-- A stow request (R335): the status, and the state after it; none where it waits for a restore, or for its turn. -/
def State.stowNamed (s : State) (vd : Nat) (name : W64) (w : SegWaiter) : Option (Nat × State) :=
  match s.segNamed vd name with
  | none => some (5, s)
  | some i =>
    let g := s.seg vd i
    if g.state = .restoring ∨ !s.turnAt vd i w then none
    else if g.attached || s.imported vd g || (g.buffer && g.state == .resident && !s.stowable vd { g with pin := false, waiting := [] }) then
      some (1, s)
    else if g.pin then some (2, s)
    else
      match s.poolPlace vd g.units with
      | none => some (3, s)
      | some _ =>
        if g.state ≠ .resident then some (4, s)
        else
          match (s.leave vd i w).beginStow vd i none with
          | none => some (3, s)
          | some s1 => some (0, s1)

/-- SGSTOW (R335). -/
def execSgstow (f : GrpDA) (s : State) : Out :=
  .next (s.groupWord (.unlisted (.sgstow f)) { srcs := [{ o := f.a }], dest := destOf f.d 1 } (fun s1 vs =>
    match s1.stowNamed s1.curVd (gv vs 0) (.group s1.cur) with
    | none =>
      (match s.segNamed s.curVd (gv vs 0) with
      | none => .wait
      | some i => s.holdAt s.curVd i)
    | some (st, s2) => .done (s2.writeGroup f.d (BitVec.ofNat 64 st))))

/-- SGSTAT (R336). -/
def execSgstat (f : GrpDA) (n : Fin 4) (s : State) : Out :=
  .next (s.groupWord (.unlisted (.sgstat f n)) { srcs := [{ o := f.a }], dest := destOf f.d 1 } (fun s1 vs =>
    let vd := s1.curVd
    .done (s1.writeGroup f.d (match s1.segNamed vd (gv vs 0) with
      | none => 0
      | some i => (s1.seg vd i).word n.val))))

end Sys2Proof.Machine
end

