-- ==== Sys2Proof/Machine/Consistency.lean ====
section
/-! DEFINITION. Synchronisation objects: ACQ, REL, FENCE, BIND and UNBIND (12_consistency R210 to R217, R349 to R352,
R386). -/

namespace Sys2Proof.Machine

/-- A synchronisation object (R217). -/
inductive SyncObject where
  | segment (i : Nat)
  | word

/-- The object that an address names for the executing group's team (R217): a segment that the team has attached, or the word
there, whose address may not be 0 nor off its alignment. -/
def State.objectAt (s : State) (a : W64) : Except AccFault SyncObject :=
  match s.segHeld s.curVd s.grp.team a with
  | some i => .ok (.segment i)
  | none =>
    if a = 0 then .error { cause := .misaligned, addr := a }
    else if a.toNat % 8 ≠ 0 then
      match s.check s.curCore s.curVd a 8 .load with
      | .error f => .error f
      | .ok _ => .error { cause := .misaligned, addr := a }
    else .ok .word

/-- The fault of an object word in host memory (R217), if it lies there. -/
def State.hostObject (s : State) (a : W64) (k : AccKind) : Option AccFault :=
  match s.check s.curCore s.curVd a 8 k with
  | .error f => some f
  | .ok p => if p.isHost then some { cause := .pageProtection, addr := a, host := true, wr := k.writes } else none

/-- ACQ (R350). Of the choices that R386 allows the model takes the full acquire. -/
def execAcq (a : Opnd) (sc : Scope) (s : State) : Out :=
  .next (s.groupWord (.unlisted (.acq a sc)) { srcs := [{ o := a }] } (fun s1 vs =>
    match s1.objectAt (gv vs 0) with
    | .error f => .fault f
    | .ok (.segment _) => if s1.dirtyClaimed s1.curCore then .wait else .done (s1.flushAll s1.curCore)
    | .ok .word =>
      match s1.hostObject (gv vs 0) .load with
      | some f => .fault f
      | none =>
        let home := atHome sc .acquire
        if s1.dirtyClaimed s1.curCore || s1.blocked s1.curCore s1.curVd (gv vs 0) 8 .load home then .wait
        else
          let r := s1.performLoad s1.curCore s1.curVd (gv vs 0) 8 home
          match r.2 with
          | .error f => .fault f
          | .ok _ => .done (r.1.flushAll r.1.curCore)))

/-- REL (R349). Of the choices that R386 allows the model takes the write-back of every dirty line. -/
def execRel (a : Opnd) (sc : Scope) (s : State) : Out :=
  .next (s.groupWord (.unlisted (.rel a sc)) { srcs := [{ o := a }] } (fun s1 vs =>
    match s1.objectAt (gv vs 0) with
    | .error f => .fault f
    | .ok (.segment i) =>
      if s1.releaseWaits sc true then .wait
      else
        let s2 := s1.beforeRelease sc true
        let g := s2.seg s2.curVd i
        .done (s2.setSeg s2.curVd i { g with releases := g.releases + 1 })
    | .ok .word =>
      match s1.hostObject (gv vs 0) .atomic with
      | some f => .fault f
      | none =>
        if s1.releaseWaits sc true || s1.blocked s1.curCore s1.curVd (gv vs 0) 8 .atomic true then .wait
        else
          let r := (s1.beforeRelease sc true).performAtomic s1.curCore s1.curVd (gv vs 0) 8 true (fun v => (v + 1) % 2 ^ 64)
          match r.2 with
          | .error f => .fault f
          | .ok _ => .done r.1))

/-- The accesses that FENCE awaits (R351): the others are performed as they issue (log entry 3). -/
def State.fenceWaits (s : State) (sc : Scope) : Bool :=
  match sc with
  | .group => false
  | .team => false
  | .device => s.awaitsRemote s.cur
  | .domain => s.awaitsRemote s.cur || !s.grp.posted.isEmpty

/-- FENCE (R351). -/
def execFence (sc : Scope) (s : State) : Out :=
  .next (s.groupWord (.unlisted (.fence sc)) {} (fun s1 _ => if s1.fenceWaits sc then .wait else .done s1))

/-- Number of entries of a binding table (R212). -/
def nBindings : Nat := 16

/-- An entry is made in the binding table (R352): the entry with the same object and base, else the lowest free one, else OVF. -/
def Team.bind (t : Team) (obj base len : W64) : Team :=
  match (t.bindings.keysWhere (fun _ b => b.obj == obj && b.base == base)).head? with
  | some n => { t with bindings := t.bindings.set n { obj := obj, base := base, len := len } }
  | none =>
    match (List.range nBindings).find? (fun n => (t.bindings.find n).isNone) with
    | some n => { t with bindings := t.bindings.set n { obj := obj, base := base, len := len } }
    | none => { t with ovf := true }

/-- Bindings are removed (R352). -/
def Team.unbind (t : Team) (obj base : W64) : Team :=
  if obj = 0 then { t with bindings := [], ovf := false }
  else { t with bindings := t.bindings.filter (fun p => !(p.2.obj == obj && (base == BitVec.allOnes 64 || p.2.base == base))) }

/-- BIND (R352). -/
def execBind (f : GrpThree) (s : State) : Out :=
  .next (s.groupWord (.unlisted (.bind f)) { srcs := [{ o := f.a }, { o := f.b }, { o := f.d }] } (fun s1 vs =>
    if gv vs 1 = 0 then .done s1
    else if 2 ^ 56 < (gv vs 0).toNat + (gv vs 1).toNat then .fault { cause := .pageNotPresent, addr := gv vs 0 }
    else
      match s1.objectAt (gv vs 2) with
      | .error f => .fault f
      | .ok _ => .done (s1.setTeam s1.grp.team (s1.curTeam.bind (gv vs 2) (gv vs 0) (gv vs 1)))))

/-- UNBIND (R352): an object of 0 names none, any other is resolved (R217). -/
def execUnbind (f : GrpDA) (s : State) : Out :=
  .next (s.groupWord (.unlisted (.unbind f)) { srcs := [{ o := f.a }, { o := f.d }] } (fun s1 vs =>
    if gv vs 1 = 0 then .done (s1.setTeam s1.grp.team (s1.curTeam.unbind 0 (gv vs 0)))
    else
      match s1.objectAt (gv vs 1) with
      | .error f => .fault f
      | .ok _ => .done (s1.setTeam s1.grp.team (s1.curTeam.unbind (gv vs 1) (gv vs 0)))))

end Sys2Proof.Machine
end

