-- ==== Sys2Proof/Machine/TableUnit.lean ====
section
/-! DEFINITION. The table unit: shape records, tiles, the sequencer and the accumulator pipe (10_table R161 to R182, R363 to
R372). -/

namespace Sys2Proof.Machine

/-! ## Places -/

/-- Key of an address that lies in a slice of the virtual device (R54). -/
def State.inSlice (s : State) (core vd : Nat) (a : Int) : Option Nat :=
  if a < (sliceBase : Int) ∨ (2 ^ 56 : Int) ≤ a then none else s.sliceAt core vd a.toNat

/-- Key of a range that lies within one slice. -/
def State.inOneSlice (s : State) (core vd : Nat) (a : Int) (n : Nat) : Option Nat :=
  match s.inSlice core vd a, s.inSlice core vd (a + n - 1) with
  | some k, some e => if keyCore k = keyCore e then some k else none
  | _, _ => none

/-- First uncorrectable byte of a range: its offset. -/
def State.firstBad (s : State) (k n : Nat) : Option Nat :=
  if s.poisoned k n then (List.range n).find? (fun i => s.poisoned (k + i) 1) else none

/-- An address that exact arithmetic gave, as 64 bits. -/
def addrWord (a : Int) : W64 := BitVec.ofInt 64 a

/-! ## Shape records (R168 to R170) -/

/-- The record of the eight words. -/
def shapeOf (w : Nat → W64) : Shape :=
  { abase := w 0, bbase := w 1, astep := (w 2).truncate 32, bstep := BitVec.ofNat 32 ((w 2).field 32 32),
    ars := (w 3).truncate 32, rcp := w 4, ks := (w 5).field 48 16, s0 := (w 5).field 32 16, ne := (w 5).field 24 8,
    ns := (w 5).field 21 3, strict := (w 5).bit 20, sp := (w 5).bit 19, kind := (w 5).bit 18, p := (w 5).field 15 3 + 1,
    mb := (w 5).field 8 4 + 1, bfmt := (w 5).field 4 4, afmt := (w 5).field 0 4 }

/-- Step 3 of R169 for the eight words in a mode. -/
def shapeFieldsOk (w : Nat → W64) (g4 : Bool) : Bool :=
  let h := shapeOf w
  (w 3).field 32 32 == 0 && w 6 == 0 && w 7 == 0 && (w 5).field 12 3 == 0 && decide (1 ≤ h.ks) && decide (h.s0 < h.ks) &&
    decide (1 ≤ h.ne) && decide (h.ne ≤ 128) && aFmtOk h.afmt && h.abase.field 0 2 == 0 && h.bbase.field 0 4 == 0 &&
    h.bstep.toNat % 16 == 0 && h.astep.toNat % 4 == 0 && h.ars.toNat % 4 == 0 &&
    (if g4 then h.bfmt == 0 && !h.sp else decide (h.bfmt ≤ 5) && !h.kind && h.p == 1)

/-- A slice range that a word reads at issue: its key, or the fault, or the wait on a claim. -/
def State.sliceRead (s : State) (a : W64) (n al : Nat) : Except GRes Nat :=
  if a.toNat % al ≠ 0 then .error (.fault { cause := .misaligned, addr := a })
  else
    match s.inOneSlice s.curCore s.curVd a.toNat n with
    | none => .error (.fault { cause := .sliceRange, addr := a })
    | some k =>
      if s.claimed k n then .error .wait
      else if s.poisoned k n then .error (.fault { cause := .uncorrectable, addr := a })
      else .ok k

/-- The A block that a word names spans more than 8 granules of its slice, taken for every row that the record allows (R169). -/
def State.blockWide (s : State) (a : Int) (n : Nat) : Bool :=
  match s.inSlice s.curCore s.curVd a with
  | none => false
  | some k => decide (8 < (granulesOf k (min n (Config.sliceBytes - keyOff k))).length)

/-- The record at an address, checked (R169); `block` is where the word's A block lies. -/
def State.shapeAt (s : State) (a : W64) (g4 : Bool) (block : Shape → Int) : Except GRes Shape :=
  match s.sliceRead a 64 64 with
  | .error e => .error e
  | .ok k =>
    let w := fun i => s.load64 (k + 8 * i)
    let h := shapeOf w
    if !shapeFieldsOk w g4 || s.blockWide (block h) (aBlockLen g4 h h.mb) then .error (.fault (plainFault .reservedField))
    else if h.rcp = 0 then .ok h
    else if h.rcp.field 0 2 ≠ 0 then .error (.fault { cause := .misaligned, addr := h.rcp })
    else if (s.inOneSlice s.curCore s.curVd h.rcp.toNat 4).isNone then .error (.fault { cause := .sliceRange, addr := h.rcp })
    else .ok h

/-- Rows of the sequence, whether they were clamped, and the count read (R170). -/
def State.rowsOf (s : State) (h : Shape) : Except GRes (Nat × Bool × Nat) :=
  if h.rcp = 0 then .ok (h.mb, false, h.mb)
  else
    match s.sliceRead h.rcp 4 4 with
    | .error e => .error e
    | .ok k =>
      let n := (s.load32 k).toNat
      if n ≤ h.mb then .ok (n, false, n)
      else if h.strict then .error (.fault { cause := .shapeTruncated, addr := h.rcp })
      else .ok (h.mb, true, n)

/-- An A block (R162, R363): its key, or the cause. -/
def State.aBlock (s : State) (core vd : Nat) (a : Int) (n : Nat) : Except Cause Nat :=
  if a % 4 ≠ 0 then .error .misaligned
  else
    match s.inOneSlice core vd a n with
    | none => .error .sliceRange
    | some k => if 8 < (granulesOf k n).length then .error .reservedField else .ok k

/-- The fault of an A block at issue. -/
def blockFault (c : Cause) (a : Int) : AccFault :=
  if c = .reservedField then plainFault c else { cause := c, addr := addrWord a }

/-! ## Tiles (R171 to R174) -/

/-- A tile of a team. -/
def Team.tile (t : Team) (n : Nat) : Tile := t.tiles.get n {}

/-- Writes a tile. -/
def State.setTile (s : State) (team n : Nat) (x : Tile) : State :=
  s.setTeam team { s.team team with tiles := (s.team team).tiles.set n x }

/-- STATE. -/
def TileState.code : TileState → Nat
  | .empty => 0
  | .valid => 1
  | .stale => 2
  | .rebuild => 3
  | .faulted => 4
  | .building => 5

/-- The state with a code. -/
def tileStateOf (n : Nat) : TileState :=
  if n = 0 then .empty else if n = 1 then .valid else if n = 2 then .stale else if n = 3 then .rebuild
  else if n = 4 then .faulted else .building

/-- The table takes a pair of tiles (R167). -/
def Tile.isPair (t : Tile) : Bool := t.mode == 0 && t.sp && bMant t.bfmt == 3

/-- Entries of a row (R167). -/
def Tile.rowWidth (t : Tile) : Nat := if t.mode = 0 then t.k * 2 ^ bMant t.bfmt else 256

/-- Entries of a row whose bytes are given. -/
def Tile.rowEntries (t : Tile) (row : List Byte) : List W32 :=
  let a := aElement t.afmt row
  if t.mode = 0 then g1Row (bMant t.bfmt) t.k a else if t.mode = 1 then sgnRow a else subRow a

/-- The first entries of a tile become those of a list; the others stay. -/
def Tile.putEntries (old : FMap W32) (es : List W32) : FMap W32 :=
  ((List.range es.length).zipWith (fun i w => (i, w)) es).filter (fun p => p.2 != 0) ++ old.filter (fun p => decide (es.length ≤ p.1))

/-- Granules of the extent of a tile's table, as recorded: numbers over all slices. -/
def Tile.granules (t : Tile) (core : Nat) : List Nat :=
  (List.range (t.ngr + 1)).map (fun i => keyCore (ownSlice core t.src.toNat) * 40 + t.gran0 + i)

/-- Generations are recorded and the sampled bits set (05_slices R71). -/
def State.sampleGens (s : State) (gs : List Nat) : State :=
  { s with gens := gs.foldl (fun m g => m.set g ((m.get g (0, false)).1, true)) s.gens }

/-- The generation of a granule. -/
def State.genOf (s : State) (g : Nat) : W32 := (s.gens.get g (0, false)).1

/-- Every recorded generation is current (R174); 0xFFFFFFFF never matches (05_slices R71). -/
def State.gensCurrent (s : State) (core : Nat) (t : Tile) : Bool :=
  (List.range (t.ngr + 1)).all (fun i =>
    let g := t.gens.getD i 0
    g != 0xFFFFFFFF && g == s.genOf ((t.granules core).getD i 0))

/-- The eight words of a build descriptor (R171). -/
def Tile.words (t : Tile) : List W64 :=
  let gen (i : Nat) : Nat := (t.gens.getD i 0).toNat
  [t.src, BitVec.ofNat 64 t.ars.toNat,
   BitVec.ofNat 64 (t.cause.toNat * 2 ^ 56 + t.rows * 2 ^ 43 + t.ngr * 2 ^ 40 + t.gran0 * 2 ^ 34 + bitNat t.trunc * 2 ^ 33 +
     bitNat t.hi * 2 ^ 32 + t.state.code * 2 ^ 28 + t.mode * 2 ^ 24 + bitNat t.sp * 2 ^ 23 + t.bfmt * 2 ^ 4 + t.afmt), 0] ++
  (List.range 4).map (fun i => BitVec.ofNat 64 (gen (2 * i) + gen (2 * i + 1) * 2 ^ 32))

/-- Reserved fields of a descriptor are 0 and its STATE is one that a TFIL takes (R366). -/
def descriptorOk (w : Nat → W64) : Bool :=
  let ngr := (w 2).field 40 3
  (w 1).field 32 32 == 0 && (w 2).field 48 8 == 0 && (w 2).field 26 2 == 0 && (w 2).field 8 15 == 0 && w 3 == 0 &&
    ((w 2).field 24 2 == 0 || (w 2).field 4 4 == 0) && decide ((w 2).field 28 4 ≤ 4) && ((w 2).field 28 4 == 4 || (w 2).field 56 8 == 0) &&
    (List.range 8).all (fun i => decide (i ≤ ngr) || (w (4 + i / 2)).field (32 * (i % 2)) 32 == 0)

/-- The tile of a descriptor's words. -/
def tileOf (w : Nat → W64) : Tile :=
  let d := w 2
  { src := w 0, ars := (w 1).truncate 32, cause := BitVec.ofNat 8 (d.field 56 8), rows := d.field 43 5, ngr := d.field 40 3,
    gran0 := d.field 34 6, trunc := d.bit 33, hi := d.bit 32, state := tileStateOf (d.field 28 4), mode := d.field 24 2,
    sp := d.bit 23, bfmt := d.field 4 4, afmt := d.field 0 4,
    gens := (List.range (d.field 40 3 + 1)).map (fun i => BitVec.ofNat 32 ((w (4 + i / 2)).field (32 * (i % 2)) 32)) }

/-! ## Builds (R363) -/

/-- Bytes of row `r` of the block at a key. -/
def State.aRow (s : State) (key : Nat) (t : Tile) (r : Nat) : List Byte :=
  s.bytes (key + r * t.ars.toNat) (aRowBytes t.afmt t.k)

/-- The first uncorrectable byte that a build would read: its offset from the block. -/
def State.badRow (s : State) (key : Nat) (t : Tile) : Option Nat :=
  ((List.range t.rows).filterMap (fun r =>
    (s.firstBad (key + r * t.ars.toNat) (aRowBytes t.afmt t.k)).map (fun o => r * t.ars.toNat + o))).head?

/-- Length of a table's extent, taken for one row at least. -/
def Tile.extentLen (t : Tile) : Nat := (max t.rows 1 - 1) * t.ars.toNat + aRowBytes t.afmt t.k

/-- A build reads its rows: entries, descriptor, sampled generations; the tile is BUILDING and watched (R172). A read that meets an
uncorrectable byte is noted in CAUSE. `t0` gives SRC, the stride, rows and formats. -/
def State.armBuild (s : State) (team n key : Nat) (t0 : Tile) : State :=
  let len := t0.extentLen
  let gs := granulesOf key len
  let es := (List.range t0.rows).flatMap (fun r => t0.rowEntries (s.aRow key t0 r))
  let old := s.team team
  let t : Tile :=
    { t0 with state := .building, hit := false, hi := false, gran0 := keyGranule key % 40, ngr := gs.length - 1,
              gens := gs.map s.genOf, cause := if (s.badRow key t0).isSome then Cause.code .uncorrectable else 0 }
  let s1 := (s.sampleGens gs).setTile team n { t with entries := Tile.putEntries (old.tile n).entries (es.take 4096) }
  if t0.isPair then
    s1.setTile team (n + 1) { t with hi := true, entries := Tile.putEntries (old.tile (n + 1)).entries (es.drop 4096) }
  else s1

/-- A build ends (R363). -/
def Tile.settle (t : Tile) : Tile :=
  match t.state with
  | .building =>
    if t.hit then { t with state := .stale, cause := 0, hit := false }
    else if t.cause ≠ 0 then { t with state := .faulted }
    else { t with state := .valid }
  | .empty => t
  | .valid => t
  | .stale => t
  | .rebuild => t
  | .faulted => t

/-- The build in a tile, or a pair, ends. -/
def State.settleTile (s : State) (team n : Nat) (pair : Bool) : State :=
  let s1 := s.setTile team n ((s.team team).tile n).settle
  if pair then s1.setTile team (n + 1) ((s1.team team).tile (n + 1)).settle else s1

/-- The table of a REBUILD tile could be built again: its extent lies in a slice, and every recorded generation is current. -/
def State.rebuildKey (s : State) (core vd : Nat) (t : Tile) : Option Nat :=
  if s.gensCurrent core t then s.inOneSlice core vd t.src.toNat t.extentLen else none

/-- A tile whose table is built again from SRC: its own entries, for the second tile of a pair the later ones; the other tile of a pair
is not touched. -/
def State.rebuilt (s : State) (key : Nat) (t : Tile) : Tile :=
  let es := (List.range t.rows).flatMap (fun r => t.rowEntries (s.aRow key t r))
  let own := if t.hi then es.drop 4096 else es.take 4096
  { t with state := if (s.badRow key t).isSome then .faulted else .valid, hit := false, entries := Tile.putEntries t.entries own,
           cause := if (s.badRow key t).isSome then Cause.code .uncorrectable else 0 }

/-- The first word that uses a REBUILD tile: rebuilt from SRC where every generation is current, else STALE (R174). It waits on a
claim of the bytes that it reads. -/
def State.rebuildTile (s : State) (team n : Nat) : State :=
  let tm := s.team team
  let t := tm.tile n
  match s.rebuildKey tm.core tm.vd t with
  | some k =>
    if s.claimed k t.extentLen then s
    else ((s.sampleGens (granulesOf k t.extentLen)).setTile team n (s.rebuilt k t)).fire
  | none => (s.setTile team n { t with state := .stale }).fire

/-! ## The sequencer (R175 to R180) -/

/-- The word's tables take pairs of tiles. -/
def SeqCmd.pair (q : SeqCmd) : Bool := !q.isG4 && q.shape.sp && bMant q.shape.bfmt == 3

/-- The tile of the next step. -/
def SeqCmd.stepTile (q : SeqCmd) : Nat :=
  if q.kind.loops then q.tile + (if q.pair then 2 else 1) * (q.step % 2) else q.tile

/-- The word names a tile. -/
def SeqCmd.names (q : SeqCmd) (n : Nat) : Bool :=
  let w := (if q.pair then 2 else 1) * (if q.kind.loops then 2 else 1)
  decide (q.tile ≤ n) && decide (n < q.tile + w)

/-- The descriptor that a build of the word gives, before its rows are read. -/
def SeqCmd.template (q : SeqCmd) (src : W64) : Tile :=
  { src := src, ars := q.shape.ars, rows := q.rows, trunc := q.trunc, mode := if q.isG4 then (if q.shape.kind then 1 else 2) else 0,
    sp := !q.isG4 && q.shape.sp, bfmt := if q.isG4 then 0 else q.shape.bfmt, afmt := q.shape.afmt }

/-- Replaces the first word of a core's sequencer. -/
def State.setHead (s : State) (core : Nat) (q : SeqCmd) : State :=
  s.setCore core { s.core core with seqs := q :: (s.core core).seqs.tail }
/-- The first word leaves the sequencer. -/
def State.popSeq (s : State) (core : Nat) : State := s.setCore core { s.core core with seqs := (s.core core).seqs.tail }

/-- Steps of the word not yet completed. -/
def SeqCmd.left (q : SeqCmd) : Nat :=
  if q.kind.loops then q.shape.ks - q.step else if q.kind = .mstep then (if q.step = q.shape.s0 then 1 else 0) else 0

/-- The holds of a sequence end (R176). -/
def Team.unhold (t : Team) (id : Nat) : Team :=
  { t with accs := t.accs.mapKV (fun _ a => if a.hold = some id then { a with hold := none } else a) }

/-- A sequence ends: the step counter drops by the steps left, the hold ends, the arrival is delivered (R178, R180). A clamped
count makes an otherwise clean arrival carry SHAPE_TRUNCATED (R170). -/
def State.endSeq (s : State) (core : Nat) (q : SeqCmd) (err : Option ArrErr) : State :=
  let t := s.team q.team
  let s1 := (s.popSeq core).setTeam q.team ({ t with steps := t.steps - q.left }.unhold q.id)
  let e := match err with
    | some e => some e
    | none => if q.trunc then some (arrErr .shapeTruncated q.shape.rcp (min q.count 0xFFFF)) else none
  s1.arrive q.team q.cb 1 e

/-- Address of the next step's A block. -/
def SeqCmd.aAddr (q : SeqCmd) : Int := q.aOf q.step
/-- Address of the next step's B block. -/
def SeqCmd.bAddr (q : SeqCmd) : Int := q.bOf q.step

/-- The B block of a step: its bytes, or the fault, or none while it waits on a claim (R179). -/
def State.readBlock (s : State) (core vd : Nat) (a : Int) (n : Nat) : Option (Except AccFault (List Byte)) :=
  match (if a < 0 then .error { cause := .pageNotPresent, addr := addrWord a } else rangeOf (s.corePlace core vd .load) a.toNat n) with
  | .error f => some (.error f)
  | .ok ps =>
    match ps.findIdx? (fun p => isHostKey p.1) with
    | some i => some (.error { cause := .pageProtection, addr := addrWord (a + (((ps.take i).map (·.2)).foldl (· + ·) 0 : Nat)), host := true })
    | none =>
      if ps.any (fun p => s.claimed p.1 p.2) then none
      else
        match (ps.foldl (fun (r : Option Nat × Nat) p =>
            match r.1 with
            | some _ => r
            | none => ((s.firstBad p.1 p.2).map (fun i => r.2 + i), r.2 + p.2)) (none, 0)).1 with
        | some o => some (.error { cause := .uncorrectable, addr := addrWord (a + (o : Nat)) })
        | none => some (.ok (s.readPieces ps))

/-- The rows' entries of the step's table, over both tiles of a pair. -/
def Team.tableRows (t : Team) (n rows : Nat) : List (List W32) :=
  let x := t.tile n
  let w := x.rowWidth
  let es := if x.isPair then x.entries ++ ((t.tile (n + 1)).entries.map (fun p => (p.1 + 4096, p.2))) else x.entries
  (List.range rows).map (fun r =>
    let part := es.filter (fun p => decide (r * w ≤ p.1) && decide (p.1 < r * w + w))
    (List.range w).map (fun i => FMap.get part (r * w + i) 0))

/-- The accumulator that the next step writes (R177). -/
def SeqCmd.target (q : SeqCmd) : Nat := if q.pm then q.acc + q.step % (q.shape.ns + 1) else q.acc

/-- The results of the next step are written into an accumulator, and the sequence goes on or ends (R166, R178). -/
def State.stepDone (s : State) (core : Nat) (q : SeqCmd) (acc : Acc) : State :=
  let t := s.team q.team
  let q1 := { q with step := q.step + 1, built := false, sums := none }
  let s1 := (s.setTeam q.team { t with steps := t.steps - 1, accs := t.accs.set q.target acc }).setHead core q1
  if q1.left = 0 then (s1.endSeq core q1 none).fire else s1.fire

/-- The accumulator that the next step of a word writes. -/
def State.targetAcc (s : State) (q : SeqCmd) : Acc := (s.team q.team).accs.get q.target {}

/-- The sums of a step have been formed: an accumulator takes them at once, a slot once it is EMPTY (R177). -/
def State.stepSummed (s : State) (core : Nat) (q : SeqCmd) (sums : List (List Ext)) : State :=
  let acc := s.targetAcc q
  if !q.pm then s.stepDone core q (acc.takeSums sums false)
  else if acc.full then (s.setHead core { q with sums := some (roundSums sums) }).fire
  else s.stepDone core q (acc.putSums (roundSums sums))

/-- The next step makes its lookups: it reads B and forms its sums (R166). A step of no rows reads nothing. It waits on claims: the state
is then unchanged. -/
def State.runStep (s : State) (core : Nat) (q : SeqCmd) : State :=
  let t := s.team q.team
  let h := q.shape
  let n := bBlockSize q.isG4 h.kind h.sp h.bfmt h.p
  let block := if q.rows = 0 then some (.ok []) else s.readBlock core t.vd q.bAddr n
  match block with
  | none => s
  | some (.error f) => (s.endSeq core q (some (arrErr f.cause f.addr q.step))).fire
  | some (.ok bs) =>
    let sums := stepSums q.isG4 h.kind h.sp h.bfmt h.p h.ne bs (t.tableRows q.stepTile q.rows)
    let s0 := if q.rows = 0 then s else s.touchRange core t.vd q.bAddr.toNat n .load
    s0.stepSummed core q sums

/-- A step that has made its lookups writes into its slot, once that is EMPTY. -/
def State.writeSlot (s : State) (core : Nat) (q : SeqCmd) (ws : List (List W32)) : State :=
  let acc := s.targetAcc q
  if acc.full then s else s.stepDone core q (acc.putSums ws)

/-- Outcome of a step whose table is in its tile (R173, R368). A count of 0 runs a step that uses no table (R170). -/
def State.startStep (s : State) (core : Nat) (q : SeqCmd) : State :=
  if q.kind = .mstep ∧ q.rows = 0 then s.runStep core q
  else
  let t := s.team q.team
  let x := t.tile q.stepTile
  let stale := some (arrErr .tableStale x.src q.step)
  let pairState := if x.isPair then (t.tile (q.stepTile + 1)).state else .valid
  match x.state with
  | .empty => (s.endSeq core q stale).fire
  | .stale => (s.endSeq core q stale).fire
  | .rebuild => s.rebuildTile q.team q.stepTile
  | .building => (s.settleTile q.team q.stepTile x.isPair).fire
  | .faulted => (s.endSeq core q (some { cause := x.cause, addr := x.src.truncate 56, idx := q.step })).fire
  | .valid =>
    let g4 := q.isG4
    let fits := (x.mode != 0) == g4 && (g4 || (bMant x.bfmt == bMant q.shape.bfmt && x.sp == q.shape.sp && !x.hi)) &&
      (!g4 || (x.mode == 1) == q.shape.kind) && decide (q.rows ≤ x.rows)
    if q.kind = .mstep ∧ !fits then (s.endSeq core q (some (arrErr .tableIndex x.src q.step))).fire
    else if pairState = .rebuild then s.rebuildTile q.team (q.stepTile + 1)
    else if pairState ≠ .valid then (s.endSeq core q stale).fire
    else s.runStep core (if q.kind = .mstep ∧ x.trunc then { q with trunc := true } else q)

/-- The build of a loop's next step (R367). -/
def State.loopBuild (s : State) (core : Nat) (q : SeqCmd) : State :=
  let t := s.team q.team
  let n := aBlockLen q.isG4 q.shape q.rows
  let x := q.template (addrWord q.aAddr)
  match s.aBlock core t.vd q.aAddr n with
  | .error c =>
    if q.rows = 0 then (s.armBuild q.team q.stepTile (sliceKey core 0) x |>.setHead core { q with built := true, started := true }).fire
    else (s.endSeq core { q with started := true } (some (arrErr c (addrWord q.aAddr) q.step))).fire
  | .ok k =>
    if s.claimed k n then s
    else
      match s.badRow k x with
      | some o =>
        ((s.armBuild q.team q.stepTile k x).settleTile q.team q.stepTile x.isPair |>.endSeq core q
          (some (arrErr .uncorrectable (addrWord (q.aAddr + (o : Nat))) q.step))).fire
      | none => ((s.armBuild q.team q.stepTile k x).setHead core { q with built := true, started := true }).fire

/-- A build on its own: first its reads, then its end (R363). -/
def State.lonelyBuild (s : State) (core : Nat) (q : SeqCmd) : State :=
  let t := s.team q.team
  let n := aBlockLen q.isG4 q.shape q.rows
  if q.started then ((s.settleTile q.team q.tile q.pair).popSeq core).fire
  else
    match s.aBlock core t.vd q.aAddr n with
    | .error _ => (s.popSeq core).fire
    | .ok k =>
      if s.claimed k n then s
      else ((s.armBuild q.team q.tile k (q.template q.addr)).setHead core { q with started := true }).fire

/-- The spill image of a tile. -/
def Tile.image (t : Tile) : List Byte :=
  t.words.flatMap (fun w => leBytes 8 w.toNat) ++
    (List.range 4096).flatMap (fun e => leBytes 4 (if t.state = .valid then (t.entries.get e 0).toNat else 0))

/-- TSPL in the sequencer. -/
def State.spillTile (s : State) (core : Nat) (q : SeqCmd) : State :=
  let t := s.team q.team
  match s.inOneSlice core t.vd q.addr.toNat imageBytes with
  | none => (s.popSeq core).fire
  | some k =>
    if s.claimed k imageBytes then s else ((s.writeSlice k (t.tile q.tile).image).popSeq core).fire

/-- TFIL in the sequencer. An uncorrectable image faults the tile. -/
def State.fillTile (s : State) (core : Nat) (q : SeqCmd) : State :=
  let t := s.team q.team
  match s.inOneSlice core t.vd q.addr.toNat imageBytes with
  | none => (s.popSeq core).fire
  | some k =>
    if s.claimed k imageBytes then s
    else
      let w := fun i => s.load64 (k + 8 * i)
      let bad (c : Cause) : State := (s.setTile q.team q.tile { t.tile q.tile with state := .faulted, cause := c.code }).popSeq core
      if s.poisoned k imageBytes then (bad .uncorrectable).fire
      else if !descriptorOk w then (bad .reservedField).fire
      else
        let x := tileOf w
        let es := (List.range 4096).map (fun e => s.load32 (k + 64 + 4 * e))
        let x1 := { x with entries := Tile.putEntries [] es }
        let cur := s.gensCurrent core x1
        let x2 := if x1.state = .valid ∧ !cur then { x1 with state := .stale } else x1
        let s1 := if x2.state = .valid then s.sampleGens (x2.granules core) else s
        ((s1.setTile q.team q.tile x2).popSeq core).fire

/-- TINV in the sequencer. -/
def State.emptyTile (s : State) (core : Nat) (q : SeqCmd) : State :=
  ((s.setTile q.team q.tile { (s.team q.team).tile q.tile with state := .empty, cause := 0, hit := false }).popSeq core).fire

/-- A sequence goes on: the step that waits to write, the build of the next table, or the step that uses it. -/
def State.sequenceStep (s : State) (core : Nat) (q : SeqCmd) : State :=
  match q.sums with
  | some ws => s.writeSlot core q ws
  | none => if q.kind = .mstep ∨ q.built then s.startStep core q else s.loopBuild core q

/-- The word is in the middle of a build (R182). A step is performed at once; one that has made its lookups and waits for its slot is not
completed by a save. -/
def State.inStep (s : State) (q : SeqCmd) : Bool :=
  match q.kind with
  | .tinv => false
  | .tspl => false
  | .tfil => false
  | .tbld => q.started
  | .tbld4 => q.started
  | .mstep => false
  | .mloop => q.built && ((s.team q.team).tile q.stepTile).state == .building
  | .mloop4 => q.built && ((s.team q.team).tile q.stepTile).state == .building

/-- The sequencer of a core goes one step on; a sequence whose count is 0 runs no step that could fail. For a team that is being
saved only a build in progress completes (R182). -/
def State.seqStep (s : State) (core : Nat) : State :=
  match (s.core core).seqs with
  | [] => s
  | q :: _ =>
    if (s.team q.team).phase = .saving ∧ !s.inStep q then s
    else match q.kind with
    | .tinv => s.emptyTile core q
    | .tbld => s.lonelyBuild core q
    | .tbld4 => s.lonelyBuild core q
    | .tspl => s.spillTile core q
    | .tfil => s.fillTile core q
    | .mloop => s.sequenceStep core q
    | .mloop4 => s.sequenceStep core q
    | .mstep => if q.started then s.sequenceStep core q else (s.setHead core { q with started := true }).fire

/-! ## Issue of sequencer words -/

/-- Sequencer words that may wait (R175). -/
def seqRoom : Nat := 8
/-- The sequencer has no room for a further word. -/
def State.seqFull (s : State) : Bool := decide (seqRoom ≤ (s.core s.curCore).seqs.countP (fun q => !q.started))

/-- Remote writes of the group are outstanding: a read of A or B by a word that follows them is performed after them, and their target may
be this device (R179). -/
def State.writesOut (s : State) : Bool := !s.grp.posted.isEmpty || s.awaitsRemote s.cur

/-- A word is enqueued on the executing group's core. -/
def State.enqueue (s : State) (q : SeqCmd) : State :=
  let c := s.core s.curCore
  s.setCore s.curCore { c with seqs := c.seqs ++ [{ q with id := s.fired, team := s.grp.team, group := s.cur }] }

/-- A tile index is within the team's count. -/
def State.tileOk (s : State) (n : Nat) : Bool := decide (n < s.curTeam.nTiles)
/-- An accumulator index is within the team's count. -/
def State.accOk (s : State) (n : Nat) : Bool := decide (n < s.curTeam.nAccs)

/-- TBLD and TBLD4. -/
def State.buildWord (s : State) (i : Instr) (t : Fin 8) (a b : Opnd) (g4 : Bool) : Out :=
  .next (s.groupWord i { srcs := [{ o := a }, { o := b }], ok := s.tileOk t.val } (fun s1 vs =>
    match s1.shapeAt (gv vs 1) g4 (fun _ => (gv vs 0).toNat) with
    | .error r => r
    | .ok h =>
      match s1.rowsOf h with
      | .error r => r
      | .ok (rows, trunc, count) =>
        let at_ : Int := (gv vs 0).toNat
        match s1.aBlock s1.curCore s1.curVd at_ (aBlockLen g4 h rows) with
        | .error c => .fault (blockFault c at_)
        | .ok _ =>
          let q : SeqCmd := { kind := if g4 then .tbld4 else .tbld, tile := t.val, shape := h, addr := gv vs 0, rows := rows,
                              trunc := trunc, count := count, word := some i }
          if q.pair && (t.val % 2 != 0 || !s1.tileOk (t.val + 1)) then .fault (plainFault .reservedField)
          else if s1.seqFull || s1.writesOut then .wait
          else .done (s1.enqueue q)))

/-- TBLD (R363). -/
def execTbld (t : Fin 8) (a b : Opnd) (s : State) : Out := s.buildWord (.unlisted (.tbld t a b)) t a b false
/-- TBLD4 (R363). -/
def execTbld4 (t : Fin 8) (a b : Opnd) (s : State) : Out := s.buildWord (.unlisted (.tbld4 t a b)) t a b true

/-- TCHK (R364): waits for the sequencer words of its team that issued earlier and name the tile. -/
def execTchk (c : Fin 4) (t : Fin 8) (s : State) : Out :=
  .next (s.groupWord (.unlisted (.tchk c t)) { ok := s.tileOk t.val } (fun s1 _ =>
    let core := s1.curCore
    let x := s1.curTeam.tile t.val
    let finished := GRes.done (s1.setGrp (s1.grp.setCond c (x.state == .valid || (x.state == .rebuild && (s1.rebuildKey core s1.curVd x).isSome))))
    match s1.grp.replyWait with
    | some (ids, _) => if (s1.core core).seqs.any (fun q => ids.contains q.id) then .wait else finished
    | none =>
      let ids := ((s1.core core).seqs.filter (fun q => q.team == s1.grp.team && q.names t.val)).map (·.id)
      if ids.isEmpty then finished else .hold (s.setGrp { s.grp with replyWait := some (ids, 0) })))

/-- TINV (R365). -/
def execTinv (t : Fin 8) (s : State) : Out :=
  .next (s.groupWord (.unlisted (.tinv t)) { ok := s.tileOk t.val } (fun s1 _ =>
    if s1.seqFull then .wait else .done (s1.enqueue { kind := .tinv, tile := t.val, word := some (.unlisted (.tinv t)) })))

/-- TSPL and TFIL. -/
def State.imageWord (s : State) (i : Instr) (t : Fin 8) (a : Opnd) (k : SeqKind) : Out :=
  .next (s.groupWord i { srcs := [{ o := a }], ok := s.tileOk t.val } (fun s1 vs =>
    let at_ := gv vs 0
    if at_.toNat % 64 ≠ 0 then .fault { cause := .misaligned, addr := at_, wr := k == .tspl }
    else if (s1.inOneSlice s1.curCore s1.curVd at_.toNat imageBytes).isNone then
      .fault { cause := .sliceRange, addr := at_, wr := k == .tspl }
    else if s1.seqFull then .wait
    else .done (s1.enqueue { kind := k, tile := t.val, addr := at_, word := some i })))

/-- TSPL (R366). -/
def execTspl (t : Fin 8) (a : Opnd) (s : State) : Out := s.imageWord (.unlisted (.tspl t a)) t a .tspl
/-- TFIL (R366). -/
def execTfil (t : Fin 8) (a : Opnd) (s : State) : Out := s.imageWord (.unlisted (.tfil t a)) t a .tfil

/-- Accumulators that an accumulator-pipe word names. -/
def accNames (i : Instr) : List Nat :=
  match i with
  | .unlisted (.scacc d x _ _) => [d.val, x.val]
  | .unlisted (.azero d _) => [d.val]
  | .unlisted (.asto d _ _ _) => [d.val]
  | .unlisted (.alda d _ _) => [d.val]
  | .unlisted (.acvt d _ _ _ _ _) => [d.val]
  | _ => []

/-- Groups whose words stand in the accumulator pipe of a core, in order. -/
def State.pipe (s : State) (core : Nat) : List Nat :=
  (s.core core).accPipe.filter (fun k => (s.group k).inPipe && (s.group k).live)

/-- A word in the accumulator pipe of a core names an accumulator of the team. -/
def State.pipeNames (s : State) (core team n : Nat) : Bool :=
  (s.pipe core).any (fun k => (s.group k).team == team && (match (s.group k).waitWord with
    | none => false
    | some i => (accNames i).contains n))

/-- A sequence takes its hold (R176): an EMPTY accumulator reads as +0. -/
def Acc.take (a : Acc) (id : Nat) : Acc := { (if a.full then a else { a with vals := [], full := true }) with hold := some id }

/-- MLOOP, MLOOP4 and MSTEP (R367, R368). -/
def State.sequenceWord (s : State) (i : Instr) (f : GrpLoop) (k : SeqKind) (g4 : Bool) : Out :=
  .next (s.groupWord i { srcs := [{ o := f.b }], ok := s.tileOk f.t.val && s.accOk f.acc.val } (fun s1 vs =>
    let t := s1.curTeam
    let acc := f.acc.val
    match s1.shapeAt (gv vs 0) g4 (fun h => h.abase.toNat + h.s0 * h.astep.toInt) with
    | .error r => r
    | .ok h =>
      let q : SeqCmd := { kind := k, tile := f.t.val, acc := acc, cb := f.cb.val, pm := f.pm, g4 := g4, shape := h, step := h.s0,
                          word := some i }
      let per := if q.pair then 2 else 1
      let lastTile := if k.loops then f.t.val + per * (if h.s0 + 1 < h.ks then 1 else h.s0 % 2) + per - 1 else f.t.val
      if (f.pm && !s1.accOk (acc + h.ns)) || (k.loops && (f.t.val % (2 * per) != 0 || !s1.tileOk lastTile)) then
        .fault (plainFault .reservedField)
      else
        match s1.rowsOf h with
        | .error r => r
        | .ok (rows, trunc, count) =>
          let q1 := { q with rows := rows, trunc := trunc, count := count }
          let block := if k.loops then s1.aBlock s1.curCore s1.curVd q1.aAddr (aBlockLen g4 h rows) else .ok 0
          match block with
          | .error c => .fault (blockFault c q1.aAddr)
          | .ok _ =>
            let a := t.accs.get acc {}
            if (!f.pm && (a.hold.isSome || s1.pipeNames s1.curCore s1.grp.team acc)) || decide (65535 < t.steps + q1.left) ||
                s1.seqFull || s1.writesOut || s1.dirtyClaimed s1.curCore then .wait
            else
              let t1 := { t with steps := t.steps + q1.left, accs := if f.pm then t.accs else t.accs.set acc (a.take s1.fired) }
              .done (((s1.cleanAll s1.curCore).setTeam s1.grp.team t1).enqueue q1)))

/-- MLOOP. -/
def execMloop (f : GrpLoop) (s : State) : Out := s.sequenceWord (.unlisted (.mloop f)) f .mloop false
/-- MLOOP4. -/
def execMloop4 (f : GrpLoop) (s : State) : Out := s.sequenceWord (.unlisted (.mloop4 f)) f .mloop4 true
/-- MSTEP. -/
def execMstep (f : GrpLoop) (s : State) : Out := s.sequenceWord (.unlisted (.mstep f)) f .mstep f.g4

/-! ## The accumulator pipe (R175, R176, R369 to R371) -/

/-- An accumulator of the executing group's team. -/
def State.acc (s : State) (n : Nat) : Acc := s.curTeam.accs.get n {}
/-- Writes an accumulator of the executing group's team. -/
def State.setAcc (s : State) (n : Nat) (a : Acc) : State :=
  s.setTeam s.grp.team { s.curTeam with accs := s.curTeam.accs.set n a }

/-- A word in the accumulator pipe: it waits for the words before it and for the holds on what it names, then for what its own
operation waits for; waiting, it keeps its place. -/
def State.pipeTurn (s s0 : State) (i : Instr) (go : Unit → GRes) : GRes :=
  let core := s.curCore
  let ahead := (s.pipe core).takeWhile (· != s.cur)
  let r := if !ahead.isEmpty || (accNames i).any (fun n => (s.acc n).hold.isSome) then .wait else go ()
  match r with
  | .wait =>
    if s0.grp.inPipe then .wait
    else
      let s1 := s0.setGrp { s0.grp with inPipe := true }
      let c := s1.core core
      .hold (s1.setCore core { c with accPipe := c.accPipe.filter (· != s1.cur) ++ [s1.cur] })
  | r => r

/-- An address of 16-byte alignment that a word's accesses start from. -/
def aligned16 (a : W64) : Bool := a.toNat % 16 == 0
/-- The fault of one that is not. -/
def misalignedAt (a : W64) (write : Bool) : AccFault := { cause := .misaligned, addr := a, wr := write }
/-- The fault of an access at such an address: what the order of 04_memory R59 puts before its alignment comes first. -/
def State.offAlign (s : State) (a : W64) (k : AccKind) : AccFault :=
  match s.check s.curCore s.curVd a 16 k with
  | .error f => f
  | .ok _ => misalignedAt a k.writes

/-- 16-byte pieces of `n` bytes from an address. -/
def pieces16 (a : W64) (n : Nat) : List W64 := (List.range (n / 16)).map (fun i => a + BitVec.ofNat 64 (16 * i))

/-- The first fault of accesses of 16 bytes each. -/
def State.firstFault (s : State) (as_ : List W64) (k : AccKind) : Option AccFault :=
  match as_ with
  | [] => none
  | a :: r =>
    match s.check s.curCore s.curVd a 16 k with
    | .error f => some f
    | .ok _ => s.firstFault r k

/-- Loads of 16 bytes each. -/
def State.load16s (s : State) (as_ : List W64) : State × Except AccFault (List Byte) :=
  match as_ with
  | [] => (s, .ok [])
  | a :: r =>
    let x := s.performLoad s.curCore s.curVd a 16 false
    match x.2 with
    | .error f => (x.1, .error f)
    | .ok bs =>
      let y := x.1.load16s r
      match y.2 with
      | .error f => (y.1, .error f)
      | .ok cs => (y.1, .ok (bs ++ cs))

/-- Stores of 16 bytes each, of checked addresses. -/
def State.store16s (s : State) (as_ : List W64) (bs : List Byte) : State :=
  match as_ with
  | [] => s
  | a :: r => ((s.performStore s.curCore s.curVd a (bs.take 16) false).1).store16s r (bs.drop 16)

/-- Some access of 16 bytes waits on a claim. -/
def State.blocked16 (s : State) (as_ : List W64) (k : AccKind) : Bool :=
  as_.any (fun a => s.blocked s.curCore s.curVd a 16 k false)

/-- The first piece of a scale block in host memory. -/
def State.hostPiece (s : State) (as_ : List W64) : Option AccFault :=
  match as_.find? (fun a => match s.check s.curCore s.curVd a 16 .load with
    | .ok p => p.isHost
    | .error _ => false) with
  | none => none
  | some a => some { cause := .pageProtection, addr := a, host := true }

/-- SCACC (R369). -/
def execScacc (d x : Fin 16) (b : Opnd) (te : Bool) (s : State) : Out :=
  .next (s.groupWord (.unlisted (.scacc d x b te)) { srcs := [{ o := b }], ok := d != x && s.accOk d.val && s.accOk x.val }
    (fun s1 vs =>
      let at_ := gv vs 0
      let ps := pieces16 at_ 144
      if !aligned16 at_ then .fault (s1.offAlign at_ .load)
      else
        match s1.firstFault ps .load, s1.hostPiece ps with
        | some f, _ => .fault f
        | none, some f => .fault f
        | none, none =>
          s1.pipeTurn s (.unlisted (.scacc d x b te)) (fun _ =>
            let slot := s1.acc x.val
            if !slot.full then (if te then .fault (plainFault .emptyRead) else .wait)
            else if s1.blocked16 ps .load then .wait
            else
              let r := s1.load16s ps
              match r.2 with
              | .error f => .fault f
              | .ok bs =>
                let a := r.1.acc d.val
                let base := if a.full then a else { a with vals := [] }
                let er (i : Nat) : Nat := (bs.getD i 0).toNat
                let ec (i : Nat) : Nat := (bs.getD (16 + i) 0).toNat
                .done ((r.1.setAcc d.val (base.scaleIn slot er ec)).setAcc x.val { slot with full := false }))))

/-- AZERO (R370). -/
def execAzero (d : Fin 16) (e : Bool) (s : State) : Out :=
  .next (s.groupWord (.unlisted (.azero d e)) { ok := s.accOk d.val } (fun s1 _ =>
    s1.pipeTurn s (.unlisted (.azero d e)) (fun _ =>
      let a := s1.acc d.val
      .done (s1.setAcc d.val (if e then { a with full := false } else { a with vals := [], full := true })))))

/-- Addresses of the 16 rows of `n` bytes, as pieces of 16. -/
def accPieces (a stride : W64) (n : Nat) : List W64 :=
  (List.range 16).flatMap (fun r => pieces16 (a + BitVec.ofNat 64 r * stride) n)

/-- ASTO and ACVT: `n` bytes an element, converted by `f`. -/
def State.storeAcc (s : State) (i : Instr) (d : Fin 16) (a b : Opnd) (te : Bool) (n : Nat) (f : W32 → Nat) : Out :=
  .next (s.groupWord i { srcs := [{ o := a }, { o := b }], ok := s.accOk d.val } (fun s1 vs =>
    let ps := accPieces (gv vs 0) (gv vs 1) (128 * n)
    if !aligned16 (gv vs 0) then .fault (s1.offAlign (gv vs 0) .store)
    else if !aligned16 (gv vs 1) then .fault (misalignedAt (gv vs 1) true)
    else
      match s1.firstFault ps .store with
      | some e => .fault e
      | none =>
        s1.pipeTurn s i (fun _ =>
          let x := s1.acc d.val
          if !x.full then (if te then .fault (plainFault .emptyRead) else .wait)
          else if s1.blocked16 ps .store then .wait
          else .done (s1.store16s ps ((List.range 16).flatMap (fun r => x.rowBytes r n f))))))

/-- ASTO (R371). -/
def execAsto (d : Fin 16) (a b : Opnd) (te : Bool) (s : State) : Out :=
  s.storeAcc (.unlisted (.asto d a b te)) d a b te 4 (fun w => w.toNat)

/-- ACVT (R371): RN, no flag. -/
def execAcvt (d : Fin 16) (a b : Opnd) (fmt : Fin 4) (sat te : Bool) (s : State) : Out :=
  let f := acvtFmt fmt.val
  s.storeAcc (.unlisted (.acvt d a b fmt sat te)) d a b te (f.bits / 8) (fun w => (f.encode .rn sat (fp32 w)).1)

/-- ALDA (R370). -/
def execAlda (d : Fin 16) (a b : Opnd) (s : State) : Out :=
  .next (s.groupWord (.unlisted (.alda d a b)) { srcs := [{ o := a }, { o := b }], ok := s.accOk d.val } (fun s1 vs =>
    let ps := accPieces (gv vs 0) (gv vs 1) 512
    if !aligned16 (gv vs 0) then .fault (s1.offAlign (gv vs 0) .load)
    else if !aligned16 (gv vs 1) then .fault (misalignedAt (gv vs 1) false)
    else
      match s1.firstFault ps .load with
      | some e => .fault e
      | none =>
        s1.pipeTurn s (.unlisted (.alda d a b)) (fun _ =>
          if s1.blocked16 ps .load then .wait
          else
            let r := s1.load16s ps
            match r.2 with
            | .error f => .fault f
            | .ok bs =>
              let word (e : Nat) : W32 := BitVec.ofNat 32 (leValue ((bs.drop (4 * e)).take 4))
              .done (r.1.setAcc d.val { (r.1.acc d.val).rewrite (fun r c _ => word (r * 128 + c)) with full := true }))))

/-! ## MSTAT (R372) -/

/-- The sequencer words of a team, in order. -/
def State.teamSeqs (s : State) (team : Nat) : List SeqCmd := (s.core (s.team team).core).seqs.filter (fun q => q.team == team)

/-- The mask of a team's accumulators that pass a test. -/
def Team.accMask (t : Team) (p : Acc → Bool) : Nat :=
  (List.range t.nAccs).foldl (fun m n => m + bitNat (p (t.accs.get n {})) * 2 ^ n) 0

/-- What MSTAT returns. -/
def State.tableStatus (s : State) (team sel : Nat) : W64 :=
  let t := s.team team
  let qs := s.teamSeqs team
  if sel = 0 then
    let run := match qs.find? (fun q => q.started && (q.kind.loops || q.kind == .mstep)) with
      | some q => q.step
      | none => 0xFFFF
    BitVec.ofNat 64 (t.steps * 2 ^ 48 + run % 2 ^ 16 * 2 ^ 32 + min 15 (qs.countP (fun q => !q.started)) * 2 ^ 28 +
      t.accMask (fun a => a.hold.isSome))
  else if sel = 1 then BitVec.ofNat 64 (t.accMask (·.full))
  else BitVec.ofNat 64 ((List.range 8).foldl (fun m n => m + (t.tile n).state.code * 16 ^ n) 0)

/-- MSTAT. -/
def execMstat (d : Opnd) (sel : Fin 4) (wt : Bool) (s : State) : Out :=
  .next (s.groupWord (.unlisted (.mstat d sel wt)) { dest := destOf d 1, counts := wt, ok := (!wt || d.isReg) && sel.val != 3 }
    (fun s1 _ =>
      if !wt then .done (s1.writeGroup d (s1.tableStatus s1.grp.team sel.val))
      else if maxStatusWaits ≤ s1.grp.waits.length then .wait
      else .done (s1.statusWait d (.mstat sel.val ((s1.teamSeqs s1.grp.team).map (·.id))))))

end Sys2Proof.Machine
end

