-- ==== Sys2Proof/Machine/Combine.lean ====
section
/-! DEFINITION. Generation tags and the combine engine: buffers, slots, release, and their words (16_experts R272 to R281,
R380 to R384). -/

namespace Sys2Proof.Machine

/-! ## Slots (R277) -/

/-- A slot becomes DONE, computed with its present entries (R277). -/
def State.slotDone (s : State) (b : CmbBuf) (i : Nat) : State :=
  let w := (s.slotWord b i 0).toNat + 2 ^ 36
  if s.slotFull b i then s.cmbPut (b.slotKey i) w else (s.cmbPut (b.slotKey i) (w + 2 ^ 31)).cmbCount b 32

/-! ## The weighted sum (R279) -/

/-- Quotient of exact values with a sticky bit below 64 further bits; the divisor is not zero. -/
def Ext.divBy (a b : Ext) : Ext :=
  match a, b with
  | .nan, _ => .nan
  | _, .nan => .nan
  | .inf _, .inf _ => .nan
  | .inf n, .fin n' _ _ => .inf (n != n')
  | .fin n _ _, .inf n' => .fin (n != n') 0 0
  | .fin n m e, .fin n' m' e' =>
    let k := 64 + Nat.log2 m'
    let q := m * 2 ^ k / m'
    .fin (n != n') (2 * q + (if m * 2 ^ k % m' = 0 then 0 else 1)) (e - e' - k - 1)

/-- The FP32 sum of weights, the first alone, each later one added with one rounding. -/
def weightSum (ws : List W32) : W32 :=
  match ws with
  | [] => 0
  | w :: r => r.foldl (fun a x => (roundFp32 .rn (((fp32 a).add .rn (fp32 x)).1)).1) w

/-- The entries in ascending EIDX. -/
def State.slotOrder (s : State) (b : CmbBuf) (i : Nat) : List Nat :=
  sortBy (fun x y => decide (s.slotExpert b i x ≤ s.slotExpert b i y)) (List.range (s.slotNk b i))

/-- The weights w' of the present entries, in ascending EIDX: entry and weight. -/
def State.slotWeights (s : State) (b : CmbBuf) (i : Nat) : List (Nat × W32) :=
  let order := s.slotOrder b i
  let present := order.filter (s.slotArr b i)
  let w := s.slotWeight b i
  if b.renorm && decide (present.length < order.length) then
    let p := weightSum (present.map w)
    let isZero := match fp32 p with
      | .fin _ m _ => m == 0
      | .nan => false
      | .inf _ => false
    if present.isEmpty || isZero then present.map (fun j => (j, 0))
    else
      let q := (roundFp32 .rn ((fp32 (weightSum (order.map w))).divBy (fp32 p))).1
      present.map (fun j => (j, (roundFp32 .rn (((fp32 (w j)).mul (fp32 q)).1)).1))
  else present.map (fun j => (j, w j))

/-- Element `e` of a staging row. -/
def State.stagedElement (s : State) (b : CmbBuf) (i j e : Nat) : Ext :=
  if b.bf16In then exact .bf16 (s.loadLe (b.rowKey i j + 2 * e) 2) else fp32 (s.load32 (b.rowKey i j + 4 * e))

/-- Element `e` of the output (R50). -/
def State.slotOutput (s : State) (b : CmbBuf) (i : Nat) (ws : List (Nat × W32)) (e : Nat) : W32 :=
  match ws with
  | [] => 0
  | x :: r =>
    r.foldl (fun o y => (roundFp32 .rn ((((fp32 y.2).mul (s.stagedElement b i y.1 e)).1.add .rn (fp32 o)).1)).1)
      (roundFp32 .rn (((fp32 x.2).mul (s.stagedElement b i x.1 e)).1)).1

/-- The output row as bytes. -/
def State.slotRow (s : State) (b : CmbBuf) (i : Nat) : List Byte :=
  let ws := s.slotWeights b i
  (List.range b.elements).flatMap (fun e =>
    let v := s.slotOutput b i ws e
    if b.bf16Out then leBytes 2 (Fmt.encode .bf16 .rn false (fp32 v)).1 else leBytes 4 v.toNat)

/-! ## Signals -/

/-- An error goes to a signal's word 1, only while ERR is 0 (11_fabric R192). -/
def State.signalError (s : State) (key : Nat) (cause : BitVec 8) (missing : Nat) : State :=
  let w := s.load64 (key + 8)
  if w.bit 32 then s
  else s.writeKey (key + 8) (leBytes 8 (w.field 0 32 + 2 ^ 32 + cause.toNat * 2 ^ 40 + missing % 2 ^ 16 * 2 ^ 48))

/-- The 16 bytes of a signal as an engine beside a core reaches them: no host memory, no uncorrectable granule. -/
def State.engineSignal (s : State) (core vd : Nat) (a : W64) : Except AccFault Nat :=
  match s.signalKey core vd a .atomic with
  | .error f => .error f
  | .ok k => if s.poisoned k 8 then .error (uncorrectableAt a true false) else .ok k

/-! ## Release (R277, R279) -/

/-- The cause goes to SIG's error word, where SIG can be written. -/
def State.cmbError (s : State) (b : CmbBuf) (c : Cause) : State :=
  if b.sig = 0 then s
  else
    match s.signalKey b.core b.vd b.sig .atomic with
    | .error _ => s
    | .ok k => if s.poisonPartial (k + 8) 8 then s else s.signalError k c.code 0

/-- A claim covers some of the buffer: the engine's events wait (06_copy R89). -/
def State.bufferClaimed (s : State) (b : CmbBuf) : Bool := s.claimed b.base (bufferBytes (s.load64 b.base))

/-- What a release reads is uncorrectable somewhere: the slot's header, or a staged row (04_memory R67). -/
def State.slotBad (s : State) (b : CmbBuf) (i : Nat) : Bool :=
  s.poisoned (b.slotKey i) 64 ||
    (List.range (min (s.slotNk b i) 8)).any (fun j => s.slotArr b i j && s.poisoned (b.rowKey i j) b.rlen)

/-- A DONE slot is released, or abandoned on a fault; none while a claim stands in the way (06_copy R89). -/
def State.slotRelease (s : State) (b : CmbBuf) (i : Nat) : Option State :=
  let row := s.slotRow b i
  let at_ := b.out.toNat + s.slotToken b i * b.ostride
  let sig := if b.sig = 0 then .ok 0 else s.engineSignal b.core b.vd b.sig
  let fail (s : State) (c : Cause) : State := (s.slotAbandon b i).cmbError b c
  if s.bufferClaimed b then none
  else if s.slotBad b i then some (fail s .uncorrectable)
  else
  match rangeOf (s.corePlace b.core b.vd .store) at_ row.length with
  | .error f => some (fail s f.cause)
  | .ok ps =>
    if ps.any (fun p => s.claimed p.1 p.2) || (match sig with
        | .ok k => b.sig != 0 && s.claimed k 16
        | .error _ => false) then none
    else if (s.badWrite ps).isSome then some (fail s .uncorrectable)
    else
      let s1 := (s.touchRange b.core b.vd at_ row.length .store).writePieces ps row
      match sig with
      | .error f => some (fail s1 f.cause)
      | .ok k =>
        let s2 := if b.sig = 0 then s1
          else ((s1.captureInput b.vd .atomic [b.sig]).touchRange b.core b.vd b.sig.toNat 16 .atomic).writeKey k (leBytes 8 (s1.loadLe k 8 + 1))
        let s3 := if b.inOrder then s2.bumpTok b else s2
        some (s3.slotFree b i)

/-- The slot that may be released next: under IN_ORDER only the one whose TOKEN is NEXTTOK. -/
def State.slotReady (s : State) (b : CmbBuf) : Option Nat :=
  (List.range b.nslot).find? (fun i => s.slotState b i == 2 && (!b.inOrder || s.slotToken b i == s.nextTok b))

/-- Releases follow until none is ready or a claim stands in the way. -/
def State.cmbDrain (s : State) (b : CmbBuf) (fuel : Nat) : State :=
  match fuel with
  | 0 => s
  | n + 1 =>
    match s.slotReady b with
    | none => s
    | some i =>
      match s.slotRelease b i with
      | none => s
      | some s1 => s1.cmbDrain b n

/-- Every release that is ready. -/
def State.cmbRelease (s : State) (b : CmbBuf) : State := s.cmbDrain b (b.nslot + 1)

/-- A release that is ready has to wait for a claim. -/
def State.releaseHeld (s : State) (b : CmbBuf) : Bool :=
  match s.slotReady b with
  | none => false
  | some i => (s.slotRelease b i).isNone

/-- The combine buffers of a virtual device: index and segment. -/
def State.cmbSegs (s : State) (vd : Nat) : List (Nat × Seg) := (s.vdev vd).segs.filter (fun p => p.2.buffer && p.2.present)

/-- A release that a claim held up: the first buffer that has one ready. -/
def State.cmbStep (s : State) : State :=
  match (s.vdevs.flatMap (fun v => (s.cmbSegs v.1).map (fun p => s.cmbAt v.1 p.2))).find? (fun b =>
      match s.slotReady b with
      | none => false
      | some i => (s.slotRelease b i).isSome) with
  | none => s
  | some b => (s.cmbRelease b).fire

/-! ## Results and deadlines (R277, R278) -/

/-- Cycles of a cluster's combine engine (R275; log entry 2). -/
def State.engineCycle (s : State) (core : Nat) : W64 := BitVec.ofNat 64 s.now + Config.cycOffset (Config.nCores + clusterOf core)

/-- Cycles that have passed since the deadline of a slot. -/
def State.pastDeadline (s : State) (b : CmbBuf) (i : Nat) : Nat := (s.engineCycle b.core - s.slotWord b i 1).toNat

/-- The deadline of an OPEN slot lies in an earlier cycle: one that falls in this cycle comes after the results of the cycle (R278). -/
def State.slotExpired (s : State) (b : CmbBuf) (i : Nat) : Bool :=
  b.tmo != 0 && s.slotState b i == 1 && decide (1 ≤ s.pastDeadline b i) && decide (s.pastDeadline b i < 2 ^ 63)

/-- The slots whose deadlines have passed, the earliest deadline first; of one cycle the lowest slot first (DESIGN CHOICE, log entry 95). -/
def State.expired (s : State) (b : CmbBuf) : List Nat :=
  sortBy (fun x y => decide (s.pastDeadline b y ≤ s.pastDeadline b x)) ((List.range b.nslot).filter (s.slotExpired b))

/-- Every deadline that has passed is performed: before any other event that reaches the buffer (R278). -/
def State.cmbNow (s : State) (b : CmbBuf) : State := (s.expired b).foldl (fun s i => (s.slotDone b i).cmbRelease b) s

/-- A result reaches the buffer: staged at the entry that it matches, else discarded and counted late. -/
def State.cmbResult (s0 : State) (b : CmbBuf) (tok expert tag : Nat) (row : List Byte) : State :=
  let s := s0.cmbNow b
  let i := tok % b.nslot
  let j := (List.range (min (s.slotNk b i) 8)).find? (fun j => s.slotExpert b i j == expert)
  match j with
  | none => s.cmbCount b 48
  | some j =>
    if s.slotState b i = 1 ∧ s.slotToken b i = tok ∧ s.slotTag b i = tag ∧ !s.slotArr b i j ∧ row.length = b.rlen then
      let s1 := s.putSlice (b.rowKey i j) row
      let s2 := s1.cmbPut (b.slotKey i) ((s1.slotWord b i 0).toNat + 2 ^ (40 + j))
      if s2.slotFull b i then (s2.slotDone b i).cmbRelease b else s2
    else s.cmbCount b 48

/-- COMBINE_DEADLINE of slot `on.c` of the buffer in segment `on.b` of virtual device `on.a` (R277): with it every deadline of the buffer
that has passed, in their order. -/
def execCombineDeadline (s : State) : Out :=
  let g := s.seg s.on.a s.on.b
  let b := s.cmbAt s.on.a g
  if g.buffer && g.present && decide (s.on.c < b.nslot) && s.slotExpired b s.on.c && !s.bufferClaimed b then
    .next (s.cmbNow b).fire
  else .next s

/-! ## Generation tags (R272, R273) -/

/-- The tag is retired in the virtual device; tag 0 never is. -/
def State.tagRetired (s : State) (vd tag : Nat) : Bool := tag != 0 && (s.vdev vd).retired.contains tag

/-- Every OPEN or DONE slot of a buffer that carries the tag is abandoned, in token order from NEXTTOK; then what is ready is
released. -/
def State.cmbRetire (s : State) (b : CmbBuf) (tag : Nat) : State :=
  let s1 := s.cmbNow b
  (s1.abandonWhere b (fun i => s1.slotTag b i == tag)).cmbRelease b

/-- A retirement (R273). -/
def State.retireTag (s : State) (vd tag : Nat) : State :=
  let v := s.vdev vd
  let s1 := s.setVdev vd { v with retired := if v.retired.contains tag then v.retired else tag :: v.retired }
  (s1.cmbSegs vd).foldl (fun s p => s.cmbRetire (s.cmbAt vd p.2) tag) s1

/-- A retirement waits: on a claim of a buffer, or of what a release that it sets off writes. -/
def State.retireWaits (s : State) (vd tag : Nat) : Bool :=
  (s.cmbSegs vd).any (fun p => s.bufferClaimed (s.cmbAt vd p.2)) ||
    (let s1 := s.retireTag vd tag
     (s1.cmbSegs vd).any (fun p => s1.releaseHeld (s1.cmbAt vd p.2)))

/-- A tag is un-retired. -/
def State.clearTag (s : State) (vd tag : Nat) : State :=
  let v := s.vdev vd
  s.setVdev vd { v with retired := v.retired.filter (· != tag) }

/-- GENTAG (R380). -/
def execGentag (f : GrpThree) (rem : Bool) (op : Fin 4) (s : State) : Out :=
  .next (s.groupWord (.unlisted (.gentag f rem op))
    { srcs := if rem then [{ o := f.a }, { o := f.b }] else [{ o := f.a }], dest := destOf f.d 1, counts := rem }
    (fun s1 vs =>
      let vd := s1.curVd
      let tag := (gv vs 0).field 0 16
      let was := s1.tagRetired vd tag
      let old : W64 := if was then 1 else 0
      if (op.val = 1 ∨ op.val = 2) ∧ tag = 0 then .fault (plainFault .reservedField)
      else if rem then
        match s1.grp.replyWait with
        | some (ids, n) => if ids.isEmpty then .done (s1.writeGroup f.d (BitVec.ofNat 64 n)) else .wait
        | none =>
          match s1.grpCheck (gv vs 1) none { perm := 58, kinds := [0], size := 0, wr := true } with
          | .error e => .fault e
          | .ok t =>
            if !s1.canSend vd 5 [t] then .wait
            else
              .hold (((s.setGrp { s.grp with replyWait := some ([s.sends], 0) }).keepOf (gv vs 1)).sendReq
                { vd := vd, group := s.cur, t := t, vc := 5, kind := 0x18, op := op.val, size := 2, rk := .tag,
                  data := leBytes 2 tag })
      else if op.val = 0 then
        if was then .fault (plainFault .generationRetired)
        else
          .done ((s1.setGrp { s1.grp with gentag := BitVec.ofNat 16 tag }).writeGroup f.d (s1.grp.gentag.zeroExtend 64))
      else if op.val = 1 then (if s1.retireWaits vd tag then .wait else .done ((s1.retireTag vd tag).writeGroup f.d old))
      else if op.val = 2 then .done ((s1.clearTag vd tag).writeGroup f.d old)
      else .done (s1.writeGroup f.d old)))

/-! ## The combine words (R280, R381 to R384) -/

/-- The segment at a base, for a combine word. -/
def State.cmbSeg (s : State) (a : W64) : Except GRes (Nat × Seg) :=
  match s.segAtBase s.curVd a with
  | none => .error (.fault (attachMissAt a))
  | some i => .ok (i, s.seg s.curVd i)

/-- The buffer at a base whose V is 1; while a claim covers some of it the word waits. -/
def State.liveCmb (s : State) (a : W64) : Except GRes CmbBuf :=
  match s.cmbSeg a with
  | .error r => .error r
  | .ok (_, g) =>
    if s.claimed g.base 64 then .error .wait
    else if (s.load64 g.base).bit 63 && !g.cluster then
      (let b := s.cmbAt s.curVd g
       if s.bufferClaimed b then .error .wait else .ok b)
    else .error (.fault (plainFault .reservedField))

/-- The eight words at an address aligned to 64, read as a plain load of the group. -/
def State.eightWords (s : State) (a : W64) : State × Except GRes (List W64) :=
  if s.blocked s.curCore s.curVd a 64 .load false then (s, .error .wait)
  else
    let r := s.performLoad s.curCore s.curVd a 64 false
    match r.2 with
    | .error f => (r.1, .error (.fault f))
    | .ok bs => (r.1, .ok ((List.range 8).map (fun i => BitVec.ofNat 64 (leValue ((bs.drop (8 * i)).take 8)))))

/-- An own-slice alias is resolved to the issuing core's slice (R381). -/
def resolveAlias (core : Nat) (a : W64) : W64 :=
  if aliasBase ≤ a.toNat ∧ a.toNat < aliasBase + Config.sliceBytes then BitVec.ofNat 64 (ownSlice core a.toNat) else a

/-- CMBCFG (R381). -/
def execCmbcfg (f : GrpThree) (s : State) : Out :=
  .next (s.groupWord (.unlisted (.cmbcfg f)) { srcs := [{ o := f.a }, { o := f.b }], dest := destOf f.d 1 } (fun s1 vs =>
    match s1.cmbSeg (gv vs 1) with
    | .error r => r
    | .ok (i, g) =>
      if g.writer ≠ some s1.grp.team then .fault (attachMissAt (gv vs 1))
      else if g.cluster then .fault (plainFault .reservedField)
      else
        let r := s1.eightWords (gv vs 0)
        match r.2 with
        | .error e => e
        | .ok ws =>
          let w (n : Nat) : W64 := ws.getD n 0
          let s2 := r.1
          let out := resolveAlias s2.curCore (w 2)
          let sig := resolveAlias s2.curCore (w 4)
          if (w 0).field 26 38 ≠ 0 ∨ (w 1).field 32 32 ≠ 0 ∨ (w 3).field 32 32 ≠ 0 ∨ w 5 ≠ 0 ∨ w 6 ≠ 0 ∨ w 7 ≠ 0 ∨
              g.ng * granuleBytes < bufferBytes (w 0) then .fault (plainFault .reservedField)
          else if out.toNat % 16 ≠ 0 then .fault { cause := .misaligned, addr := out }
          else if (w 3).toNat % 16 ≠ 0 then .fault { cause := .misaligned, addr := w 3 }
          else if sig.toNat % 16 ≠ 0 then .fault { cause := .misaligned, addr := sig }
          else if s2.claimed g.base (max (bufferBytes (w 0)) (bufferBytes (s2.load64 g.base))) then .wait
          else if g.buffer ∧ ((s2.cmbNow (s2.cmbAt s2.curVd g)).load64 (g.base + 0x30)).field 24 13 ≠ 0 then
            .done ((s2.cmbNow (s2.cmbAt s2.curVd g)).writeGroup f.d 1)
          else
            let hdr := [w 0 ||| 0x8000000000000000, w 1, out, w 3, sig, 0, 0, 0]
            let s2 := if g.buffer then s2.cmbNow (s2.cmbAt s2.curVd g) else s2
            let s3 := (s2.setSeg s2.curVd i { g with buffer := true }).putSlice g.base
              (hdr.flatMap (fun x => leBytes 8 x.toNat) ++ List.replicate (64 * ((w 0).field 0 12 + 1)) 0)
            .done (s3.writeGroup f.d 0)))

/-- The fault of a group whose tag is retired. -/
def State.retiredGroup (s : State) : Bool := s.tagRetired s.curVd s.grp.gentag.toNat

/-- An open record is in order (R382). -/
def openRecordOk (kmax : Nat) (w : Nat → W64) : Bool :=
  let nk := (w 0).field 32 4
  let eidx (j : Nat) : Nat := (w (2 + j / 4)).field (16 * (j % 4)) 16
  let wt (j : Nat) : Nat := (w (4 + j / 2)).field (32 * (j % 2)) 32
  (w 0).field 36 28 == 0 && (w 0).field 24 8 == 0 && w 1 == 0 && decide (1 ≤ nk) && decide (nk ≤ kmax) &&
    (List.range 8).all (fun j => decide (j < nk) || (eidx j == 0 && wt j == 0)) &&
    (List.range nk).all (fun j => (List.range j).all (fun l => eidx l != eidx j))

/-- The stow of a segment whose combine buffer gets an open slot is cut short, as by an attach: a segment with such a slot counts as attached
(R274; DEDUCED, log entry 92). -/
def State.cutFor (s : State) (vd : Nat) (b : CmbBuf) : State :=
  match s.segAtBase vd (BitVec.ofNat 64 b.base) with
  | none => s
  | some i => if (s.seg vd i).state = .stowing then s.cutStow vd i else s

/-- CMBOPEN (R382). -/
def execCmbopen (f : GrpThree) (strict : Bool) (s : State) : Out :=
  .next (s.groupWord (.unlisted (.cmbopen f strict)) { srcs := [{ o := f.a }, { o := f.b }], dest := destOf f.d 1 } (fun s1 vs =>
    match s1.liveCmb (gv vs 1) with
    | .error r => r
    | .ok b =>
      if s1.retiredGroup then .fault (plainFault .generationRetired)
      else
        let r := s1.eightWords (gv vs 0)
        match r.2 with
        | .error e => e
        | .ok ws =>
          let w (n : Nat) : W64 := ws.getD n 0
          let s2 := r.1.cmbNow b
          let i := (w 0).field 0 24 % b.nslot
          if !openRecordOk b.kmax w then .fault (plainFault .reservedField)
          else if s2.slotState b i ≠ 0 then (if strict then .fault (plainFault .combineSlots) else .wait)
          else
            let w0 := (w 0).toNat + 2 ^ 36 + s2.grp.gentag.toNat * 2 ^ 48
            let dl : W64 := if b.tmo = 0 then 0 else s2.engineCycle b.core + BitVec.ofNat 64 b.tmo
            let hdr := leBytes 8 w0 ++ leBytes 8 dl.toNat ++ (ws.drop 2).flatMap (fun x => leBytes 8 x.toNat)
            let s3 := ((s2.cutFor s2.curVd b).putSlice (b.slotKey i) hdr).cmbOpenCount b (· + 1)
            .done (s3.writeGroup f.d (BitVec.ofNat 64 i))))

/-- The row that a CMBPUT reads, like a copy source (06_copy R90): pieces, or the fault. -/
def State.putSource (s : State) (a : W64) (n : Nat) : Except GRes (List (Nat × Nat)) :=
  if a.toNat % 16 ≠ 0 then .error (.fault { cause := .misaligned, addr := a })
  else
    match rangeOf (s.corePlace s.curCore s.curVd .load) a.toNat n with
    | .error f => .error (.fault f)
    | .ok ps =>
      if s.dirtyClaimed s.curCore || ps.any (fun p => s.claimed p.1 p.2) then .error .wait else .ok ps

/-- The row is read after the group's earlier writes. -/
def State.putRow (s : State) (a : W64) (n : Nat) (ps : List (Nat × Nat)) : State × Except GRes (List Byte) :=
  let s1 := (s.cleanAll s.curCore).touchRange s.curCore s.curVd a.toNat n .load
  match s1.badOffset ps with
  | some o => (s1, .error (.fault { cause := .uncorrectable, addr := a + BitVec.ofNat 64 o }))
  | none => (s1, .ok (s1.readPieces ps))

/-- CMBPUT (R383). The length of a remote row, which the spec does not give, is a free value within RLEN's range. -/
def execCmbput (f : GrpThree) (rem : Bool) (s : State) : Out :=
  .next (s.groupWord (.unlisted (.cmbput f rem)) { srcs := [{ o := f.a }, { o := f.b }, { o := f.d }], counts := rem } (fun s1 vs =>
    let ctl := gv vs 2
    if rem then
      let n := 64 * ((Config.freeWord s1.free).toNat % 128 + 1)
      match s1.grpCheck (gv vs 1) none { perm := 58, kinds := [0], single := true, size := n, wr := true } with
      | .error e => .fault e
      | .ok t =>
        match s1.putSource (gv vs 0) n with
        | .error r => r
        | .ok ps =>
          if !s1.canSend s1.curVd 4 [t] then .wait
          else
            let r := s1.putRow (gv vs 0) n ps
            match r.2 with
            | .error e => e
            | .ok bs =>
              .done (((r.1.draw).keepOf (gv vs 1)).sendPosted
                [{ vd := s1.curVd, group := s1.cur, t := t, vc := 4, kind := 7, op := 0xC, size := n, rk := .posted,
                   gentag := s1.grp.gentag, data := leBytes 8 ctl.toNat ++ bs }])
    else
      match s1.liveCmb (gv vs 1) with
      | .error r => r
      | .ok b =>
        if s1.retiredGroup then .fault (plainFault .generationRetired)
        else
          match s1.putSource (gv vs 0) b.rlen with
          | .error r => r
          | .ok ps =>
            let r := s1.putRow (gv vs 0) b.rlen ps
            match r.2 with
            | .error e => e
            | .ok bs =>
              let s2 := r.1.cmbResult b (ctl.field 0 24) (ctl.field 48 16) s1.grp.gentag.toNat bs
              if s2.releaseHeld b then .wait else .done s2))

/-- CMBREL (R384). -/
def execCmbrel (f : GrpThree) (drop : Bool) (s : State) : Out :=
  .next (s.groupWord (.unlisted (.cmbrel f drop)) { srcs := [{ o := f.a }, { o := f.b }], dest := destOf f.d 1 } (fun s1 vs =>
    match s1.liveCmb (gv vs 1) with
    | .error r => r
    | .ok b =>
      let s2 := s1.cmbNow b
      let tok := (gv vs 0).field 0 24
      let i := tok % b.nslot
      let st := s2.slotState b i
      if st = 0 ∨ s2.slotToken b i ≠ tok ∨ (!drop ∧ st ≠ 1) then .done (s2.writeGroup f.d 1)
      else
        let s3 := (if drop then s2.slotAbandon b i else s2.slotDone b i).cmbRelease b
        if s3.releaseHeld b then .wait else .done (s3.writeGroup f.d 0)))

/-- CMBSTAT (R384). -/
def execCmbstat (f : GrpThree) (slot : Bool) (n : Fin 8) (s : State) : Out :=
  .next (s.groupWord (.unlisted (.cmbstat f slot n))
    { srcs := if slot then [{ o := f.a }, { o := f.b }] else [{ o := f.b }], dest := destOf f.d 1 } (fun s1 vs =>
    match s1.liveCmb (gv vs (if slot then 1 else 0)) with
    | .error r => r
    | .ok b =>
      let s2 := s1.cmbNow b
      if !slot then .done (s2.writeGroup f.d (s2.load64 (b.base + 8 * n.val)))
      else
        let tok := (gv vs 0).field 0 24
        let i := tok % b.nslot
        .done (s2.writeGroup f.d (if s2.slotToken b i = tok ∧ s2.slotState b i ≠ 0 then s2.slotWord b i n.val else 0))))

end Sys2Proof.Machine
end

