-- ==== Sys2Proof/Machine/Spawn.lean ====
section
/-! DEFINITION. Spawn bins: records, SPAWN, SPAWNG, BINSET, BINFL, flush timers and rings, and the ends of status waits
(13_execution R238 to R241, 05_slices R385, 07_registers R105). -/

namespace Sys2Proof.Machine

/-! ## Records and bins (R238, R239, R241) -/

/-- Bytes of a record. -/
def recBytes : RecSize → Nat
  | .s16 => 16
  | .s32 => 32
  | .s64 => 64

/-- Size code of a record of so many bytes. -/
def recCode (n : Nat) : Nat := if n = 16 then 0 else if n = 32 then 1 else 2

/-- Records that a bin holds at most. -/
def binRoom : Nat := 1024
/-- Records that a spawn group takes at most. -/
def spawnMax : Nat := 32

/-- Header of a record (R238). -/
def recHeader (gentag srcIdx srcCore srcTid bin size : Nat) (remote : Bool) : Nat :=
  gentag % 2 ^ 16 * 2 ^ 48 + srcIdx % 2 ^ 12 * 2 ^ 36 + srcCore % 2 ^ 10 * 2 ^ 26 + srcTid % 32 * 2 ^ 21 + bin % 64 * 2 ^ 15 +
    recCode size * 4 + bitNat remote * 2

/-- A bin of a launch. -/
def Launch.bin (l : Launch) (n : Nat) : Bin := l.bins.get n {}
/-- The bin is declared. -/
def Launch.declares (l : Launch) (n : Nat) : Bool := (l.bins.find n).isSome

/-- Writes a bin. -/
def State.setBin (s : State) (k n : Nat) (b : Bin) : State := s.setLaunch k { s.launch k with bins := (s.launch k).bins.set n b }

/-- Status word of a bin (R241). -/
def Bin.status (b : Bin) : W64 :=
  BitVec.ofNat 64 (b.core * 2 ^ 54 + recCode b.size * 2 ^ 52 + bitNat b.open_ * 2 ^ 51 + b.flush * 2 ^ 31 +
    min 0xFFFF b.discarded * 2 ^ 11 + b.records.length)

/-- A record arrives: discarded where its tag is retired, else held, and written into its place of the ring; a record that
enters an empty bin starts the timer (R239). -/
def State.addRecord (s : State) (k n tag : Nat) (bytes : List Byte) : State :=
  let b := (s.launch k).bin n
  if s.tagRetired (s.launch k).vd tag then s.setBin k n { b with discarded := b.discarded + 1 }
  else
    let s1 := match b.gran with
      | none => s
      | some g => s.writeSlice (granuleKey b.core g + b.written % binRoom * b.size) bytes
    let timer := if b.records.isEmpty then some s.now else b.timerAt
    s1.setBin k n { b with records := b.records ++ [bytes], written := b.written + 1, timerAt := timer }

/-- A bin's records are to be launched now: 32 of them, or eligible ones. -/
def Bin.due (b : Bin) : Bool := decide (spawnMax ≤ b.records.length) || decide (0 < b.eligible)

/-- BIN_FLUSH_TIMER_EXPIRY of bin `on.b` of launch `on.a` (R239). -/
def execBinFlushTimerExpiry (s : State) : Out :=
  let b := (s.launch s.on.a).bin s.on.b
  match b.timerAt with
  | none => .next s
  | some t =>
    if !b.records.isEmpty && decide (t + b.flush ≤ s.now) then
      .next (s.setBin s.on.a s.on.b { b with timerAt := none, eligible := b.records.length }).fire
    else .next s

/-- Free granules of a core's slice. -/
def State.freeCount (s : State) (core : Nat) : Nat := (List.range 40).countP (s.granuleFree core)

/-- Bins of a launch on a core. -/
def Launch.binsOn (l : Launch) (core : Nat) : Nat := l.bins.countP (fun p => p.2.core == core)

/-- Stows for the rings of a launch, in each slice that has too few free granules for its bins. -/
def State.ringStows (s : State) (k : Nat) : State :=
  let l := s.launch k
  ((l.bins.map (fun p => p.2.core)).eraseDups).foldl (fun s c =>
    if l.binsOn c ≤ s.freeCount c then s
    else s.beginStows l.vd (.rings k) (fun x => decide (l.binsOn c ≤ x.freeCount c)) (s.candidatesFor l.vd [c])) s

/-- BIN_RING_ALLOCATION of launch `on.a` (R385): one granule in the slice of each bin's core, all together or none, with stows
for room. -/
def execBinRingAllocation (s : State) : Out :=
  let k := s.on.a
  let l := s.launch k
  if !l.eligible || l.ringsReady || l.retired || l.failed.isSome || s.stowsFor (.rings k) then .next s
  else
    let r := l.bins.foldl (fun (r : Option (State × FMap Bin)) p =>
      match r with
      | none => none
      | some (s1, bs) =>
        match s1.freeRun [p.2.core] 1 with
        | none => none
        | some g => some (s1.takeGranules l.vd [p.2.core] g 1, bs.set p.1 { p.2 with gran := some g })) (some (s, l.bins))
    match r with
    | some (s1, bs) => .next (s1.setLaunch k { l with bins := bs, ringsReady := true }).fire
    | none => if (s.ringStows k).stowsFor (.rings k) then .next (s.ringStows k).fire else .next s

/-- The rings of a launch are freed (R385). -/
def State.freeRings (s : State) (k : Nat) : State :=
  (s.launch k).bins.foldl (fun s p =>
    match p.2.gran with
    | none => s
    | some g => (s.freeGranules [p.2.core] g 1).setBin k p.1 { p.2 with gran := none }) s

/-! ## SPAWN (R240) -/

/-- The payload that a thread's registers give. -/
def Thread.payload (x : Thread) (a n : Nat) : List Byte := (List.range ((n - 8) / 4)).flatMap (fun i => leBytes 4 (x.reg (a + i)).toNat)

/-- One thread's record: the state after it, the parked thread with it, or none where the bin is full. -/
def State.spawnOne (s : State) (k t a n : Nat) (v : W32) : Option State :=
  let g := s.grp
  let x := g.thread t
  let l := s.launch k
  let b := l.bin v.toNat
  if 64 ≤ v.toNat ∨ !l.declares v.toNat ∨ b.size ≠ n then some (s.setGrp (g.parkThread t (plainFault .reservedField)))
  else if !b.open_ then some (s.setGrp (g.parkThread t (plainFault .queueClosed)))
  else if binRoom ≤ b.records.length then none
  else
    let h := recHeader g.gentag.toNat (s.vdev l.vd).ownIndex s.curCore t v.toNat n false
    let s1 := s.addRecord k v.toNat g.gentag.toNat (leBytes 8 h ++ x.payload a n)
    some (s1.setGrp (s1.grp.mapThreads [t] (fun _ x => { x with pc := x.pc + 4 })))

/-- The threads' records in ascending order, until one has to wait: the state, and those left. -/
def State.spawnAll (s : State) (k a n : Nat) (v : Nat → W32) (ts : List Nat) : State × List Nat :=
  match ts with
  | [] => (s, [])
  | t :: r =>
    match s.spawnOne k t a n (v t) with
    | none => (s, ts)
    | some s1 => s1.spawnAll k a n v r

/-- SPAWN. It waits for the group's earlier remote accesses, which are performed before the spawned group's first word (12_consistency
R222). A thread whose record is appended goes on; while one waits, an entry popped for vb stays at the head of its queue. -/
def execSpawn (f : LaneSpawn) (s : State) : Out :=
  let n := recBytes f.size
  let k := s.curTeam.launch
  let a := regNum f.a
  .next (s.laneWordM (.spawn f)
    { blocks := blockOf f.a ((n - 8) / 4) ++ blockOf f.b 1, guard := laneGuard f.pg f.ng, moves := true,
      srcs := [{ o := f.a, trap := f.ea }, { o := f.b }], also := (List.range ((n - 8) / 4 - 1)).map (fun i => a + 1 + i) }
    (fun s1 ts ks =>
      let r := s1.spawnAll k a n (s1.lv ks 1) ts
      if s1.writesOut then none
      else if r.2.isEmpty then some r.1
      else if r.2.length = ts.length then none
      else some (r.1.setGrp { r.1.grp with queues := s.grp.queues })))

/-! ## SPAWNG (R241) -/

/-- Payload of a group's record, 8 bytes at a time: a plain load of the group. -/
def State.loadPayload (s : State) (a : W64) (n : Nat) : State × Except AccFault (List Byte) :=
  match n with
  | 0 => (s, .ok [])
  | k + 1 =>
    let x := s.performLoad s.curCore s.curVd a 8 false
    match x.2 with
    | .error f => (x.1, .error f)
    | .ok bs =>
      let y := x.1.loadPayload (a + 8) k
      match y.2 with
      | .error f => (y.1, .error f)
      | .ok cs => (y.1, .ok (bs ++ cs))

/-- Some load of the payload waits on a claim. -/
def State.payloadBlocked (s : State) (a : W64) (n : Nat) : Bool :=
  (List.range n).any (fun i => s.blocked s.curCore s.curVd (a + BitVec.ofNat 64 (8 * i)) 8 .load false)

/-- SPAWNG with LOC. -/
def execSpawngLoc (f : GrpSpawnLoc) (s : State) : Out :=
  let n := recBytes f.size
  let w := (n - 8) / 8
  .next (s.groupWord (.spawngLoc f) { srcs := [{ o := f.a }, { o := f.d }] } (fun s1 vs =>
    let k := s1.curTeam.launch
    let l := s1.launch k
    let bin := (gv vs 0).toNat
    let b := l.bin bin
    if 64 ≤ bin ∨ !l.declares bin ∨ b.size ≠ n then .fault (plainFault .reservedField)
    else if !b.open_ then .fault (plainFault .queueClosed)
    else if binRoom ≤ b.records.length || s1.writesOut || s1.payloadBlocked (gv vs 1) w then .wait
    else
      let r := s1.loadPayload (gv vs 1) w
      match r.2 with
      | .error e => .fault e
      | .ok bs =>
        let h := recHeader s1.grp.gentag.toNat (s1.vdev l.vd).ownIndex s1.curCore 0 bin n false
        .done (r.1.addRecord k bin s1.grp.gentag.toNat (leBytes 8 h ++ bs))))

/-- SPAWNG without LOC: the record goes through a BIN window. -/
def execSpawngRemote (f : GrpSpawnRem) (s : State) : Out :=
  let n := recBytes f.size
  let w := (n - 8) / 8
  .next (s.groupWord (.spawngRemote f) { srcs := remoteSrcs f.a f.b f.dp ++ [{ o := f.d }], counts := true } (fun s1 vs =>
    let ga := gv vs 0
    let at_ := gv vs (if f.dp then 1 else 2)
    match s1.grpCheck ga (patOperand f.dp vs) { perm := 58, kinds := [2], size := n, wr := true } with
    | .error e => .fault e
    | .ok t =>
      if s1.payloadBlocked at_ w || s1.writesOut || !s1.canSend s1.curVd 0 [t] then .wait
      else
        let r := s1.loadPayload at_ w
        match r.2 with
        | .error e => .fault e
        | .ok bs =>
          let h := recHeader s1.grp.gentag.toNat (s1.vdev s1.curVd).ownIndex s1.curCore 0 (t.off / 64) n true
          .done ((r.1.keepOf ga).sendPosted
            [{ vd := s1.curVd, group := s1.cur, t := t, vc := 0, kind := 6, size := n, rk := .posted, gentag := s1.grp.gentag,
               data := leBytes 8 h ++ bs }])))

/-! ## BINSET and BINFL (R241) -/

/-- A BINSET: range checks, then the privilege check, then the change. -/
def State.binset (s : State) (i : Instr) (d a : Opnd) (more : List Opnd) (ok : List W64 → Bool) (f : List W64 → Bin → Bin) : Out :=
  .next (s.groupWord i { srcs := { o := a } :: more.map (fun o => { o := o }), dest := destOf d 1 } (fun s1 vs =>
    let bin := (gv vs 0).toNat
    let k := s1.curTeam.launch
    let l := s1.launch k
    if 64 ≤ bin ∨ !ok vs then .fault (plainFault .reservedField)
    else if !l.declares bin then
      (if s1.grp.privileged then .done (s1.writeGroup d 0) else .fault (plainFault .privileged))
    else .done ((s1.setBin k bin (f vs (l.bin bin))).writeGroup d (l.bin bin).status)))

/-- BINSET.flush. -/
def execBinsetFlush (f : GrpThree) (s : State) : Out :=
  s.binset (.binsetFlush f) f.d f.a [f.b] (fun vs => decide (1 ≤ (gv vs 1).toNat) && decide ((gv vs 1).toNat ≤ 1048575))
    (fun vs b => { b with flush := (gv vs 1).toNat })

/-- BINSET.close. -/
def execBinsetClose (f : GrpDA) (s : State) : Out :=
  s.binset (.binsetClose f) f.d f.a [] (fun _ => true) (fun _ b => { b with open_ := false })

/-- BINSET.open. -/
def execBinsetOpen (f : GrpDA) (s : State) : Out :=
  s.binset (.binsetOpen f) f.d f.a [] (fun _ => true) (fun _ b => { b with open_ := true })

/-- BINFL: every record present becomes eligible. -/
def execBinfl (f : GrpBinfl) (s : State) : Out :=
  .next (s.groupWord (.binfl f) { srcs := [{ o := f.a }], dest := destOf f.d 1, counts := f.wt, ok := !f.wt || f.d.isReg }
    (fun s1 vs =>
      let bin := (gv vs 0).toNat
      let k := s1.curTeam.launch
      let l := s1.launch k
      let b := l.bin bin
      if 64 ≤ bin then .fault (plainFault .reservedField)
      else if !l.declares bin then .done (s1.writeGroup f.d 0)
      else if f.wt ∧ maxStatusWaits ≤ s1.grp.waits.length then .wait
      else
        let s2 := s1.setBin k bin { b with eligible := b.records.length, timerAt := if b.records.isEmpty then b.timerAt else none }
        if f.wt && !b.records.isEmpty then .done (s2.statusWait f.d (.binfl bin)) else .done (s2.writeGroup f.d b.status)))

/-! ## STATUS_WAIT_FILL (07_registers R105) -/

/-- What a status wait fills its register with, once its condition holds. -/
def State.waitValue (s : State) (g : Group) (k : StatusKind) : Option W64 :=
  match k with
  | .cpyst cb =>
    if (s.cbCommands g.team cb).isEmpty then some (s.copyStatus g.team cb) else none
  | .mstat sel ids =>
    if (s.teamSeqs g.team).any (fun q => ids.contains q.id) then none else some (s.tableStatus g.team sel)
  | .binfl bin =>
    let b := (s.launch (s.team g.team).launch).bin bin
    if b.records.isEmpty then some b.status else none

/-- STATUS_WAIT_FILL of register `on.b` of group `on.a`. -/
def execStatusWaitFill (s : State) : Out :=
  let g := s.group s.on.a
  match g.waits.find? (fun w => w.1 == s.on.b) with
  | none => .next s
  | some w =>
    match s.waitValue g w.2 with
    | none => .next s
    | some v =>
      if !g.live then .next s
      else .next (s.setGroup s.on.a { g.write w.1 v with waits := g.waits.filter (fun x => x.1 != w.1) }).fire

end Sys2Proof.Machine
end

