-- ==== Sys2Proof/Machine/Retire.lean ====
section
/-! DEFINITION. How packets and launches end: completion signals, COMPLETE records and events, and a launch's last team
(17_command R288, R289, R295). -/

namespace Sys2Proof.Machine

/-! ## Signals as the command processor reaches them (11_fabric R192) -/

/-- The signal at an address: aligned to 16, in a slice or device memory. -/
def State.ioSignal (s : State) (vd : Nat) (a : W64) (k : AccKind) : Except AccFault Nat :=
  match s.ioPlace vd a.toNat 16 k with
  | .error f => .error f
  | .ok key =>
    if isHostKey key then .error { cause := .pageProtection, addr := a, wr := k.writes, host := true } else .ok key

/-- A change of a signal's VALUE. -/
inductive SignalOp where
  | add (n : W64)
  | set (n : W64)

/-- The new VALUE. -/
def SignalOp.apply (o : SignalOp) (old : Nat) : Nat :=
  match o with
  | .add n => (old + n.toNat) % 2 ^ 64
  | .set n => n.toNat

/-- What an attempt to change a signal comes to. -/
inductive SignalEnd where
  | done (s : State)
  | fault (f : AccFault)
  /-- a claim stands in the way (06_copy R89) -/
  | wait

/-- The command processor changes a signal's VALUE: an addition as an atomic, a value as a strong store at device scope. -/
def State.changeSignal (s : State) (vd : Nat) (a : W64) (o : SignalOp) : SignalEnd :=
  let k : AccKind := match o with
    | .add _ => .atomic
    | .set _ => .store
  match s.ioSignal vd a k with
  | .error f => .fault f
  | .ok key =>
    let bad := match o with
      | .add _ => s.poisoned key 8
      | .set _ => s.poisonPartial key 8
    if bad then .fault (uncorrectableAt a true false)
    else if s.claimed key 8 then .wait
    else
      let s1 := match o with
        | .add _ => s.captureInput vd .atomic [a]
        | .set _ => s
      .done ((s1.ioMark vd a.toNat true).writeKey key (leBytes 8 (o.apply (s.loadLe key 8))))

/-! ## Packets (R288) -/

/-- How a packet ends. -/
structure Ending where
  vd : Nat
  queue : Nat
  index : Nat
  cookie : W32
  csig : W64
  status : BitVec 8
  value : W64 := 0
  /-- status of a refused stow -/
  stow : Nat := 0
  launch : Option Nat := none

/-- The journal record and, where one is due, the COMPLETE event. -/
def State.noteEnding (s : State) (e : Ending) : State :=
  let s1 := s.journal e.vd 7 e.queue e.status e.index e.value 0
  if e.status = 0 ∧ e.stow = 0 then s1
  else
    s1.post e.vd { type_ := 1, cause := e.status, queue := e.queue, cookie := e.cookie, index := BitVec.ofNat 64 e.index,
                   a := if e.status = 0 then BitVec.ofNat 64 e.stow else e.value }

/-- EN has been cleared: the queue starts nothing more, and is STOPPED once no packet of it is in progress (R284). -/
def HQueue.stopping (x : HQueue) : Bool := !x.en && x.state != .aborted

/-- A queue that is to stop and has no packet in progress is STOPPED. -/
def HQueue.settle (x : HQueue) : HQueue :=
  if x.stopping && !x.packets.any (·.started) then { x with state := .stopped } else x

/-- The packet leaves its queue's list. -/
def State.dropPacket (s : State) (e : Ending) : State :=
  let x := s.hqueue e.vd e.queue
  s.setHqueue e.vd e.queue
    ({ x with packets := x.packets.filter (fun p => !(p.index == e.index && p.launch == e.launch)) } : HQueue).settle

/-- A packet retires (R288): the journal record precedes the signal; where the signal cannot be written, the fault's cause is the
status. None while a claim stands in the way of the signal. -/
def State.retire (s : State) (e : Ending) : Option State :=
  if e.csig = 0 then some ((s.noteEnding e).dropPacket e)
  else
    let o : SignalOp := if e.status = 0 then .add 1 else .set 0x8000000000000000
    match s.changeSignal e.vd e.csig o with
    | .wait => none
    | .fault f => some ((s.noteEnding { e with status := f.cause.code }).dropPacket e)
    | .done _ =>
      match (s.noteEnding e).changeSignal e.vd e.csig o with
      | .done s2 => some (s2.dropPacket e)
      | .fault f => some ((s.noteEnding { e with status := f.cause.code }).dropPacket e)
      | .wait => none

/-! ## Launches (R289) -/

/-- Extents of the grid's axes: an axis of 0 is absent, as are those above it. -/
def Launch.axes (l : Launch) : List Nat := [l.grid.1, l.grid.2.1, l.grid.2.2].takeWhile (· != 0)
/-- Teams of the grid. -/
def Launch.total (l : Launch) : Nat := l.axes.foldl (· * ·) 1

/-- Some team of the launch is placed or saved. -/
def State.launchBusy (s : State) (k : Nat) : Bool :=
  s.teams.any (fun p => p.2.launch == k) || (s.vdev (s.launch k).vd).saved.any (fun p => p.2.team.launch == k)

/-- Every team of the launch has ended: those of its grid, and those that its records have yet to make; after a failure those
that were placed. -/
def State.launchOver (s : State) (k : Nat) : Bool :=
  let l := s.launch k
  !l.retired && l.started && !s.launchBusy k &&
    (l.failed.isSome ||
      (decide (l.total ≤ l.next) && l.fates.all (fun p => p.2 == .done) && l.bins.all (fun b => b.2.records.isEmpty) &&
        (s.vdev l.vd).heldRecords.all (fun h => h.launch != k)))

/-- The completion value: that of the lowest-indexed team whose value is not 0. -/
def Launch.completion (l : Launch) : W64 :=
  match l.values with
  | [] => 0
  | p :: _ => p.2.zeroExtend 64

/-- The launch retires, if every team has ended; its rings are freed (05_slices R385). None while its signal waits on a claim. -/
def State.endLaunch (s : State) (k : Nat) : Option State :=
  if !s.launchOver k then none
  else
    let l := s.launch k
    let status := match l.failed with
      | none => 0
      | some c => c.code
    match (s.freeRings k).retire
        { vd := l.vd, queue := l.queue, index := l.packet, cookie := l.cookie, csig := l.csig, status := status,
          value := l.completion, launch := some k } with
    | none => none
    | some s1 => some (s1.setLaunch k { s1.launch k with retired := true })

/-- The launch retires if it can. -/
def State.tryEnd (s : State) (k : Nat) : State := (s.endLaunch k).getD s

/-- A launch whose end waited on a claim, or that was over without an event of its own: the first such one retires. -/
def State.launchStep (s : State) : State :=
  match s.launches.findSome? (fun p => s.endLaunch p.1) with
  | none => s
  | some s1 => s1.fire

/-- The launch fails with a cause: the first one is reported (R289). -/
def State.failLaunch (s : State) (k : Nat) (c : Cause) : State :=
  let l := s.launch k
  s.setLaunch k { l with failed := match l.failed with
    | none => some c
    | some x => some x }

end Sys2Proof.Machine
end

