-- ==== Sys2Proof/Machine/Placement.lean ====
section
/-! DEFINITION. Placement: which team goes to which core, attaches, release, spawn groups, restore and the end of a
team (14_scheduling R243 to R249, 05_slices R79, R83, 13_execution R237, R239, 15_faults R270, 12_consistency R223). -/

namespace Sys2Proof.Machine

/-! ## Resources of a core (07_registers R100, R246) -/

/-- What a team needs of a core. -/
structure Need where
  budgets : List Nat
  tiles : Nat := 0
  accs : Nat := 0
  scratch : Nat := 0

/-- Groups that hold a slot of a core. -/
def State.residents (s : State) (core : Nat) : List Nat := s.groups.keysWhere (fun _ g => g.live && (s.team g.team).core == core)
/-- Teams of a core. -/
def State.coreTeams (s : State) (core : Nat) : List Nat := s.teams.keysWhere (fun _ t => t.core == core)

/-- The scratch of a team is freed. -/
def State.freeScratch (s : State) (tk : Nat) : State :=
  let t := s.team tk
  if t.nScratch = 0 then s else s.freeGranules [t.core] t.scratch t.nScratch

/-- The need fits a core once some teams have left it; `room` asks for the scratch granules too. -/
def State.fitsWithout (s : State) (core : Nat) (n : Need) (gone : List Nat) (room : Bool) : Bool :=
  let gs := (s.residents core).filter (fun k => !gone.contains (s.group k).team)
  let ts := (s.coreTeams core).filter (fun t => !gone.contains t)
  let regs := gs.foldl (fun m k => m + 32 * (s.group k).budget) 0 + n.budgets.foldl (fun m b => m + 32 * b) 0
  decide (gs.length + n.budgets.length ≤ 64) && decide (regs ≤ 65536) &&
    decide (ts.foldl (fun m t => m + (s.team t).nTiles) n.tiles ≤ 8) &&
    decide (ts.foldl (fun m t => m + (s.team t).nAccs) n.accs ≤ 16) &&
    (!room || n.scratch == 0 || (((gone.foldl State.freeScratch s)).freeRun [core] n.scratch).isSome)

/-- What a team of a launch needs. -/
def Launch.need (l : Launch) : Need :=
  { budgets := List.replicate l.nP l.budgetP ++ List.replicate l.nC l.budgetC, tiles := l.tiles, accs := l.accs,
    scratch := l.scratch }

/-- What a saved team needs: all that its save area declares. -/
def SavedTeam.need (x : SavedTeam) : Need :=
  { budgets := x.groups.map (fun p => p.2.budget), tiles := x.team.nTiles, accs := x.team.nAccs, scratch := x.team.nScratch }

/-- Cores of a virtual device that are in service, ascending. -/
def State.vdCores (s : State) (vd : Nat) : List Nat :=
  ((s.vdev vd).clusters.flatMap (fun c => (List.range 8).map (fun i => c * 8 + i))).filter (fun c => !(s.core c).out)

/-! ## The core of a team (R246) -/

/-- RESIDENT segments that an attach list names, in order. -/
def State.residentOf (s : State) (vd : Nat) (attach : List (W64 × Bool)) : List Seg :=
  attach.filterMap (fun a => match s.segNamed vd a.1 with
    | none => none
    | some i => if (s.seg vd i).state = .resident then some (s.seg vd i) else none)

/-- The cores that a preference names. -/
def State.prefCores (s : State) (vd : Nat) (attach : List (W64 × Bool)) (p : Nat) : List Nat :=
  let segs := s.residentOf vd attach
  let cores := s.vdCores vd
  if p = 1 then
    (if segs.isEmpty then []
    else cores.filter (fun c => segs.all (fun g => if g.cluster then clusterOf c == clusterOf g.core else c == g.core)))
  else if p = 2 then
    match segs with
    | [] => []
    | g :: _ => cores.filter (fun c => clusterOf c == clusterOf g.core)
  else cores

/-- Of some cores the one with the fewest resident groups, then the lowest number. -/
def State.leastBusy (s : State) (cores : List Nat) : Option Nat :=
  match cores with
  | [] => none
  | c :: r =>
    match s.leastBusy r with
    | none => some c
    | some b => if (s.residents c).length ≤ (s.residents b).length then some c else some b

/-- What the choice of a core comes to. -/
inductive Choice where
  | core (c : Nat)
  /-- held for a preference -/
  | hold (p : Nat)
  | none_
deriving DecidableEq, Repr

/-- The choice over the preferences from one on; `taken` is the highest preference given up. -/
def State.choose (s : State) (vd : Nat) (attach : List (W64 × Bool)) (taken : Nat) (fits : Nat → Bool) (ps : List Nat) : Choice :=
  match ps with
  | [] => .none_
  | p :: r =>
    let cs := s.prefCores vd attach p
    match s.leastBusy (cs.filter fits) with
    | some c => .core c
    | none => if cs.isEmpty || decide (3 ≤ p) || decide (p ≤ taken) then s.choose vd attach taken fits r else .hold p

/-! ## Which team is next (R243 to R245) -/

/-- Effective priority of a launch (R244). -/
def State.effective (s : State) (l : Launch) : Nat :=
  if (s.hqueue l.vd l.queue).age then min 47 (l.prio + (s.cpNow - l.ageFrom) / 2 ^ 20) else l.prio

/-- Resident priority of a team (R244). -/
def State.residentPrio (s : State) (t : Team) : Nat := t.effective - ((s.launch t.launch).prio - t.base)

/-- A team that waits for a core: a saved one under its key, or the next one of a launch. -/
structure Waiting where
  /-- its key at the launch: twice the index of a team to place, or twice the number of a saved team and one -/
  key : Nat
  prio : Nat
  queue : Nat
  saved : Option Nat
  order : Nat
  launch : Nat
  /-- command-processor time since which it has stayed unplaced (R249) -/
  since : Nat
deriving DecidableEq, Repr

/-- Index of the next team to place: a flushed one, lowest first, else the next new one. -/
def Launch.nextTeam (l : Launch) : Option Nat :=
  match (l.fates.keysWhere (fun _ f => f == .unplaced)).head? with
  | some i => some i
  | none => if l.next < l.total then some l.next else none

/-- The attach list meets a conflict now, before any ATTACH_MISS (05_slices R83). -/
def State.listConflict (s : State) (vd : Nat) (noRestore : Bool) (l : List (W64 × Bool)) : Bool :=
  match l with
  | [] => false
  | a :: r =>
    match s.segNamed vd a.1 with
    | none => false
    | some i =>
      let g := s.seg vd i
      if g.state = .stowed ∧ noRestore then false
      else g.writer.isSome || (a.2 && !g.readers.isEmpty) || s.listConflict vd noRestore r

/-- The launch has a team that may be placed. -/
def State.placeable (s : State) (l : Launch) : Bool :=
  l.eligible && l.ringsReady && !l.retired && l.failed.isNone && l.nextTeam.isSome && !s.listConflict l.vd l.noRestore l.attach

/-- The teams of a virtual device that wait, in the order in which the scheduler takes them (R245). -/
def State.waiting (s : State) (vd : Nat) : List Waiting :=
  let v := s.vdev vd
  let saved := (v.saved.filter (fun p => (s.teams.find p.1).isNone)).map (fun p =>
    ({ key := 2 * p.1 + 1, prio := s.residentPrio p.2.team, queue := (s.launch p.2.team.launch).queue, saved := some p.1, order := p.2.savedAt,
       launch := p.2.team.launch, since := p.2.savedAt } : Waiting))
  let fresh := (s.launches.filter (fun p => p.2.vd == vd && s.placeable p.2)).map (fun p =>
    ({ key := 2 * p.2.nextTeam.getD 0, prio := s.effective p.2, queue := p.2.queue, saved := none, order := p.1, launch := p.1,
       since := p.2.flushedAt.get (p.2.nextTeam.getD 0) p.2.waitFrom } : Waiting))
  let turn := fun (w : Waiting) => (w.queue + 127 - v.rotation.get w.prio 63) % 64
  let le := fun (a b : Waiting) =>
    decide (b.prio < a.prio) || (a.prio == b.prio && (decide (turn a < turn b) || (turn a == turn b &&
      (decide (a.saved.isSome && b.saved.isNone) || (a.saved.isSome == b.saved.isSome && decide (a.order ≤ b.order))))))
  sortBy le (saved ++ fresh)

/-! ## Reserving and releasing (R247, R248) -/

/-- Free group slots of a core, ascending. -/
def State.slotsFree (s : State) (core : Nat) : List Nat :=
  let used := (s.residents core).map (fun k => (s.group k).slot)
  (List.range 64).filter (fun i => !used.contains i)

/-- What stands in a group's lane before its release: no lane of the core has this number. -/
def noLane : Nat := 16

/-- The lane of a core that holds the fewest released groups; the lowest of equal ones. -/
def State.freeLane (s : State) (core : Nat) : Nat :=
  let load := fun n => (s.residents core).countP (fun k => (s.group k).lane == n)
  (List.range 16).foldl (fun b n => if load n < load b then n else b) 0

/-- A 64-bit number as a register holds it. -/
def reg64 (n : Nat) : W64 := BitVec.ofNat 64 n

/-- Values of g0 and g1: where the team's scratch lies, and its size (05_slices R73). -/
def Team.scratchRegs (t : Team) : W64 × W64 :=
  if t.nScratch = 0 then (0, 0) else (reg64 (granuleKey t.core t.scratch), reg64 (t.nScratch * granuleBytes))

/-- A group register takes a value that the device gives it; one that is PENDING stays so. -/
def Group.give (g : Group) (r : Nat) (v : W64) : Group :=
  if g.regState r = .pending then { g with g := g.g.set r v } else g.write r v

/-- Roles, indexes in the role, budgets and entries of a launch's groups, in ascending group index. -/
def Launch.specs (l : Launch) : List (Nat × Nat × Nat × VA) :=
  (List.range l.nP).map (fun i => (if l.roles then 1 else 0, i, l.budgetP, l.code + l.entryP)) ++
    (List.range l.nC).map (fun i => (2, i, l.budgetC, l.code + l.entryC))

/-- A group as its registers stand at release (07_registers R99, 15_faults R263). -/
def Launch.newGroup (l : Launch) (team idx slot : Nat) (x : Nat × Nat × Nat × VA) : Group :=
  { team := team, idx := idx, role := x.1, roleIdx := x.2.1, budget := x.2.2.1, slot := slot, live := true, lane := noLane,
    runmask := 0xFFFFFFFF,
    threads := threadIds.map (fun i => (i, { pc := x.2.2.2, entry := x.2.2.2, st := .ready })),
    tvec := l.tvec, tcmask := l.tcmask, fw := l.firmware }

/-- Scratch granules of a team are taken: the first granule, and the state. -/
def State.takeScratch (s : State) (vd core n : Nat) : Nat × State :=
  if n = 0 then (0, s)
  else
    match s.freeRun [core] n with
    | none => (0, s)
    | some g => (g, s.takeGranules vd [core] g n)

/-- A team of the launch has been placed: it ages afresh (R244), and no preference or core is held for that team any more. -/
def Launch.placedOne (l : Launch) (cp key : Nat) : Launch :=
  { l with ageFrom := cp, holdFrom := l.holdFrom.erase key, prefTaken := l.prefTaken.erase key, victimCore := l.victimCore.erase key }

/-- A queue has placed a team at a priority: the rotation goes on from it (R245). -/
def State.rotate (s : State) (vd prio queue : Nat) : State :=
  s.setVdev vd { s.vdev vd with rotation := (s.vdev vd).rotation.set prio queue }

/-- Team `idx` of a launch takes a core: all its resources in one step. Its base priority is the launch's, or the one that PRIO had set when
a flush or a lost core returned it (15_faults R379; DEDUCED for a flush, log entry 96). -/
def State.placeTeam (s : State) (k core idx prio : Nat) : State :=
  let l := s.launch k
  let tk := s.made
  let specs := l.specs
  let sc := s.takeScratch l.vd core l.scratch
  let slots := s.slotsFree core
  let t : Team :=
    { vd := l.vd, launch := k, core := core, index := idx, placedAt := s.now, nTiles := l.tiles, nAccs := l.accs,
      groups := (List.range specs.length).map (fun i => tk + 1 + i), scratch := sc.1, nScratch := l.scratch,
      launched := 32 * specs.length, base := l.bases.get idx l.prio, effective := prio, phase := .placing, budgets := (l.budgetP, l.budgetC) }
  let s1 := { sc.2 with made := tk + 1 + specs.length, teams := sc.2.teams.set tk t }
  let s2 := (List.range specs.length).foldl (fun s i =>
    s.setGroup (tk + 1 + i) (l.newGroup tk i (slots.getD i 0) (specs.getD i (0, 0, 8, 0)))) s1
  let s3 := s2.journal l.vd 2 l.queue 0 l.packet (reg64 k) (reg64 (idx % 2 ^ 48 + core * 2 ^ 48))
  let s4 := s3.setLaunch k
    (Launch.placedOne { s3.launch k with fates := (s3.launch k).fates.set idx .placed, next := max (s3.launch k).next (idx + 1) } s.cpNow (2 * idx))
  s4.rotate l.vd prio l.queue

/-- A group begins to issue: bound to its lane. -/
def State.releaseGroup (s : State) (k : Nat) : State :=
  let g := s.group k
  s.setGroup k { g with lane := s.freeLane (s.team g.team).core, lastIssue := s.now }

/-- The team's groups are released, in ascending group index. -/
def State.releaseTeam (s : State) (tk : Nat) (bases : List Nat) : State :=
  let t := s.team tk
  let r := t.scratchRegs
  let s1 := t.groups.foldl (fun s k =>
    let g := ((s.group k).give 0 r.1).give 1 r.2
    let g1 := (List.range bases.length).foldl (fun g i => Group.give g (2 + i) (reg64 (bases.getD i 0))) g
    (s.setGroup k g1).releaseGroup k) s
  s1.setTeam tk { t with phase := .running }

/-! ## The attaches of a placed team (05_slices R83) -/

/-- What the attach list of a team comes to. -/
inductive Attached where
  | granted (s : State) (bases : List Nat) (changed : Bool)
  | refused (s : State) (c : Cause)
  | wait (s : State) (changed : Bool)

/-- The attaches in list order: one that has been granted is held while a later one waits. -/
def State.attachList (s : State) (vd tk core : Nat) (noRestore : Bool) (l : List (W64 × Bool)) (bases : List Nat) (changed : Bool) :
    Attached :=
  match l with
  | [] => .granted s bases changed
  | a :: r =>
    match s.attach vd tk core a.1 a.2 noRestore (.team tk) with
    | .granted s1 b =>
      s1.attachList vd tk core noRestore r (bases ++ [b]) (changed || (s1.team tk).attaches.length != (s.team tk).attaches.length)
    | .refused c => .refused s c
    | .wait s1 ch => .wait s1 (changed || ch)

/-- A team that was never released gives up what it holds; its attaches end without release. -/
def State.unplace (s : State) (tk : Nat) : State :=
  let t := s.team tk
  let s1 := t.attaches.foldl (fun s a => s.loseAttach t.vd a.1 tk) s
  let s2 := s1.freeScratch tk
  { s2 with teams := s2.teams.erase tk, groups := t.groups.foldl (fun m k => m.erase k) s2.groups }

/-- The fate of a team of a launch. -/
def State.setFate (s : State) (k idx : Nat) (f : TeamFate) : State :=
  s.setLaunch k { s.launch k with fates := (s.launch k).fates.set idx f }

/-- The fate of a team: one that a bin's records made is none of its launch's grid. -/
def State.setFateOf (s : State) (t : Team) (f : TeamFate) : State :=
  match t.spawnBin with
  | some _ => s
  | none => s.setFate t.launch t.index f

/-- The scratch of a saved team that a spare was to take over is freed (18_platform R312). -/
def State.freeKept (s : State) (t : Team) : State :=
  match t.onto with
  | none => s
  | some _ => if t.nScratch = 0 then s else s.freeGranules [t.core] t.scratch t.nScratch

/-- A placed team's attaches go on; where they are all granted it is released, with a full acquire (12_consistency R214). A conflict
releases them and leaves the team unplaced; an ATTACH_MISS fails the launch. None where nothing changes. -/
def State.tryAttach (s : State) (tk : Nat) : Option State :=
  let t := s.team tk
  let l := s.launch t.launch
  match s.attachList t.vd tk t.core l.noRestore l.attach [] false with
  | .granted s1 bases changed =>
    if l.attach.isEmpty then some (s1.releaseTeam tk bases)
    else if s1.dirtyClaimed t.core then (if changed then some s1 else none)
    else some ((s1.flushAll t.core).releaseTeam tk bases)
  | .refused s0 c =>
    let s1 := (s0.unplace tk).setFate t.launch t.index (if c = .segmentConflict then .unplaced else .done)
    some (if c = .segmentConflict then s1 else (s1.failLaunch t.launch c).tryEnd t.launch)
  | .wait s1 changed => if changed then some s1 else none

/-! ## Restore (15_faults R270) -/

/-- A recorded command as it is issued again by its group. -/
def State.reissued (s : State) (c : CopyCmd) : CopyCmd :=
  { ({ s with cur := c.group } : State).newCopy c.kind c.desc c.descAt c.count c.cb c.gd c.np with gentag := c.gentag }

/-- A recorded command is issued again, on the engine of its team's core now (06_copy R92): it claims, waits for its claim, or completes at
once in error. -/
def State.reissue (s : State) (c : CopyCmd) : State :=
  let d := s.reissued c
  let k := s.copyKey
  let s1 := ({ s with cur := c.group } : State).touchDest d
  let s2 := if d.err.isSome then s1.endInError d else if !d.kind.claims || s1.canGrant k d then s1.grant k d else s1.putCopy k d
  { s2 with cur := s.cur }

/-- A recorded sequencer word is enqueued again, and takes its hold again (10_table R182). -/
def State.requeue (s : State) (core tk : Nat) (q : SeqCmd) : State :=
  let c := s.core core
  let s1 := s.setCore core { c with seqs := c.seqs ++ [q] }
  let t := s1.team tk
  if q.kind.arrives && !q.pm then s1.setTeam tk { t with accs := t.accs.set q.acc ((t.accs.get q.acc {}).take q.id) } else s1

/-- A saved tile at restore: one whose table came from scratch that has moved is STALE (10_table R174). -/
def Tile.restored (x : Tile) (core first n : Nat) (moved : Bool) : Tile :=
  let a := ownSlice core x.src.toNat
  if x.state = .rebuild ∧ moved ∧ granuleKey core first ≤ a ∧ a < granuleKey core first + n * granuleBytes then
    { x with state := .stale }
  else x

/-- The scratch of a restored team: taken afresh, or for a team that a spare takes over where it was (18_platform R312). -/
def State.restoredScratch (s : State) (vd core : Nat) (t : Team) : Nat × State :=
  match t.onto with
  | some _ => (t.scratch, s)
  | none => s.takeScratch vd core t.nScratch

/-- The engine of the core has no room for the commands that a restore issues again (06_copy R85), or a command that will complete at once
has rows that a claim holds up. -/
def State.reissueWaits (s : State) (core : Nat) (cs : List CopyCmd) : Bool :=
  decide (64 < s.engineLoad (clusterOf core) + cs.length) && !cs.isEmpty

/-- Restore of a saved team onto a core: L1 contents (12_consistency R223), scratch, g0 and g1, commands and sequences in saved
order, then the groups. None while a claim holds up a write-back, or the copy engine has no room. -/
def State.restoreTeam (s : State) (vd tk core : Nat) : Option State :=
  match (s.vdev vd).saved.find tk with
  | none => none
  | some x =>
    let old := x.team.core
    let spare := x.team.onto.isSome
    if ((core ≠ old || spare) && (s.dirtyClaimed old || s.dirtyClaimed core)) || s.reissueWaits core x.copies then none
    else
      let s1 := if core = old && !spare then s else (s.cleanAll old).flushAll core
      let sc := s1.restoredScratch vd core x.team
      let base := granuleKey core sc.1
      let s2 := if x.team.nScratch = 0 then sc.2
        else ({ sc.2 with mem := Memory.setCells sc.2.mem (x.scratchBytes.map (fun (c : Host.Cell) => (base + c.1, c.2))) }).noteSlice base
          (x.team.nScratch * granuleBytes)
      let moved := core != old || sc.1 != x.team.scratch
      let t := { x.team with
        core := core, scratch := sc.1, placedAt := s2.now, phase := .running, settle := [], onto := none,
        tiles := x.team.tiles.mapKV (fun _ y => y.restored old x.team.scratch x.team.nScratch moved) }
      let s3 := { s2 with teams := s2.teams.set tk { t with phase := .placing } }
      let r := t.scratchRegs
      let s4 := x.groups.foldl (fun s p =>
        if !p.2.live then s.setGroup p.1 p.2
        else
          let g := { p.2 with slot := (s.slotsFree core).headD 0, lane := noLane, sleepLeft := p.2.sleepLeft.map (fun n => s.now + n) }
          s.setGroup p.1 ((g.give 0 r.1).give 1 r.2)) s3
      let s5 := s4.setTeam tk t
      let s6 := (x.groups.filter (fun p => p.2.live)).foldl (fun s p => s.releaseGroup p.1) s5
      let s7 := x.copies.foldl State.reissue s6
      let s8 := x.seqs.foldl (fun s q => s.requeue core tk q) s7
      let s9 := s8.setVdev vd { s8.vdev vd with saved := (s8.vdev vd).saved.erase tk }
      let l := s9.launch t.launch
      let s10 := s9.setLaunch t.launch
        ((if t.spawnBin.isSome then l else { l with fates := l.fates.set t.index .placed }).placedOne s9.cpNow (2 * tk + 1))
      some ((s10.rotate vd (s.residentPrio x.team) l.queue).journal vd 5 l.queue 0 l.packet (reg64 x.area) (reg64 t.index))

/-! ## TEAM_PLACEMENT -/

/-- The team of a launch that has a key still waits for a core. -/
def State.stillWaits (s : State) (l : Launch) (key : Nat) : Bool :=
  if key % 2 = 1 then ((s.vdev l.vd).saved.find (key / 2)).isSome
  else l.failed.isNone && (decide (l.next ≤ key / 2) || l.fates.get (key / 2) .done == .unplaced)

/-- The cores on which victims make room, with the launch and the key of the team that they make it for (R249). -/
def State.reservations (s : State) : List (Nat × Nat × Nat) :=
  s.launches.flatMap (fun p =>
    if p.2.retired then [] else (p.2.victimCore.filter (fun v => s.stillWaits p.2 v.1)).map (fun v => (p.1, v.1, v.2)))

/-- Cores on which victims make room for another team than one of a launch that has a key: none for it, or for any team, where `key` is
none. -/
def State.reservedCores (s : State) (k : Nat) (key : Option Nat) : List Nat :=
  (s.reservations.filter (fun r => !(r.1 == k && key == some r.2.1))).map (fun r => r.2.2)

/-- What a waiting team needs; one that a spare takes over keeps the scratch that it has. -/
def State.needOf (s : State) (vd : Nat) (w : Waiting) : Need :=
  match w.saved with
  | none => (s.launch w.launch).need
  | some tk =>
    let x := (s.vdev vd).saved.get tk {}
    if x.team.onto.isSome then { x.need with scratch := 0 } else x.need

/-- The one core that a waiting team may take: that of the spare which takes its core's number (18_platform R311, R312). -/
def State.spareFor (s : State) (vd : Nat) (w : Waiting) : Option Nat :=
  match w.saved with
  | none => none
  | some tk => ((s.vdev vd).saved.get tk {}).team.onto

/-- The choice of a core for a waiting team. -/
def State.choiceFor (s : State) (vd : Nat) (w : Waiting) : Choice :=
  let l := s.launch w.launch
  let barred := s.reservedCores w.launch (some w.key)
  let fits := fun c => !barred.contains c && s.fitsWithout c (s.needOf vd w) [] true
  match s.spareFor vd w with
  | some c => if (s.vdCores vd).contains c && s.fitsWithout c (s.needOf vd w) [] true then .core c else .none_
  | none => s.choose vd l.attach (l.prefTaken.get w.key 0) fits [1, 2, 3]

/-- Stows for the scratch of a team that fits some core but for its granules (05_slices R80). The spec does not say whose slice gives way:
the model takes, of the cores that have a segment to stow, the one with the fewest resident groups (DESIGN CHOICE, log entry 89). -/
def State.roomFor (s : State) (vd : Nat) (w : Waiting) : Option State :=
  let n := s.needOf vd w
  let key : RoomFor := .scratch w.launch w.key
  let barred := s.reservedCores w.launch (some w.key)
  if n.scratch = 0 then none
  else
    match s.leastBusy ((s.vdCores vd).filter (fun c =>
      !barred.contains c && s.fitsWithout c n [] false && !(s.candidatesFor vd [c]).isEmpty)) with
    | none => none
    | some c =>
      let s1 := s.beginStows vd key (runFits [c] n.scratch) (s.candidatesFor vd [c])
      if s1.stowsFor key then some s1 else none

/-- A waiting team is placed or restored, or begins to be held for a preference, or stows begin for its scratch; while those are under way
it waits. -/
def State.tryPlace (s : State) (vd : Nat) (w : Waiting) : Option State :=
  let l := s.launch w.launch
  if s.stowsFor (.scratch w.launch w.key) then none
  else
    match s.choiceFor vd w with
    | .core c =>
      (match w.saved with
      | some tk => s.restoreTeam vd tk c
      | none =>
        match l.nextTeam with
        | none => none
        | some i => some (s.placeTeam w.launch c i w.prio))
    | .hold _ =>
      if (l.holdFrom.find w.key).isSome then none
      else some (s.setLaunch w.launch { l with holdFrom := l.holdFrom.set w.key s.cpNow })
    | .none_ => s.roomFor vd w

/-- TEAM_PLACEMENT of virtual device `on.a` (R245 to R247): a placed team's attaches go on, or the next team that fits is placed
or restored. -/
def execTeamPlacement (s : State) : Out :=
  let vd := s.on.a
  let v := s.vdev vd
  if !v.live || !v.run then .next s
  else
    let placing := s.teams.keysWhere (fun _ t => t.vd == vd && t.phase == .placing)
    match placing.findSome? s.tryAttach with
    | some s1 => .next s1.fire
    | none =>
      match (s.waiting vd).findSome? (s.tryPlace vd) with
      | some s1 => .next s1.fire
      | none => .next s

/-- The waiting teams of a launch, in the scheduler's order. -/
def State.waitingOf (s : State) (k : Nat) : List Waiting := (s.waiting (s.launch k).vd).filter (fun w => w.launch == k)

/-- The preference for which a team has been held for 8,192 cycles. -/
def State.heldLong (s : State) (w : Waiting) : Option Nat :=
  let l := s.launch w.launch
  match l.holdFrom.find w.key, s.choiceFor l.vd w with
  | some t, .hold p => if t + 8192 ≤ s.cpNow then some p else none
  | _, _ => none

/-- RESIDENCY_HOLD_EXPIRY of launch `on.a` (R246): for a team held for 8,192 cycles the next preference counts. -/
def execResidencyHoldExpiry (s : State) : Out :=
  let k := s.on.a
  let l := s.launch k
  match (s.waitingOf k).find? (fun w => (s.heldLong w).isSome) with
  | none => .next s
  | some w =>
    .next (s.setLaunch k { l with holdFrom := l.holdFrom.erase w.key, prefTaken := l.prefTaken.set w.key ((s.heldLong w).getD 0) }).fire

/-! ## Spawn groups (13_execution R239) -/

/-- Budget of a spawn group. -/
def Launch.spawnBudget (l : Launch) (size : Nat) : Nat := max (max l.budgetP l.budgetC) (if size = 64 then 16 else 0)

/-- Registers v0 to v15 that a record gives. -/
def recordRegs (bs : List Byte) : FMap W32 :=
  ((List.range 16).map (fun i => (i, (BitVec.ofNat 32 (leValue ((bs.drop (4 * i)).take 4)) : W32)))).filter (fun p => p.2 != 0)

/-- A bin has become empty: every BINFL that waits on it is filled (R241). -/
def State.fillEmpty (s : State) (k n : Nat) : State :=
  let b := (s.launch k).bin n
  if !b.records.isEmpty then s
  else
    { s with groups := s.groups.mapKV (fun _ g =>
      if g.live && (s.team g.team).launch == k then
        (let ws := g.waits.filter (fun w => w.2 == .binfl n)
         ws.foldl (fun g w => { g.write w.1 b.status with waits := g.waits.filter (fun x => x.1 != w.1) }) g)
      else g) }

/-- SPAWN_GROUP_LAUNCH of bin `on.b` of launch `on.a`: the oldest records, up to 32, become a team of one group. None is placed once the
launch has failed (17_command R289), or while the core's resources are kept for a team that victims make room for (14_scheduling R249). -/
def execSpawnGroupLaunch (s : State) : Out :=
  let k := s.on.a
  let l := s.launch k
  let b := l.bin s.on.b
  let budget := l.spawnBudget b.size
  if l.retired || !l.declares s.on.b || b.records.isEmpty || !b.due || !(s.vdev l.vd).run || (s.core b.core).out ||
      l.failed.isSome || (s.reservedCores k none).contains b.core || !s.fitsWithout b.core { budgets := [budget] } [] false then .next s
  else
    let n := min spawnMax b.records.length
    let rs := b.records.take n
    let tk := s.made
    let entry := l.code + b.entry
    let x := l.newGroup tk 0 ((s.slotsFree b.core).headD 0) (0, 0, budget, entry)
    let threads := threadIds.map (fun i =>
      if i < n then (i, ({ pc := entry, entry := entry, st := .ready, v := recordRegs (rs.getD i []) } : Thread))
      else (i, ({ pc := entry, entry := entry } : Thread)))
    let t : Team :=
      { vd := l.vd, launch := k, core := b.core, index := (Config.freeWord s.free).toNat % 2 ^ 48, placedAt := s.now,
        groups := [tk + 1], launched := n, base := l.prio, effective := s.effective l, spawnBin := some s.on.b, records := rs,
        budgets := (budget, 0) }
    let b1 := { b with records := b.records.drop n, eligible := b.eligible - n,
                       timerAt := if b.records.length = n then none else some s.now }
    let s1 := { s with made := tk + 2, teams := s.teams.set tk { t with phase := .placing } }
    let s2 := (s1.setGroup (tk + 1) { x with threads := threads, runmask := maskOf (List.range n) }).setTeam tk t
    let s3 := (s2.releaseGroup (tk + 1)).setBin k s.on.b b1
    .next ((s3.setLaunch k { s3.launch k with ageFrom := s.cpNow }).fillEmpty k s.on.b).draw.fire

/-! ## The end of a team (13_execution R237, R377) -/

/-- A remote request of the team that writes at this device when it is answered (RGET) is outstanding. -/
def State.getsOut (s : State) (tk : Nat) : Bool :=
  s.slots.any (fun p => p.2.busy && (match p.2.kind with
    | .rget _ t _ _ => t == tk
    | .load _ _ _ => false
    | .posted => false
    | .copy _ _ _ _ => false
    | .tag => false))

/-- Waiting copy words of a team have not been performed: their commands are withdrawn (06_copy R92). -/
def State.withdrawAll (s : State) (tk : Nat) : State := (s.team tk).groups.foldl State.withdrawCopy s

/-- The team and its groups are gone, and what a save under way had noted of it. -/
def State.removeTeam (s : State) (tk : Nat) : State :=
  let t := s.team tk
  let v := s.vdev t.vd
  { s.setVdev t.vd { v with saved := v.saved.erase tk } with
    teams := s.teams.erase tk, groups := t.groups.foldl (fun m k => m.erase k) s.groups }

/-- Copy commands of a team, images of segments apart. -/
def State.teamCopies (s : State) (tk : Nat) : List Nat := s.copies.keysWhere (fun _ c => c.team == tk && !c.kind.isImage)

/-- The drains at a team's end: its copy commands, its sequences, its accumulator-pipe words, and what it fetches with RGET (R237). -/
def State.drainsLeft (s : State) (tk : Nat) : Bool :=
  let t := s.team tk
  !(s.teamCopies tk).isEmpty || !(s.teamSeqs tk).isEmpty || s.getsOut tk || t.groups.any (fun k => (s.group k).live && (s.group k).inPipe)

/-- Remote writes that an EXIT.dom has the team's end await. -/
def State.acksLeft (s : State) (t : Team) : Bool := t.domExit && t.groups.any (fun k => !(s.group k).posted.isEmpty)

/-- A core's L1 holds a dirty byte. -/
def State.anyDirty (s : State) (core : Nat) : Bool := (s.core core).l1.any (fun l => l.dirty != 0)

/-- TEAM_END of team `on.a` (R237): the drains, then the detaches, then the write-back, then the acknowledgements that an EXIT.dom asks
for, then the completion. -/
def execTeamEnd (s0 : State) : Out :=
  let tk := s0.on.a
  if (s0.teams.find tk).isNone || (s0.team tk).phase != .ending then .next s0
  else
    let s := s0.withdrawAll tk
    let t := s.team tk
    if s.drainsLeft tk then .next s0
    else
      let s1 := t.attaches.foldl (fun s a => s.detach t.vd a.1 tk) s
      let late := s1.dirtyClaimed t.core
      let s2 := if late then s1 else s1.cleanAll t.core
      if late || s1.acksLeft t then
        (if t.attaches.isEmpty && (late || !s1.anyDirty t.core) then .next s0 else .next s2.fire)
      else
        let s3 := (s2.freeScratch tk).removeTeam tk
        let l := s3.launch t.launch
        let l1 := match t.spawnBin with
          | some _ => l
          | none => { l with fates := l.fates.set t.index .done,
                             values := if t.completion = 0 then l.values else l.values.set t.index t.completion }
        .next ((s3.setLaunch t.launch l1).tryEnd t.launch).fire

end Sys2Proof.Machine
end

