-- ==== Sys2Proof/Machine/Preempt.lean ====
section
/-! DEFINITION. Pre-emption: the decision, drains, flushes and saves, and the choice of victims (15_faults R265 to R267,
14_scheduling R249, R255, 06_copy R92, 10_table R174, R182, 07_registers R105). -/

namespace Sys2Proof.Machine

/-! ## The decision (R265) -/

/-- The outcomes of a decision. -/
inductive Decision where
  | drain | flush | save
deriving DecidableEq, Repr

/-- Code of a decision in the journal (17_command R295). -/
def Decision.code : Decision → Nat
  | .drain => 0
  | .flush => 1
  | .save => 2

/-- The progress counter of a team. -/
def State.progressOf (s : State) (t : Team) : Nat := min (2 ^ 48 - 1) (t.progress + (s.now - t.placedAt))

/-- The drain budget of a team's resident priority. -/
def State.drainBudget (s : State) (t : Team) : Nat := (s.vdev t.vd).drain.get (s.residentPrio t) 65536

/-- Some group of the team is held. -/
def State.someHeld (s : State) (t : Team) : Bool := t.groups.any (fun k => (s.group k).live && (s.group k).held)

/-- The decision for a team. -/
def State.decision (s : State) (tk : Nat) : Decision :=
  let t := s.team tk
  let l := s.launch t.launch
  let g := s.progressOf t
  let short := l.hint != 0 && decide (l.hint - g ≤ s.drainBudget t)
  if short && !s.someHeld t then .drain
  else if l.idem && l.hint != 0 && decide (8 * g ≤ l.hint) then .flush
  else .save

/-! ## Flush (R266) -/

/-- The team's engine work stops with no arrival. -/
def State.dropWorkOf (s : State) (tk : Nat) : State :=
  let t := s.team tk
  let cs := s.teamCopies tk
  let c := s.core t.core
  { s with copies := cs.foldl (fun m k => m.erase k) s.copies, claims := s.claims.filter (fun k => !cs.contains k) }.setCore t.core
    { c with seqs := c.seqs.filter (fun q => q.team != tk), accPipe := c.accPipe.filter (fun k => !t.groups.contains k) }

/-- The records that a spawn team took go back to the head of its bin, to be launched again. -/
def State.returnRecords (s : State) (k n : Nat) (rs : List (List Byte)) : State :=
  let b := (s.launch k).bin n
  s.setBin k n { b with records := rs ++ b.records, eligible := b.eligible + rs.length }

/-- A team leaves its core with nothing kept: segments are detached with release, scratch and registers are discarded. -/
def State.leaveCore (s : State) (tk : Nat) : State :=
  let t := s.team tk
  let s1 := ((t.groups.foldl State.unhint s).dropWorkOf tk).cleanAll t.core
  let s2 := t.attaches.foldl (fun s a => s.detach t.vd a.1 tk) s1
  (s2.freeScratch tk).removeTeam tk

/-- A flush: the team returns to its launch as an unplaced one. -/
def State.flushTeam (s : State) (tk : Nat) : State :=
  let t := s.team tk
  let s1 := s.leaveCore tk
  match t.spawnBin with
  | some n => s1.returnRecords t.launch n t.records
  | none =>
    let l := s1.launch t.launch
    s1.setLaunch t.launch { l with fates := l.fates.set t.index .unplaced, flushedAt := l.flushedAt.set t.index s1.cpNow,
                                   bases := if t.base = l.prio then l.bases.erase t.index else l.bases.set t.index t.base }

/-! ## Save (R266, R268) -/

/-- The group waits at a word or a collective, and the decision settles its wait (R255). -/
def Group.settles (g : Group) : Bool :=
  g.live && !g.held && (g.waitWord.isSome || g.threads.any (fun p => p.2.coll.isSome))

/-- Work that has not begun is recorded: the claims of commands not yet started are released (06_copy R92). -/
def State.recordWork (s : State) (tk : Nat) : State :=
  let s0 := s.withdrawAll tk
  let t := s0.team tk
  let cs := (s0.teamCopies tk).filter (fun k => (s0.copies.get k {}).phase != .running)
  let v := s0.vdev t.vd
  let kept := s0.claims.filter (fun k => cs.contains k)
  let order := kept ++ cs.filter (fun k => !kept.contains k)
  let x : SavedTeam := { copies := order.map (fun k => s0.copies.get k {}) }
  let c := s0.core t.core
  let s1 := { s0 with copies := cs.foldl (fun m k => m.erase k) s0.copies, claims := s0.claims.filter (fun k => !cs.contains k) }
  let s2 := s1.setCore t.core { c with accPipe := c.accPipe.filter (fun k => !t.groups.contains k) }
  s2.setVdev t.vd { v with saved := v.saved.set tk x }

/-- A save begins: groups stop at an instruction boundary, once the waits that the decision meets are settled. -/
def State.beginSave (s : State) (tk : Nat) : State :=
  let t := s.team tk
  let ks := t.groups.filter (fun k => (s.group k).settles)
  let s1 := s.setTeam tk { t with phase := .saving, settle := ks }
  if ks.isEmpty then s1.recordWork tk else s1

/-- One wait has been settled: `a` is the outcome of another attempt of the group's word or collective, made as if its team ran.
Where the word was performed the threads of the run carry WSAT (R255). -/
def State.settled (s a : State) (tk k : Nat) : State :=
  let before := s.group k
  let ts := if before.waitWord.isSome then before.run else before.threads.keysWhere (fun _ x => x.coll.isSome)
  let g := a.group k
  let over_ := if before.waitWord.isSome then g.waitWord.isNone && !g.trap else g.threads.all (fun p => p.2.coll.isNone)
  let g1 := if over_ then g.mapThreads (ts.filter (fun t => (g.thread t).st == .ready)) (fun _ x => { x with wsat := true }) else g
  let a1 := a.setGroup k g1
  let t := a1.team tk
  let rest := (s.team tk).settle.filter (· != k)
  if t.phase = .ending then a1
  else
    let a2 := a1.setTeam tk { t with phase := .saving, settle := rest }
    if rest.isEmpty then a2.recordWork tk else a2

/-- The state in which the attempt is made: the team runs. -/
def State.forSettling (s : State) (tk : Nat) : State := s.setTeam tk { s.team tk with phase := .running }

/-- The team and group whose wait is to be settled next. -/
def State.settling (s : State) : Option (Nat × Nat) :=
  s.teams.findSome? (fun p =>
    if p.2.phase = .saving then
      match p.2.settle with
      | [] => none
      | k :: _ => some (p.1, k)
    else none)

/-- Nothing of the team's work is left that a save has to await (07_registers R105, 06_copy R92, 10_table R182, 11_fabric R203). -/
def State.saveReady (s : State) (tk : Nat) : Bool :=
  let t := s.team tk
  t.phase == .saving && t.settle.isEmpty && t.groups.all (fun k => (s.group k).ops.isEmpty) && (s.teamCopies tk).isEmpty &&
    !s.getsOut tk && !(s.teamSeqs tk).any s.inStep

/-- Cycles that a sleeping group has left (R374). -/
def State.sleepRest (s : State) (k : Nat) : Option Nat :=
  let g := s.group k
  match g.waitWord with
  | some (.unlisted (.sleep a)) =>
    (match g.sleepLeft with
    | some e => some (e - s.now)
    | none =>
      let v := match a with
        | .reg n => g.reg n.val
        | .port q => match (g.queue q.val).front with
          | .ready e => e.group true
          | .empty => 0
          | .behind => 0
          | .closed => 0
      some (v.toNat - (s.cyc (s.team g.team).core).toNat))
  | _ => none

/-- The base of the buffer on which a CMBOPEN of the group waits (16_experts R382). -/
def State.openBase (s : State) (k : Nat) : Option W64 :=
  let g := s.group k
  match g.waitWord with
  | some (.unlisted (.cmbopen f _)) =>
    (match f.b with
    | .reg n => some (g.reg n.val)
    | .port q => match (g.queue q.val).front with
      | .ready e => some (e.group true)
      | .empty => none
      | .behind => none
      | .closed => none)
  | _ => none

/-- A group as its save area keeps it: its waits are tested afresh after restore. -/
def State.savedGroup (s : State) (k : Nat) : Group :=
  { s.group k with sleepLeft := s.sleepRest k, waitWord := none, hint := none, yielded := none, inPipe := false,
                     cbWait := none }

/-- A tile's descriptor as captured: a VALID one with the generations of the capture (10_table R174). -/
def State.savedTile (s : State) (core : Nat) (x : Tile) : Tile :=
  let y := { x with entries := [], hit := false }
  if x.state = .valid then { y with state := .rebuild, gens := (x.granules core).map s.genOf } else y

/-- SAVE_END of team `on.a`: the save area is written and the resources are freed; scratch that a spare takes over stays (18_platform
R312). -/
def execSaveEnd (s0 : State) : Out :=
  let tk := s0.on.a
  if (s0.teams.find tk).isNone || !s0.saveReady tk then .next s0
  else
    let s := (s0.team tk).groups.foldl State.unhint s0
    let t := s.team tk
    let l := s.launch t.launch
    let seqs := (s.teamSeqs tk).map (fun q => { q with built := false, started := false, sums := none })
    let valid := (t.tiles.filter (fun p => p.2.state == .valid)).flatMap (fun p => p.2.granules t.core)
    let base := granuleKey t.core t.scratch
    let area := (Config.freeWord s.free).toNat % 2 ^ 56
    let t1 := { t with
      tiles := t.tiles.mapKV (fun _ x => s.savedTile t.core x)
      accs := t.accs.mapKV (fun _ a => { a with hold := none })
      progress := s.progressOf t }
    let x : SavedTeam :=
      { (s.vdev t.vd).saved.get tk {} with
        team := t1, groups := t.groups.map (fun k => (k, s.savedGroup k)), seqs := seqs
        scratchBytes := if t.nScratch = 0 then [] else cellsMoved s.mem base (t.nScratch * granuleBytes) 0
        savedAt := s.cpNow, area := area
        opens := t.groups.filterMap (fun k => (s.openBase k).map (fun b => (k, b))) }
    let c := s.core t.core
    let s1 := (s.sampleGens valid).setCore t.core { c with seqs := c.seqs.filter (fun q => q.team != tk) }
    let s2 := ((if t.onto.isSome then s1 else s1.freeScratch tk).removeTeam tk).draw
    let s3 := s2.setVdev t.vd { s2.vdev t.vd with saved := (s2.vdev t.vd).saved.set tk x }
    let s4 := match t.spawnBin with
      | some _ => s3
      | none => s3.setLaunch t.launch { s3.launch t.launch with fates := (s3.launch t.launch).fates.set t.index .saved }
    .next (s4.journal t.vd 4 l.queue 0 l.packet (reg64 area) (reg64 t.index)).fire

/-! ## Pre-empting a team (R265, R267) -/

/-- The team may be pre-empted: it runs, and no save, drain or end has begun. -/
def Team.pending (t : Team) : Bool := t.phase == .running

/-- A team is pre-empted under a decision, which the journal notes. -/
def State.preemptAs (s : State) (tk : Nat) (d : Decision) : State :=
  let t := s.team tk
  let l := s.launch t.launch
  let s1 := s.journal t.vd 3 l.queue 0 l.packet (reg64 t.launch) (reg64 (t.index % 2 ^ 48 + t.core * 2 ^ 48 + d.code * 2 ^ 62))
  match d with
  | .drain => s1.setTeam tk { t with phase := .draining (s.now + s.drainBudget t) }
  | .flush => s1.flushTeam tk
  | .save => s1.beginSave tk

/-- A team must leave its core for substitution, migration or a stop: it is always saved (R265); one that was placed and not yet
released goes back to its launch. -/
def State.forceSave (s : State) (tk : Nat) : State :=
  let t := s.team tk
  match t.phase with
  | .running => s.preemptAs tk .save
  | .draining _ => s.preemptAs tk .save
  | .placing => (s.unplace tk).setFate t.launch t.index .unplaced
  | .saving => s
  | .ending => s
  | .ended => s

/-- DRAIN_BUDGET_EXPIRY of team `on.a` (R266). -/
def execDrainBudgetExpiry (s : State) : Out :=
  let t := s.team s.on.a
  match t.phase with
  | .draining e => if e ≤ s.now then .next (s.beginSave s.on.a).fire else .next s
  | _ => .next s

/-! ## Victims (14_scheduling R249) -/

/-- Teams of a core that a priority may pre-empt: lowest resident priority first, among equals the most recently placed. -/
def State.victimsOn (s : State) (core prio : Nat) : List Nat :=
  let ts := (s.coreTeams core).filter (fun t => (s.team t).pending && decide (s.residentPrio (s.team t) < prio))
  let le := fun (a b : Nat) =>
    let x := s.residentPrio (s.team a)
    let y := s.residentPrio (s.team b)
    decide (x < y) || (x == y && decide ((s.team b).placedAt ≤ (s.team a).placedAt))
  sortBy le ts

/-- The shortest leading part of a list of teams whose removal makes the need fit. -/
def State.victimSet (s : State) (core : Nat) (n : Need) (ts taken : List Nat) : Option (List Nat) :=
  match ts with
  | [] => none
  | t :: r =>
    if s.fitsWithout core n (taken ++ [t]) true then some (taken ++ [t]) else s.victimSet core n r (taken ++ [t])

/-- Highest resident priority in a set of teams. -/
def State.highest (s : State) (ts : List Nat) : Nat := ts.foldl (fun m t => max m (s.residentPrio (s.team t))) 0

/-- Of the cores that can be made to fit, the one whose set has the lowest highest resident priority, then the fewest teams, then
the lowest number. -/
def State.victimChoice (s : State) (n : Need) (prio : Nat) (cores : List Nat) : Option (Nat × List Nat) :=
  match cores with
  | [] => none
  | c :: r =>
    match s.victimSet c n (s.victimsOn c prio) [], s.victimChoice n prio r with
    | none, b => b
    | some ts, none => some (c, ts)
    | some ts, some b =>
      let x := s.highest ts
      let y := s.highest b.2
      if x < y ∨ (x = y ∧ ts.length ≤ b.2.length) then some (c, ts) else some b

/-- A waiting team has stayed unplaced for 65,536 cycles, fits no core, and no core has been chosen for it. -/
def State.needsVictims (s : State) (w : Waiting) : Bool :=
  let l := s.launch w.launch
  (l.victimCore.find w.key).isNone && (s.spareFor l.vd w).isNone && decide (w.since + 65536 ≤ s.cpNow) &&
    !(s.vdCores l.vd).any (fun c => s.fitsWithout c (s.needOf l.vd w) [] true)

/-- The victims that make room for a waiting team: on a core that is not kept for another. -/
def State.victimsFor (s : State) (w : Waiting) : Option (Nat × List Nat) :=
  let l := s.launch w.launch
  let barred := s.reservedCores w.launch (some w.key)
  s.victimChoice (s.needOf l.vd w) w.prio ((s.vdCores l.vd).filter (fun c => !barred.contains c))

/-- VICTIM_WAIT_EXPIRY of launch `on.a`: a team of it has stayed unplaced for 65,536 cycles and fits no core. -/
def execVictimWaitExpiry (s : State) : Out :=
  let k := s.on.a
  let l := s.launch k
  match (s.waitingOf k).find? (fun w => s.needsVictims w && (s.victimsFor w).isSome) with
  | none => .next s
  | some w =>
    match s.victimsFor w with
    | none => .next s
    | some (c, ts) =>
      if !(s.vdev l.vd).run || (s.dirtyClaimed c && ts.any (fun t => s.decision t == .flush)) then .next s
      else
        let s1 := ts.foldl (fun s t => s.preemptAs t (s.decision t)) s
        .next (s1.setLaunch k { s1.launch k with victimCore := (s1.launch k).victimCore.set w.key c }).fire

end Sys2Proof.Machine
end

