-- ==== Sys2Proof/Machine/Packets.lean ====
section
/-! DEFINITION. Command queues: accepting packets, starting them in order, and what each kind of packet does
(17_command R284 to R292, R303, R304). -/

namespace Sys2Proof.Machine

/-! ## Packets as words (R287) -/

/-- Word `n` of a packet. -/
def Packet.word (p : Packet) (n : Nat) : W64 := p.words.getD n 0
/-- KIND. -/
def Packet.kind (p : Packet) : Nat := (p.word 0).field 0 8
/-- COOKIE. -/
def Packet.cookie (p : Packet) : W32 := BitVec.ofNat 32 ((p.word 0).field 32 32)
/-- CSIG. -/
def Packet.csig (p : Packet) : W64 := p.word 1
/-- EXT of a LAUNCH. -/
def hasExt (w : W64) : Bool := w.bit 9 && w.field 0 8 == 1
/-- Later packets wait for its completion (R286). -/
def Packet.bars (p : Packet) : Bool := (p.word 0).bit 8 || p.kind == 2

/-- How packet `p` of a queue ends. -/
def Packet.ending (p : Packet) (vd q : Nat) (status : BitVec 8) : Ending :=
  { vd := vd, queue := q, index := p.index, cookie := p.cookie, csig := p.csig, status := status, stow := p.stow,
    launch := p.launch }

/-! ## Queue errors (R286) -/

/-- The queue halts at a packet, which does nothing. -/
def State.haltQueue (s : State) (vd q idx : Nat) (cookie : W32) (c : Cause) : State :=
  let x := s.hqueue vd q
  let s1 := s.setHqueue vd q
    { x with state := .halted, cause := if x.errCount = 0 then c.code else x.cause, pidx := BitVec.ofNat 32 idx,
             errCount := min 0xFFFF (x.errCount + 1) }
  s1.post vd { type_ := 2, cause := c.code, queue := q, cookie := cookie, index := BitVec.ofNat 64 idx }

/-- The cause with which an address is unusable as a signal, if it is. -/
def State.signalBad (s : State) (vd : Nat) (a : W64) (k : AccKind) : Option Cause :=
  if 2 ^ 56 ≤ a.toNat then some .reservedField
  else
    match s.ioSignal vd a k with
    | .error f => some f.cause
    | .ok _ => none

/-- The first of some causes. -/
def firstCause (l : List (Option Cause)) : Option Cause := l.findSome? id

/-- A check that fails with RESERVED_FIELD. -/
def reservedIf (b : Bool) : Option Cause := if b then some .reservedField else none

/-- Bits of word 0x28 of a LAUNCH that have a meaning (R289). -/
def launchMask : W64 := 0x0003FF3FFF0F01BF

/-- Signal address of entry `e` of a BARRIER (R290). -/
def barrierAddr (e : W64) : W64 := BitVec.ofNat 64 (e.field 4 52 * 16)
/-- Entries of a BARRIER that are used. -/
def Packet.entries (p : Packet) : List W64 := ((List.range 5).map (fun n => p.word (2 + n))).filter (fun e => e.field 0 4 != 0)

/-- The queue error of a packet, if it has one: reserved KIND or field, an unusable address, a malformed extension. -/
def State.packetBad (s : State) (vd : Nat) (p : Packet) : Option Cause :=
  let w := p.word
  let k := p.kind
  let header := firstCause
    [reservedIf ((w 0).field 10 22 != 0 || k == 0 || decide (5 < k) || ((w 0).bit 9 && k != 1)),
     if p.csig = 0 then none else s.signalBad vd p.csig .atomic]
  let body :=
    if k = 1 then
      reservedIf ((w 2).field 56 8 != 0 || (w 3).field 48 16 != 0 || (w 3).field 0 16 == 0 || (w 4).field 48 16 != 0 ||
        (w 5 &&& ~~~launchMask) != 0 || decide (47 < (w 5).field 0 6) || decide (40 < (w 5).field 32 6) ||
        (w 6).field 56 8 != 0 || (w 7).field 32 32 != 0 || ((w 5).field 16 4 != 0 && !(w 0).bit 9))
    else if k = 2 then
      firstCause (reservedIf ((w 7).field 1 63 != 0 || (List.range 5).any (fun n => decide (4 < (w (2 + n)).field 0 4))) ::
        p.entries.map (fun e => s.signalBad vd (barrierAddr e) .load))
    else if k = 3 then
      firstCause [reservedIf ((w 4).field 1 63 != 0 || w 5 != 0 || w 6 != 0 || w 7 != 0),
        s.signalBad vd (w 2) (if (w 4).bit 0 then .store else .atomic)]
    else if k = 4 then
      reservedIf ((w 3).field 2 62 != 0 || (w 4).field 10 54 != 0 || w 5 != 0 || w 6 != 0 || w 7 != 0)
    else reservedIf (w 4 != 0 || w 5 != 0 || w 6 != 0 || w 7 != 0)
  firstCause [header, body]

/-! ## Accepting (R285) -/

/-- The write index, read afresh. -/
def State.readIndex (s : State) (vd q : Nat) : Except AccFault Nat :=
  match s.ioRead vd (s.hqueue vd q).widxAt.toNat 8 with
  | .error f => .error f
  | .ok bs => .ok (leValue bs)

/-- A write index that a queue may not have: below QRIDX, or more than a ring ahead of it. -/
def HQueue.badIndex (x : HQueue) (w : Nat) : Bool := decide (w < x.ridx) || decide (x.ridx + 2 ^ x.log2n < w)

/-- The 64 bytes of a ring slot, as words. -/
def State.ringSlot (s : State) (vd q i : Nat) : Except AccFault (List W64) :=
  let x := s.hqueue vd q
  match s.ioRead vd (x.base.toNat + 64 * (i % 2 ^ x.log2n)) 64 with
  | .error f => .error f
  | .ok bs => .ok (wordsOf64 bs)

/-- A packet is copied from the ring: itself, and its extension where it has one that the index covers; of an ABORTED queue the
extension is only skipped (R291). -/
def State.readPacket (s : State) (vd q i w : Nat) : Except AccFault (Option Packet) :=
  match s.ringSlot vd q i with
  | .error f => .error f
  | .ok ws =>
    if !hasExt (ws.getD 0 0) then .ok (some { index := i, words := ws })
    else if w < i + 2 then .ok none
    else if (s.hqueue vd q).state = .aborted then .ok (some { index := i, words := ws })
    else
      match s.ringSlot vd q (i + 1) with
      | .error f => .error f
      | .ok es => .ok (some { index := i, words := ws, ext := es })

/-- The queue takes packets: RUNNING and enabled, or ABORTED; its virtual device runs, and the event buffer has room (R293, R300). -/
def State.accepts (s : State) (vd q : Nat) : Bool :=
  let v := s.vdev vd
  let x := s.hqueue vd q
  v.live && v.run && decide (v.evBuffer.length < 256) && (x.state == .running && x.en || x.state == .aborted)

/-- A queue error that accepting meets: the queue halts, but an ABORTED one raises none (R291). -/
def State.acceptError (s : State) (vd q idx : Nat) (cookie : W32) (c : Cause) : Out :=
  if (s.hqueue vd q).state = .aborted then .next s else .next (s.haltQueue vd q idx cookie c).fire

/-- PACKET_ACCEPT of queue `on.b` of virtual device `on.a`. -/
def execPacketAccept (s : State) : Out :=
  let vd := s.on.a
  let q := s.on.b
  let x := s.hqueue vd q
  if !s.accepts vd q then .next s
  else
    match s.readIndex vd q with
    | .error f => s.acceptError vd q x.ridx 0 f.cause
    | .ok w =>
      let s0 := s.setHqueue vd q { x with widx := w }
      if x.badIndex w then s0.acceptError vd q x.ridx 0 .reservedField
      else if w = x.ridx then .next s
      else
        match s.readPacket vd q x.ridx w with
        | .error f => s0.acceptError vd q x.ridx 0 f.cause
        | .ok none => .next s
        | .ok (some p) =>
          match (if x.state = .aborted then none else s.packetBad vd p) with
          | some c => .next (s0.haltQueue vd q x.ridx p.cookie c).fire
          | none =>
            let s1 := s0.journal vd 1 q 0 x.ridx (BitVec.ofNat 64 (p.kind + p.cookie.toNat * 2 ^ 32)) p.csig
            let s2 := if p.kind = 1 ∧ x.state ≠ .aborted then s1.capture vd .launch (p.words ++ p.ext) else s1
            let y := s2.hqueue vd q
            .next (s2.setHqueue vd q
              { y with ridx := x.ridx + (if hasExt (p.word 0) then 2 else 1), packets := y.packets ++ [p] }).fire

/-- WRITE_INDEX_STORE: the host stores the write index of a queue, and the device reads it again. -/
def execWriteIndexStore (vd q : Nat) (val : BitVec 64) (s : State) : Out :=
  let x := s.hqueue vd q
  match s.ioPlace vd x.widxAt.toNat 8 .load with
  | .error _ => .next s
  | .ok key =>
    let s1 := s.writeKey key (leBytes 8 val.toNat)
    if x.state ≠ .running ∧ x.state ≠ .aborted then .next s1.fire
    else
      let s2 := s1.setHqueue vd q { s1.hqueue vd q with widx := val.toNat }
      if x.state = .running ∧ x.badIndex val.toNat = true then .next (s2.haltQueue vd q x.ridx 0 .reservedField).fire else .next s2.fire

/-! ## Starting in order (R286, R291) -/

/-- The next packet of a list that may start: every one before it has started, and those that hold later ones have completed. -/
def nextToStart (ps : List Packet) : Option Packet :=
  match ps with
  | [] => none
  | p :: r => if !p.started then some p else if p.bars then none else nextToStart r

/-- The packet of a queue that starts next; a queue that is to stop starts none (R284). -/
def State.startable (s : State) (vd q : Nat) : Option Packet :=
  let x := s.hqueue vd q
  if x.state = .stopped ∨ x.stopping ∨ !(s.vdev vd).live then none else nextToStart x.packets

/-- The packet that starts next, if the queue has not been aborted and the packet's words pass a test. -/
def State.startableAs (s : State) (vd q : Nat) (f : Packet → Bool) : Option Packet :=
  if (s.hqueue vd q).state = .aborted then none
  else
    match s.startable vd q with
    | none => none
    | some p => if f p then some p else none

/-- A packet of a queue's list is replaced. -/
def State.putPacket (s : State) (vd q : Nat) (p : Packet) : State :=
  let x := s.hqueue vd q
  s.setHqueue vd q { x with packets := x.packets.map (fun y => if y.index = p.index ∧ y.launch = none then p else y) }

/-- A packet that acts at once retires with a status; nothing happens while its signal waits on a claim. -/
def State.retireNow (s0 s : State) (vd q : Nat) (p : Packet) (c : Cause) : Out :=
  match s.retire (p.ending vd q c.code) with
  | none => .next s0
  | some s1 => .next s1.fire

/-- ABORTED_PACKET_RETIRE (R291). -/
def execAbortedPacketRetire (s : State) : Out :=
  if (s.hqueue s.on.a s.on.b).state ≠ .aborted then .next s
  else
    match s.startable s.on.a s.on.b with
    | none => .next s
    | some p => s.retireNow s s.on.a s.on.b p .softwareTrap

/-! ## LAUNCH (R289, R303, R304) -/

/-- Bytes as the command processor reads them. -/
def State.ioBytes (s : State) (vd a n : Nat) : Except AccFault (List Byte) :=
  match rangeOf (fun x => s.ioPlace vd x 1 .load) a n with
  | .error f => .error f
  | .ok ps =>
    match s.badPiece ps with
    | some _ => .error { cause := .uncorrectable, addr := BitVec.ofNat 64 a }
    | none => .ok (s.readPieces ps)

/-- A kernel record and its arrays. -/
structure KernelRecord where
  w : List W64
  links : List Nat := []
  bins : List W64 := []

/-- Word `n` of a kernel record. -/
def KernelRecord.word (r : KernelRecord) (n : Nat) : W64 := r.w.getD n 0

/-- A budget of vector registers (02_encoding R36). -/
def budgetOk (b : Nat) : Bool := decide (8 ≤ b) && decide (b ≤ 56) && b % 8 == 0

/-- The fixed part of a kernel record keeps the limits (R303). Program counters hold multiples of 4 (02_encoding R17), so the CODE base
and the entries are multiples of 4 (DEDUCED, log entry 26). -/
def KernelRecord.fixedOk (r : KernelRecord) : Bool :=
  let c := r.word 2
  let nP := c.field 0 6
  let nC := c.field 6 6
  let roles := c.bit 33
  (r.word 0).field 56 8 == 0 && c.field 34 30 == 0 && (r.word 3).field 16 48 == 0 && (r.word 4).field 56 8 == 0 &&
    (r.word 5).field 56 8 == 0 && r.word 6 == 0 && r.word 7 == 0 && decide (1 ≤ nP) && decide (nP + nC ≤ 32) &&
    (roles || nC == 0) && budgetOk (c.field 12 6) && (nC == 0 || budgetOk (c.field 18 6)) && decide (c.field 24 4 ≤ 8) &&
    decide (c.field 28 5 ≤ 16) && c.field 28 5 % 2 == 0 && decide ((r.word 3).field 0 9 ≤ 256) &&
    decide ((r.word 3).field 9 7 ≤ 64) && (r.word 0).field 0 2 == 0 && (r.word 1).field 0 2 == 0 && (nC == 0 || (r.word 1).field 32 2 == 0)

/-- Producer group, port, consumer group and port of a link entry. -/
def linkOf (e : Nat) : Nat × Nat × Nat × Nat := (natField e 11 5, natField e 8 3, natField e 3 5, natField e 0 3)

/-- The arrays of a kernel record keep the limits. -/
def KernelRecord.arraysOk (r : KernelRecord) : Bool :=
  let c := r.word 2
  let ls := r.links.map linkOf
  let from_ := ls.map (fun l => (l.1, l.2.1))
  let to_ := ls.map (fun l => (l.2.2.1, l.2.2.2))
  let bs := r.bins.map (fun b => b.field 54 6)
  (ls.isEmpty || c.bit 33) && ls.all (fun l => decide (l.1 < c.field 0 6) && decide (l.2.2.1 < c.field 6 6)) &&
    from_.eraseDups.length == from_.length && to_.eraseDups.length == to_.length &&
    r.bins.all (fun b => b.field 60 4 == 0 && b.field 0 2 == 0 && b.field 32 2 != 3 && b.field 34 20 != 0) && bs.eraseDups.length == bs.length

/-- The kernel record at an address: RESERVED_FIELD where it is malformed, the fault's cause where it cannot be read. -/
def State.kernelRecord (s : State) (vd at_ : Nat) : Except Cause KernelRecord :=
  if at_ % 64 ≠ 0 then .error .reservedField
  else
    match s.ioBytes vd at_ 64 with
    | .error f => .error f.cause
    | .ok bs =>
      let r : KernelRecord := { w := wordsOf64 bs }
      if !r.fixedOk then .error .reservedField
      else
        match s.ioBytes vd (r.word 4).toNat (2 * (r.word 3).field 0 9), s.ioBytes vd (r.word 5).toNat (8 * (r.word 3).field 9 7) with
        | .error f, _ => .error f.cause
        | .ok _, .error f => .error f.cause
        | .ok ls, .ok bn =>
          let r1 := { r with
            links := (List.range ((r.word 3).field 0 9)).map (fun i => leValue ((ls.drop (2 * i)).take 2))
            bins := (List.range ((r.word 3).field 9 7)).map (fun i => BitVec.ofNat 64 (leValue ((bn.drop (8 * i)).take 8))) }
          if r1.arraysOk then .ok r1 else .error .reservedField

/-- The attach list of a LAUNCH packet. -/
def Packet.attach (p : Packet) : List (W64 × Bool) :=
  (List.range ((p.word 5).field 16 4)).map (fun n => (p.ext.getD n 0, (p.word 5).bit (24 + n)))

/-- The list names a segment twice, or has more than 8 names (R304). -/
def Packet.attachBad (p : Packet) : Bool :=
  let ns := p.attach.map (·.1)
  decide (8 < ns.length) || ns.eraseDups.length != ns.length

/-- TVEC is no address of a word, so that a trap could not leave it in a program counter (02_encoding R17): the launch retires with
RESERVED_FIELD (DEDUCED, log entry 26). -/
def Packet.tvecOdd (p : Packet) : Bool := (p.word 6).field 0 2 != 0

/-- Entry of a virtual device's cores on which a bin sits. -/
def State.binCore (s : State) (vd base b : Nat) : Nat :=
  let cores := (s.vdev vd).clusters.flatMap (fun c => (List.range 8).map (fun i => c * 8 + i))
  cores.getD ((base + b) % cores.length) 0

/-- The bins that a kernel record declares. -/
def State.binsOf (s : State) (vd base : Nat) (r : KernelRecord) : FMap Bin :=
  r.bins.foldl (fun m e =>
    let n := e.field 54 6
    m.set n { core := s.binCore vd base n, size := if e.field 32 2 = 0 then 16 else if e.field 32 2 = 1 then 32 else 64,
              entry := BitVec.ofNat 56 (e.field 0 32), flush := e.field 34 20 }) []

/-- Host memory that holds the record of a launch or its arrays is captured (R296). -/
def State.captureRange (s : State) (vd a n : Nat) : State :=
  match rangeOf (fun x => s.ioPlace vd x 1 .load) a n with
  | .error _ => s
  | .ok ps => (ps.filter (fun p => isHostKey p.1)).foldl (fun s p => s.captureRead vd (BitVec.ofNat 64 (p.1 - hostKey 0)) (s.bytes p.1 p.2)) s

/-- What is read of a kernel record. -/
def State.captureRecords (s : State) (vd at_ : Nat) (r : KernelRecord) : State :=
  ((s.captureRange vd at_ 64).captureRange vd (r.word 4).toNat (2 * r.links.length)).captureRange vd (r.word 5).toNat (8 * r.bins.length)

/-- A launch as its packet and kernel record give it; fetch will see device memory as it stands now (02_encoding R17). -/
def State.launchOf (s : State) (vd q : Nat) (p : Packet) (r : KernelRecord) : Launch :=
  let w := p.word
  let c := r.word 2
  { vd := vd, queue := q, packet := p.index, cookie := p.cookie, csig := p.csig, kobj := w 2
    grid := ((w 3).field 0 16, (w 3).field 16 16, (w 3).field 32 16), hint := (w 4).toNat, prio := (w 5).field 0 6
    idem := (w 5).bit 7, noRestore := (w 5).bit 8, attach := p.attach, scratch := (w 5).field 32 6
    binBase := (w 5).field 40 10, tvec := BitVec.ofNat 56 (w 6).toNat, tcmask := BitVec.ofNat 32 (w 7).toNat
    code := BitVec.ofNat 56 (r.word 0).toNat, entryP := BitVec.ofNat 56 ((r.word 1).field 0 32)
    entryC := BitVec.ofNat 56 ((r.word 1).field 32 32), nP := c.field 0 6, nC := c.field 6 6, budgetP := c.field 12 6
    budgetC := if c.field 6 6 = 0 then 0 else c.field 18 6, tiles := c.field 24 4, accs := c.field 28 5, roles := c.bit 33
    links := r.links.map linkOf, bins := s.binsOf vd ((w 5).field 40 10) r
    image := s.mem.filter (fun x => isDeviceKey x.1), eligible := true, started := true, ringsReady := r.bins.isEmpty
    ageFrom := s.cpNow, waitFrom := s.cpNow }

/-- LAUNCH: the next packet of queue `on.b` of virtual device `on.a` starts; the launch is eligible (14_scheduling R243). -/
def execLaunch (s : State) : Out :=
  let vd := s.on.a
  let q := s.on.b
  match s.startableAs vd q (fun p => p.kind == 1) with
  | none => .next s
  | some p =>
    if p.attachBad || p.tvecOdd then s.retireNow s vd q p .reservedField
    else
      match s.kernelRecord vd (p.word 2).toNat with
      | .error c => s.retireNow s vd q p c
      | .ok r =>
        let k := s.launchSeq + 1
        let s1 := { s with launchSeq := k, launches := s.launches.set k (s.launchOf vd q p r) }
        .next ((s1.captureRecords vd (p.word 2).toNat r).putPacket vd q { p with started := true, launch := some k }).fire

/-- The command processor makes a launch of its own: its teams run in firmware context (15_faults R262). The spec does not say what such a
launch holds; the model gives it the words of a LAUNCH packet (DESIGN CHOICE, log entry 101). -/
def State.firmwareLaunch (s : State) (vd q : Nat) (ws ext : List W64) : State :=
  let p : Packet := { words := ws, ext := ext }
  if !(s.vdev vd).live || p.kind != 1 || (s.packetBad vd p).isSome || p.attachBad || p.tvecOdd then s
  else
    match s.kernelRecord vd (p.word 2).toNat with
    | .error _ => s
    | .ok r =>
      let k := s.launchSeq + 1
      { s with launchSeq := k, launches := s.launches.set k { s.launchOf vd q p r with firmware := true } }.fire

/-! ## BARRIER (R290) -/

/-- What a BARRIER finds. -/
inductive BarrierTest where
  | negative
  | error
  | holds
  | waits
  | fault (c : Cause)
deriving DecidableEq, Repr

/-- One entry's condition on a signed VALUE. -/
def barrierCond (e : W64) (v : Int) : Bool :=
  let c : Int := e.field 56 8
  let k := e.field 0 4
  if k = 1 then decide (c ≤ v) else if k = 2 then decide (c < v) else if k = 3 then v == c else v != c

/-- The three tests of a BARRIER, made together. -/
def State.barrierTest (s : State) (vd : Nat) (p : Packet) : BarrierTest :=
  let keys := p.entries.map (fun e => (e, s.ioSignal vd (barrierAddr e) .load))
  match keys.findSome? (fun x => match x.2 with
      | .error f => some f.cause
      | .ok key => if s.poisoned key 16 then some .uncorrectable else none) with
  | some c => .fault c
  | none =>
    let read : List (W64 × W64 × W64) := keys.map (fun x => match x.2 with
      | .error _ => (x.1, (0 : W64), (0 : W64))
      | .ok key => (x.1, s.load64 key, s.load64 (key + 8)))
    if read.any (fun r => decide (r.2.1.toInt < (0 : Int))) then .negative
    else if read.any (fun r => r.2.2.bit 32) then .error
    else
      let conds := read.map (fun r => barrierCond r.1 r.2.1.toInt)
      if conds.isEmpty || (if (p.word 7).bit 0 then conds.any id else conds.all id) then .holds else .waits

/-- A BARRIER ends with what it finds; a negative VALUE aborts its queue. -/
def State.endBarrier (s : State) (vd q : Nat) (p : Packet) (t : BarrierTest) : Out :=
  match t with
  | .waits => .next s
  | .holds => s.retireNow s vd q p .none
  | .error => s.retireNow s vd q p .remoteContained
  | .fault c => s.retireNow s vd q p c
  | .negative =>
    s.retireNow (s.setHqueue vd q { s.hqueue vd q with state := .aborted, pidx := BitVec.ofNat 32 p.index }) vd q p .softwareTrap

/-- BARRIER: the packet starts and makes its tests. -/
def execBarrier (s : State) : Out :=
  let vd := s.on.a
  let q := s.on.b
  match s.startableAs vd q (fun p => p.kind == 2) with
  | none => .next s
  | some p =>
    match s.barrierTest vd p with
    | .waits => .next (s.putPacket vd q { p with started := true }).fire
    | t => s.endBarrier vd q p t

/-- BARRIER_RESOLVE: the waiting BARRIER makes its tests again. -/
def execBarrierResolve (s : State) : Out :=
  let vd := s.on.a
  let q := s.on.b
  match (s.hqueue vd q).packets.find? (fun p => p.started && p.kind == 2) with
  | none => .next s
  | some p => s.endBarrier vd q p (s.barrierTest vd p)

/-! ## SIGNAL, MARKER and SEGMENT (R292) -/

/-- A SIGNAL packet changes its target and retires. -/
def State.signalPacket (s : State) (p : Packet) (o : SignalOp) : Out :=
  match s.changeSignal s.on.a (p.word 2) o with
  | .wait => .next s
  | .fault f => s.retireNow s s.on.a s.on.b p f.cause
  | .done s1 => s.retireNow s1 s.on.a s.on.b p .none

/-- SIGNAL_ADD. -/
def execSignalAdd (s : State) : Out :=
  match s.startableAs s.on.a s.on.b (fun p => p.kind == 3 && !(p.word 4).bit 0) with
  | none => .next s
  | some p => s.signalPacket p (.add (p.word 3))

/-- SIGNAL_SET. -/
def execSignalSet (s : State) : Out :=
  match s.startableAs s.on.a s.on.b (fun p => p.kind == 3 && (p.word 4).bit 0) with
  | none => .next s
  | some p => s.signalPacket p (.set (p.word 3))

/-- MARKER: its words go into a journal record. -/
def execMarker (s : State) : Out :=
  match s.startableAs s.on.a s.on.b (fun p => p.kind == 5) with
  | none => .next s
  | some p => s.retireNow (s.journal s.on.a 8 s.on.b 0 p.index (p.word 2) (p.word 3)) s.on.a s.on.b p .none

/-- What an attempt at a SEGMENT packet comes to. -/
inductive SegmentEnd where
  /-- it retires; `stow` is what a stow returned (R288) -/
  | retires (s : State) (stow : Nat) (c : Cause)
  /-- it has acted, and retires later -/
  | acts (s : State)
  | waits

/-- The SEGMENT packets of a queue with an operation that may go on: those that have started and wait, then the one that starts next. -/
def State.segmentPackets (s : State) (op : Nat) : List Packet :=
  let is := fun (p : Packet) => p.kind == 4 && (p.word 3).field 0 2 == op
  (s.hqueue s.on.a s.on.b).packets.filter (fun p => p.started && is p) ++ (s.startableAs s.on.a s.on.b is).toList

/-- The packet has started and waits: it is noted at its segment, in the order of arrival (05_slices R76). -/
def State.segmentWaits (s : State) (p : Packet) : State :=
  let s1 := match s.segNamed s.on.a (p.word 2) with
    | none => s
    | some i => s.joinQueue s.on.a i (.packet s.on.a s.on.b p.index)
  s1.putPacket s.on.a s.on.b { p with started := true }

/-- A SEGMENT packet of queue `on.b` of virtual device `on.a` goes on: the first one with the operation that can. -/
def State.segmentStep (s : State) (op : Nat) (f : Packet → SegmentEnd) : Out :=
  match (s.segmentPackets op).findSome? (fun p => match f p with
    | .retires s1 stow c => s1.retire (({ p with stow := stow } : Packet).ending s.on.a s.on.b c.code)
    | .acts s1 => some (s1.putPacket s.on.a s.on.b { p with started := true })
    | .waits => if p.started then none else some (s.segmentWaits p)) with
  | none => .next s
  | some s1 => .next s1.fire

/-- Who waits at a segment for a packet. -/
def State.packetAt (s : State) (p : Packet) : SegWaiter := .packet s.on.a s.on.b p.index

/-- SEGMENT_STOW: as SGSTOW; a refused stow retires with NONE and its status in the event (R288). -/
def execSegmentStow (s : State) : Out :=
  s.segmentStep 0 (fun p =>
    match s.stowNamed s.on.a (p.word 2) (s.packetAt p) with
    | none => .waits
    | some (st, s1) => if st = 5 then .retires s1 0 .attachMiss else .retires s1 st .none)

/-- SEGMENT_DROP: as SGDROP by name; no attach is given up, for the command processor holds none. -/
def execSegmentDrop (s : State) : Out :=
  s.segmentStep 1 (fun p =>
    match s.segNamed s.on.a (p.word 2) with
    | none => .retires s 0 .attachMiss
    | some i =>
      match s.dropSeg s.on.a i none (s.packetAt p) with
      | none => .waits
      | some (_, s1) => .retires s1 0 .none)

/-- What pinning a segment comes to (R82). A STOWED one goes to RESTORING at once, with PIN 1, and the packet retires when it is RESIDENT
(23_prog_segment_handoff R329); a core outside the virtual device then ends the packet with SLICE_RANGE (log entry 25). A pin waits for
no other operation (DEDUCED, log entry 90). -/
def State.pinSeg (s : State) (p : Packet) (i : Nat) : SegmentEnd :=
  let vd := s.on.a
  let g := s.seg vd i
  let core := (p.word 4).field 0 10
  match g.state with
  | .free => .retires s 0 .attachMiss
  | .local_ => .retires (s.setSeg vd i { g with pin := true }) 0 .none
  | .resident => .retires (s.setSeg vd i { g with pin := true }) 0 .none
  | .restoring => if p.started then .waits else .retires (s.setSeg vd i { g with pin := true }) 0 .none
  | .stowing =>
    let s1 := s.cutStow vd i
    .retires (s1.setSeg vd i { s1.seg vd i with pin := true }) 0 .none
  | .stowed => if (s.vdCores vd).contains core then .acts (s.beginRestore vd i core true) else .retires s 0 .sliceRange

/-- SEGMENT_PIN. The packet's core matters only where a STOWED segment is restored. -/
def execSegmentPin (s : State) : Out :=
  s.segmentStep 2 (fun p =>
    match s.segNamed s.on.a (p.word 2) with
    | none => .retires s 0 (if p.started then .none else .attachMiss)
    | some i => s.pinSeg p i)

/-- SEGMENT_UNPIN. -/
def execSegmentUnpin (s : State) : Out :=
  s.segmentStep 3 (fun p =>
    match s.segNamed s.on.a (p.word 2) with
    | none => .retires s 0 .attachMiss
    | some i => .retires (s.setSeg s.on.a i { s.seg s.on.a i with pin := false }) 0 .none)

end Sys2Proof.Machine
end

