-- ==== Sys2Proof/Machine/System.lean ====
section
/-! DEFINITION. The group CSRs and the system words (15_faults R259, R263, R264, R373 to R379). -/

namespace Sys2Proof.Machine

/-! ## Fault records as words (R259) -/

/-- Word `n` of a fault record; a record whose V is 0 is all zeros. -/
def FaultRec.word (r : FaultRec) (n : Nat) : W64 :=
  if !r.v then 0
  else if n = 0 then r.addr
  else if n = 1 then BitVec.ofNat 64 (r.cause.toNat * 2 ^ 56 + r.fpc.toNat)
  else if n = 2 then r.rpc.zeroExtend 64
  else
    BitVec.ofNat 64 (r.entries.toNat * 2 ^ 32 + bitNat r.v * 2 ^ 31 + bitNat r.malf * 2 ^ 30 + bitNat r.wr * 2 ^ 29 +
      bitNat r.ex * 2 ^ 28 + bitNat r.host * 2 ^ 27 + bitNat r.rmt * 2 ^ 26 + bitNat r.deferred * 2 ^ 25 +
      bitNat r.grp * 2 ^ 24 + r.reg.toNat * 2 ^ 18 + r.code.toNat)

/-! ## CSRs (R263) -/

/-- The value of a CSR for the executing group. -/
def State.csrValue (s : State) (n : Nat) : W64 :=
  let g := s.grp
  let t := s.curTeam
  let pos := gridPos (s.launch t.launch).grid t.index
  let w (x : Nat) : W64 := BitVec.ofNat 64 x
  if n = 0x000 then s.cyc t.core
  else if n = 0x001 then g.fpm
  else if n = 0x002 then g.klen
  else if n = 0x003 then g.runmask.zeroExtend 64
  else if n = 0x004 then g.regctr
  else if n = 0x005 then g.abase
  else if n = 0x006 then g.wsel
  else if n = 0x007 then g.wpat
  else if n = 0x008 then g.gentag.zeroExtend 64
  else if n = 0x010 then w (g.callRun.headD 0)
  else if n = 0x011 then w g.idx
  else if n = 0x012 then w t.index
  else if n = 0x013 then w (pos.1 + pos.2.1 * 2 ^ 16 + pos.2.2 * 2 ^ 32)
  else if n = 0x014 then (s.vdev t.vd).fabCoord
  else if n = 0x015 then w (g.lane * 2 ^ 10 + t.core)
  else if n = 0x020 then g.trapcause.zeroExtend 64
  else if n = 0x021 then g.trapaddr
  else if n = 0x022 then g.trappc.zeroExtend 64
  else if n = 0x023 then g.trapmask.zeroExtend 64
  else if n = 0x024 then w (bitNat g.trap + bitNat g.report * 2 + bitNat g.fw * 4)
  else if n = 0x025 then g.tvec.zeroExtend 64
  else if n = 0x026 then g.tcmask.zeroExtend 64
  else if n = 0x027 then w (g.rerrCause.toNat * 2 ^ 56 + g.rerrCount.toNat * 2 ^ 40)
  else if n = 0x028 then w ((s.launch t.launch).prio * 2 ^ 8 + t.base)
  else if n < 0x180 then (g.thread ((n - 0x100) / 4)).fault.word (n % 4)
  else g.fault.word (n - 0x180)

/-- A collective that the group has issued is still to be performed: each live thread that it names waits at it (13_execution R231). It
stands before a read or write of `fpm` that issues now (03_numbers R46). -/
def Group.collGathered (g : Group) : Bool :=
  g.threads.any (fun p =>
    match p.2.coll with
    | none => false
    | some c => g.gathered c (g.waitersAt p.2.pc))

/-- A lane word of the group has not completed: a load or an atomic of some thread is outstanding. -/
def Group.laneOutstanding (g : Group) : Bool := g.ops.any (fun o => o.pieces.any (fun p => p.t != 32))

/-- CSRRD (R373). A read of `fpm` waits until every lane word issued before it has completed (03_numbers R46). -/
def execCsrrd (d : Opnd) (csr : BitVec 12) (s : State) : Out :=
  .next (s.groupWord (.unlisted (.csrrd d csr)) { ok := csrListed csr.toNat, dest := destOf d 1 }
    (fun s1 _ =>
      if csr = 1 && (s1.grp.collGathered || s1.grp.laneOutstanding) then .wait
      else .done (s1.writeGroup d (s1.csrValue csr.toNat))))

/-- A value that CSRWR may write: no reserved bit, and a legal `klen` (R263, R373). -/
def csrValueOk (n : Nat) (v : W64) : Bool :=
  if n = 0x001 then fpmOk v
  else if n = 0x002 then v == 1 || v == 2 || v == 4 || v == 8
  else if n = 0x020 then v.field 8 56 == 0
  else if n = 0x022 then v.field 56 8 == 0
  else if 0x100 ≤ n then v.field 56 8 == 0
  else true

/-- A CSR is written. RPC of a record that is not valid stays. -/
def Group.setCsr (g : Group) (n : Nat) (v : W64) : Group :=
  if n = 0x001 then { g with fpm := v }
  else if n = 0x002 then { g with klen := v }
  else if n = 0x005 then { g with abase := v }
  else if n = 0x006 then { g with wsel := v }
  else if n = 0x007 then { g with wpat := v }
  else if n = 0x020 then { g with trapcause := v.truncate 8 }
  else if n = 0x021 then { g with trapaddr := v }
  else if n = 0x022 then { g with trappc := v.truncate 56 }
  else if 0x100 ≤ n ∧ n < 0x180 then
    let t := (n - 0x100) / 4
    let x := g.thread t
    if x.fault.v then g.setThread t { x with fault := { x.fault with rpc := v.truncate 56 } } else g
  else g

/-- CSRWR (R373): PRIVILEGED comes before every other check (02_encoding R24). A write of `fpm` governs no word issued before it (03_numbers
R46). -/
def execCsrwr (d : Opnd) (csr : BitVec 12) (s : State) : Out :=
  let n := csr.toNat
  .next (if csrPrivileged n && !s.grp.privileged then s.trap (plainFault .privileged)
    else s.groupWord (.unlisted (.csrwr d csr)) { ok := csrWritable n, srcs := [{ o := d }] } (fun s1 vs =>
      if !csrValueOk n (gv vs 0) then .fault (plainFault .reservedField)
      else if n = 1 && s1.grp.collGathered then .wait
      else .done (s1.setGrp (s1.grp.setCsr n (gv vs 0)))))

/-- CYCLE (R373). -/
def execCycle (d : Opnd) (s : State) : Out :=
  .next (s.groupWord (.unlisted (.cycle d)) { dest := destOf d 1 } (fun s1 _ =>
    .done (s1.writeGroup d (s1.cyc s1.curCore))))

/-- SLEEP (R374): a restored one waits the cycles that were left. -/
def execSleep (a : Opnd) (s : State) : Out :=
  .next (s.groupWord (.unlisted (.sleep a)) { srcs := [{ o := a }] } (fun s1 vs =>
    let over_ := match s1.grp.sleepLeft with
      | some e => decide (e ≤ s1.now)
      | none => decide ((gv vs 0).toNat ≤ (s1.cyc s1.curCore).toNat)
    if over_ then .done s1 else .wait))

/-- GTRAP (R375). -/
def execGtrap (code : BitVec 18) (s : State) : Out :=
  .next (s.groupWord (.unlisted (.gtrap code)) {} (fun s1 _ => .trapAfter s1 (Cause.code .softwareTrap) 0 code))

/-- A thread parks with a record of its own making (R375). -/
def State.parkCode (s : State) (ts : List Nat) (c : Cause) (code : BitVec 9) (rpc : VA → VA) : State :=
  s.setGrp (s.grp.mapThreads ts (fun _ x =>
    { x with st := .parked,
             fault := { s.grp.threadRec x (plainFault c) with rpc := rpc x.pc, code := code.zeroExtend 18 } }))

/-- The guard of an LI word. -/
def liGuard (pg : Fin 8) : Thread → Bool := laneGuard pg false

/-- TRAP (R375): RPC is the next word. -/
def execTrap (code : BitVec 9) (pg : Fin 8) (s : State) : Out :=
  .next (s.laneWord (.unlisted (.trap code pg)) { guard := liGuard pg }
    (fun s1 ts _ => s1.parkCode ts .softwareTrap code (· + 4)))

/-- BKPT (R375): RPC is the word itself. -/
def execBkpt (code : BitVec 9) (pg : Fin 8) (s : State) : Out :=
  .next (s.laneWord (.unlisted (.bkpt code pg)) { guard := liGuard pg }
    (fun s1 ts _ => s1.parkCode ts .breakpoint code id))

/-- The addresses at which threads go on when trap context is left (R262, R376). -/
def Group.resumeAt (g : Group) : List VA :=
  if g.report then (g.threads.filter (fun p => p.2.st == .parked)).map (fun p => p.2.fault.rpc) else [g.trappc]

/-- RTE (R376): an address to go on at that is no multiple of 4 faults at the RTE (02_encoding R17, log entry 27). -/
def execRte (f : GrpGuard) (s : State) : Out :=
  .next (if !s.grp.trap then s.trap (plainFault .privileged)
    else s.groupWord (.unlisted (.rte f)) { guard := grpGuard s.grp f.cg f.ng }
      (fun s1 _ =>
        match oddTarget s1.grp.resumeAt with
        | some x => .fault x
        | none => .moved (s1.setGrp s1.grp.leaveTrap)))

/-- GNOP (R376). -/
def execGnop (f : GrpGuard) (s : State) : Out :=
  .next (s.groupWord (.unlisted (.gnop f)) { guard := grpGuard s.grp f.cg f.ng } (fun s1 _ => .done s1))

/-- A group stops for good: its threads count as exited, its slot and registers are freed. -/
def State.stopGroup (s0 : State) (k : Nat) : State :=
  let s := s0.unhint k
  let g := s.group k
  (s.setGroup k { g with trap := false, held := false,
                         threads := g.threads.mapKV (fun _ x => if x.st = .absent then x else { x with st := .exited }) }).freeGroup k

/-- Every group of a team stops and the end sequence begins (R377); one whose word stands in the accumulator pipe stops once that word has been
performed, for which the end waits (10_table R182). -/
def State.stopTeam (s : State) (tk : Nat) (completion : W32) : State :=
  let s1 := ((s.team tk).groups.filter (fun k => !(s.group k).inPipe)).foldl State.stopGroup s
  let t := s1.team tk
  s1.setTeam tk { t with exited := t.launched, completion := completion, phase := .ending }

/-- TEAMEND (R377). -/
def execTeamend (a : Opnd) (f : GrpGuard) (s : State) : Out :=
  .next (s.groupWord (.unlisted (.teamend a f)) { guard := grpGuard s.grp f.cg f.ng, srcs := [{ o := a }] } (fun s1 vs =>
    if s1.releaseWaits .device true then .wait
    else .moved ((s1.beforeRelease .device true).stopTeam s1.grp.team ((gv vs 0).truncate 32))))

/-- Kind of access that PROBE asks for. -/
def probeKind (k : Nat) : AccKind := if k = 0 then .load else if k = 1 then .store else if k = 2 then .fetch else .atomic

/-- The leaf of a translated address, if the walk ends in one. -/
def State.leafOf (s : State) (core vd : Nat) (ea : W64) : Option (W64 × Nat) :=
  if !addrOk ea || decide (sliceBase ≤ ea.toNat) then none
  else
    match s.translate core vd ea.toNat with
    | .leaf e _ sz => some (e, sz)
    | .missing _ => none
    | .uncorrectable _ => none

/-- What PROBE returns (R378). -/
def State.probeWord (s : State) (core vd : Nat) (ea : W64) (k : AccKind) : W64 :=
  let slice := addrOk ea && decide (sliceBase ≤ ea.toNat)
  let bad := match s.check core vd ea 1 k with
    | .ok _ => none
    | .error f => some f
  let cause := match bad with
    | none => 0
    | some f => f.cause.code.toNat
  let malf := match bad with
    | none => false
    | some f => f.malf
  let rest := match s.leafOf core vd ea with
    | none => if slice then 3 * 2 ^ 12 else 0
    | some (e, sz) =>
      (if bad.isSome then 0 else e.field 16 40 * 2 ^ 16) + e.field 62 2 * 2 ^ 14 + sz * 2 ^ 12 + e.field 58 4 * 2 ^ 8 +
        bitNat (e.bit 8) * 2 ^ 7 + bitNat (e.bit 7) * 2 ^ 6 + bitNat (e.bit 6) * 2 ^ 5 + bitNat (e.bit 5) * 2 ^ 4 +
        bitNat (e.bit 4) * 2 ^ 3 + bitNat (e.bit 3) * 2 ^ 2 + bitNat (e.bit 0)
  BitVec.ofNat 64 (cause * 2 ^ 56 + bitNat malf * 2 + rest)

/-- PROBE (R378). R30 lets a PROBE of another address space pass in trap context too, and the own one always; R378, which gives the word
itself, asks for firmware context for every gb from 1 to 16: the model follows R378 (DEDUCED, log entry 77). -/
def execProbe (f : GrpThree) (kind : Fin 4) (s : State) : Out :=
  .next (s.groupWord (.unlisted (.probe f kind)) { srcs := [{ o := f.a }, { o := f.b }], dest := destOf f.d 1 }
    (fun s1 vs =>
      let b := (gv vs 1).toNat
      if 16 < b then .fault (plainFault .reservedField)
      else if b ≠ 0 && !s1.grp.fw then .fault (plainFault .privileged)
      else .done (s1.writeGroup f.d
        (s1.probeWord s1.curCore (if b = 0 then s1.curVd else b - 1) (gv vs 0) (probeKind kind.val)))))

/-- PRIO (R379). -/
def execPrio (f : GrpDA) (s : State) : Out :=
  .next (s.groupWord (.unlisted (.prio f)) { srcs := [{ o := f.a }], dest := destOf f.d 1 } (fun s1 vs =>
    if 47 < (gv vs 0).toNat then .fault (plainFault .reservedField)
    else
      let t := s1.curTeam
      let s2 := s1.setTeam s1.grp.team { t with base := min (gv vs 0).toNat (s1.launch t.launch).prio }
      .done (s2.writeGroup f.d (BitVec.ofNat 64 t.base))))

end Sys2Proof.Machine
end

