-- ==== Sys2Proof/Machine/Registers.lean ====
section
/-! DEFINITION. The registers of a function, as the host writes them, and what a write starts: invalidations, the event
ring, replay capture, the team-fault interface, queue control, stop and resume (04_memory R62, R63, 11_fabric R185,
15_faults R262, 17_command R282 to R285, R293, R296, R299, R300). -/

namespace Sys2Proof.Machine

/-- The bits of a value that a mask keeps. -/
def keepBits (v : W64) (hi lo : Nat) : W64 := BitVec.ofNat 64 (v.field lo (hi + 1 - lo) * 2 ^ lo)

/-- A live virtual device changes as a write asks; a write to a function that is not there does nothing. -/
def State.regWrite (s : State) (vd : Nat) (f : VDev → VDev) : Out :=
  if (s.vdev vd).live then .next (s.setVdev vd (f (s.vdev vd))).fire else .next s

/-! ## Translation block (R62, R63) -/

/-- An invalidation starts. -/
def VDev.startInv (v : VDev) (all : Bool) : VDev :=
  { v with invBusy := true, invPage := v.invVa.field 16 40, invAll := all || (v.invBusy && v.invAll) }

/-- XLATE_INV_CTL_WRITE (R62). -/
def execXlateInvCtlWrite (vd : Nat) (val : W64) (s : State) : Out :=
  s.regWrite vd (fun v =>
    let count := val.field 32 32
    let scope := val.field 1 2
    if val.field 4 28 ≠ 0 then { v with invErr := true }
    else
      let cleared := { v with invErr := v.invErr && !val.bit 3 }
      if !val.bit 0 then cleared
      else if v.invBusy || decide (2 ≤ scope) || (scope == 0 && count == 0) then { v with invErr := true }
      else { cleared with invCount := BitVec.ofNat 32 count, invScope := BitVec.ofNat 2 scope }.startInv (scope == 1))

/-- XLATE_ROOT_WRITE (R62): a whole-virtual-device invalidation. -/
def execXlateRootWrite (vd : Nat) (val : W64) (s : State) : Out :=
  s.regWrite vd (fun v => { v with root := keepBits val 55 17 ||| keepBits val 0 0 }.startInv true)

/-- XLATE_KEYS_WRITE (R62): a whole-virtual-device invalidation. -/
def execXlateKeysWrite (vd : Nat) (val : W64) (s : State) : Out :=
  s.regWrite vd (fun v => { v with keys := keepBits val 31 0 }.startInv true)

/-- The 64 KiB page lies in the range of the invalidation. -/
def VDev.inRange (v : VDev) (page pages : Nat) : Bool :=
  v.invAll || (decide (page < v.invPage + v.invCount.toNat) && decide (v.invPage < page + pages))

/-- A TLB without the entries that the invalidation covers: an entry goes when any page of its leaf lies in the range. -/
def VDev.keptTlb (v : VDev) (vd : Nat) (l : List TlbEntry) : List TlbEntry :=
  l.filter (fun t =>
    let pages := if t.size = 0 then 1 else if t.size = 1 then 32 else 8192
    !(t.vd == vd && v.inRange (t.page / pages * pages) pages))

/-- A copy command of the virtual device moves data with translations that it made before (R63). -/
def State.copyTranslated (s : State) (vd : Nat) : Bool :=
  s.copies.any (fun p => p.2.vd == vd && p.2.phase != .done && !p.2.kind.isImage &&
    (p.2.phase == .running || p.2.places.any (fun l => l.any (fun e => !isSliceKey e.1))))

/-- Cores whose L1 holds a dirty line of the virtual device. -/
def State.vdL1 (s : State) (vd : Nat) : List Nat := s.cores.keysWhere (fun _ c => c.l1.any (fun l => l.vd == vd && l.dirty != 0))

/-- A pending walk in the range of the invalidation starts again (R63); one that now ends with a fault leaves nothing pending. -/
def State.walkedAfresh (s : State) (vd : Nat) (v : VDev) (w : PendingWalk) : Option PendingWalk :=
  if w.vd ≠ vd ∨ !v.inRange w.page 1 then some w
  else
    match s.walk vd (w.page * 2 ^ 16) with
    | .leaf e at_ sz => some { w with leaf := e, at_ := at_, size := sz }
    | .missing _ => none
    | .uncorrectable _ => none

/-- INVALIDATION_COMPLETE of virtual device `on.a` (R63). Plain stores that an old entry translated may still be dirty in an L1: they reach
their targets first. -/
def execInvalidationComplete (s : State) : Out :=
  let vd := s.on.a
  let v := s.vdev vd
  if !v.invBusy || s.copyTranslated vd || (s.vdL1 vd).any s.dirtyClaimed then .next s
  else
    let s1 := (s.vdL1 vd).foldl State.cleanAll s
    let s2 := { s1 with
      cores := s1.cores.mapKV (fun _ c => { c with tlb := v.keptTlb vd c.tlb })
      clusters := s1.clusters.mapKV (fun _ c => { c with tlb := v.keptTlb vd c.tlb })
      pointers := s1.pointers.filter (fun p => p.1 != vd) }
    .next { s2 with
      walks := s2.walks.filterMap (fun w => s2.walkedAfresh vd v w)
      vdevs := s2.vdevs.set vd { s2.vdev vd with invBusy := false, invAll := false } }.fire

/-! ## Fabric block (11_fabric R185) -/

/-- The window-entry caches hold nothing of the virtual device. -/
def State.emptyWindows (s : State) (vd : Nat) : State :=
  { s with clusters := s.clusters.mapKV (fun _ c => { c with windows := c.windows.filter (fun w => w.1 != vd) }) }

/-- FAB_WTAB_WRITE. -/
def execFabWtabWrite (vd : Nat) (val : W64) (s : State) : Out :=
  (s.emptyWindows vd).regWrite vd (fun v => { v with fabWtab := keepBits val 55 0 })

/-- FAB_ITAB_WRITE. -/
def execFabItabWrite (vd : Nat) (val : W64) (s : State) : Out :=
  (s.emptyWindows vd).regWrite vd (fun v => { v with fabItab := keepBits val 55 16 ||| keepBits val 11 0 })

/-! ## Event ring and capture (R293, R296) -/

/-- The ring restarts. -/
def VDev.restartRing (v : VDev) : VDev := { v with evWidx := 0, evFresh := true }

/-- EVBASE_WRITE. -/
def execEvbaseWrite (vd : Nat) (val : W64) (s : State) : Out :=
  s.regWrite vd (fun v => { v with evBase := keepBits val 55 6, evStuck := false }.restartRing)

/-- EVCTL_WRITE: a LOG2N outside 6 to 16 leaves EN at 0. -/
def execEvctlWrite (vd : Nat) (val : W64) (s : State) : Out :=
  s.regWrite vd (fun v =>
    let n := val.field 0 5
    let en := val.bit 16 && decide (6 ≤ n) && decide (n ≤ 16)
    let v1 := { v with evEn := en, evVec := BitVec.ofNat 8 (val.field 8 8), evLog2n := n, evStuck := false }
    if n ≠ v.evLog2n || (en && !v.evEn) then v1.restartRing else v1)

/-- BUFFERED_EVENT_POST: the oldest buffered event of virtual device `on.a` enters the ring. -/
def execBufferedEventPost (s : State) : Out :=
  let vd := s.on.a
  match (s.vdev vd).evBuffer with
  | [] => .next s
  | e :: r =>
    match s.ringPut vd e with
    | .done s1 => .next (s1.setVdev vd { s1.vdev vd with evBuffer := r }).fire
    | .full => .next s
    | .broken => .next (s.setVdev vd { s.vdev vd with evStuck := true }).fire

/-- CAPLEN_WRITE. -/
def execCaplenWrite (vd : Nat) (val : W64) (s : State) : Out :=
  let n := BitVec.ofNat 32 (val.field 0 32)
  s.regWrite vd (fun v => { v with capLen := n, capOn := n != 0, capture := if n = 0 then v.capture else [] })

/-! ## The dirty bitmap (R299) -/

/-- DBDATA is read: the word goes to the host and becomes 0. -/
def State.readDbdata (s : State) (vd : Nat) : State :=
  let v := s.vdev vd
  let pa := v.dbm.field 20 36 * 2 ^ 20 + 8 * v.dbIdx
  if !v.live then s
  else if pa + 8 ≤ Config.deviceBytes then { s.writeQuiet pa (leBytes 8 0) with hostReply := (s.bytes pa 8, false) }.fire
  else { s with hostReply := (leBytes 8 (Config.freeWord pa).toNat, false) }.fire

/-- DBDATA_READ of virtual device `on.a`. -/
def execDbdataRead (s : State) : Out := .next (s.readDbdata s.on.a)

/-! ## The team-fault interface (15_faults R262) -/

/-- OP of a TFCMD value. -/
def tfOp (val : W64) : Nat := val.field 48 2
/-- TEAM of a TFCMD value. -/
def tfTeam (val : W64) : Nat := val.field 0 48

/-- The group is held, or its report has not ended (R262, R283). -/
def Group.awaitsService (g : Group) : Bool := g.held || g.report

/-- The resident team that a TFCMD names: held or reporting. -/
def State.tfLive (s : State) (vd : Nat) (val : W64) : Option Nat :=
  (s.teams.keysWhere (fun _ t => t.vd == vd && t.launch == (s.vdev vd).tflSeq.toNat && t.index == tfTeam val &&
    t.groups.any (fun k => (s.group k).awaitsService))).head?

/-- The saved team that a TFCMD names. -/
def State.tfSaved (s : State) (vd : Nat) (val : W64) : Option Nat :=
  ((s.vdev vd).saved.keysWhere (fun _ x => x.team.launch == (s.vdev vd).tflSeq.toNat && x.team.index == tfTeam val &&
    x.groups.any (fun g => g.2.awaitsService))).head?

/-- A held or reporting group that is resumed, as though it had executed RTE; where that RTE would fault, for an address that is no multiple
of 4, the group is held (log entry 27). -/
def Group.unheld (g : Group) : Group :=
  if !g.awaitsService then g
  else if (oddTarget g.resumeAt).isSome then { g with held := true }
  else g.leaveTrap

/-- The resume of the group faults. -/
def Group.unheldOdd (g : Group) : Bool := g.awaitsService && (oddTarget g.resumeAt).isSome

/-- A team whose resume has faulted in a group is reported again. -/
def State.reportOdd (s : State) (t : Team) (gs : List Group) : State :=
  if gs.any Group.unheldOdd then s.postTeam t 4 (Cause.code .misaligned) else s

/-- OP and TEAM of TFCMD as they read. -/
def VDev.noteTf (v : VDev) (val : W64) (busy : Bool) : VDev :=
  { v with tfCmd := keepBits val 49 48 ||| keepBits val 47 0 ||| BitVec.ofNat 64 (bitNat busy * 2 ^ 63) }

/-- TFCMD_RESUME: each held or reporting group acts as though it had executed RTE. -/
def execTfcmdResume (vd : Nat) (val : W64) (s : State) : Out :=
  if tfOp val ≠ 1 then .next s
  else
    let s0 := s.setVdev vd ((s.vdev vd).noteTf val false)
    match s.tfLive vd val with
    | some tk =>
      let gs := (s.team tk).groups.map s.group
      let s1 := (s.team tk).groups.foldl (fun s k => s.setGroup k (s.group k).unheld) s0
      let s2 := if gs.any Group.unheldOdd then s1.setTeam tk { s1.team tk with reported := Cause.code .misaligned } else s1
      .next (s2.reportOdd (s.team tk) gs).fire
    | none =>
      match s.tfSaved vd val with
      | none => s.regWrite vd (fun v => v.noteTf val false)
      | some tk =>
        let v := s0.vdev vd
        let x := v.saved.get tk {}
        let gs := x.groups.map (·.2)
        let t := if gs.any Group.unheldOdd then { x.team with reported := Cause.code .misaligned } else x.team
        .next ((s0.setVdev vd { v with
          saved := v.saved.set tk { x with team := t, groups := x.groups.mapKV (fun _ g => g.unheld) } }).reportOdd t gs).fire

/-- The launch of an aborted team fails with the reported cause, and ends if this was its last. -/
def State.abortEnd (s : State) (t : Team) (c : BitVec 8) : State :=
  (((s.setFateOf t .done).failLaunch t.launch (causeOfCode c)).tryEnd t.launch).fire

/-- The reported cause: the one posted for a held group, else that of the report under way. -/
def Team.abortCause (t : Team) (gs : List Group) : BitVec 8 :=
  if gs.any (fun g => g.held) then t.reported
  else
    match gs.find? (fun g => g.report) with
    | some g => g.trapcause
    | none => t.reported

/-- TFCMD_ABORT: the team is flushed and its launch retires with the reported cause. While a claim holds dirty bytes of its core
the command stays BUSY and is tried again. -/
def execTfcmdAbort (vd : Nat) (val : W64) (s : State) : Out :=
  if tfOp val ≠ 2 then .next s
  else
    let me := (Instr.tfcmdAbort vd val, s.on)
    let s0 := { s.setVdev vd ((s.vdev vd).noteTf val false) with arrivals := s.arrivals.erase me }
    match s.tfLive vd val with
    | some tk =>
      let t := s.team tk
      if s.dirtyClaimed t.core then
        (if s.on.c = 2 then .next s
        else .next { s.setVdev vd ((s.vdev vd).noteTf val true) with
                     arrivals := s.arrivals ++ [(Instr.tfcmdAbort vd val, { s.on with c := 2 })] }.fire)
      else .next ((s0.leaveCore tk).abortEnd t (t.abortCause (t.groups.map s.group)))
    | none =>
      match s.tfSaved vd val with
      | none =>
        if (s.vdev vd).live then .next s0.fire
        else if s.on.c = 2 then .next { s with arrivals := s.arrivals.erase me }.fire
        else .next s
      | some tk =>
        let v := s0.vdev vd
        let t := (v.saved.get tk {}).team
        let gs := (v.saved.get tk {}).groups.map (·.2)
        let s1 := (s0.setVdev vd { v with saved := v.saved.erase tk }).freeKept t
        .next ((t.attaches.foldl (fun s a => s.detach t.vd a.1 tk) s1).abortEnd t (t.abortCause gs))

/-! ## Queue control (R284) -/

/-- All that a write of QCTL does: RESET first, then ACK, then EN, LOG2N and AGE. An ABORTED queue leaves that state at RESET alone (R291). -/
def HQueue.control (x : HQueue) (val : W64) : HQueue :=
  let x1 : HQueue :=
    if val.bit 8 then { x with state := .stopped, widx := 0, ridx := 0, pidx := 0, errCount := 0, cause := 0, packets := [] }
    else if val.bit 7 && x.state == .halted then { x with state := .running }
    else x
  let n := val.field 0 5
  let x2 : HQueue :=
    { x1 with age := val.bit 6, log2n := if x1.state = .stopped ∧ 4 ≤ n ∧ n ≤ 16 then n else x1.log2n, en := val.bit 5 }
  if val.bit 5 && x2.state == .stopped then { x2 with state := .running } else x2.settle

/-- Packets of the queue wait at no segment any more. -/
def VDev.forgetPackets (v : VDev) (vd q : Nat) : VDev :=
  let other := fun (w : SegWaiter) => match w with
    | .packet d n _ => !(d == vd && n == q)
    | .group _ => true
    | .team _ => true
  { v with segs := v.segs.mapKV (fun _ g => { g with waiting := g.waiting.filter other }) }

/-- A write of QCTL. -/
def State.writeQctl (s : State) (vd q : Nat) (val : W64) : Out :=
  if q < 64 then
    s.regWrite vd (fun v =>
      let v1 : VDev := { v with queues := v.queues.set q ((v.queues.get q {}).control val) }
      if val.bit 8 then v1.forgetPackets vd q else v1)
  else .next s

/-- QCTL_RESET: a write with RESET 1. -/
def execQctlReset (vd q : Nat) (val : W64) (s : State) : Out := if val.bit 8 then s.writeQctl vd q val else .next s
/-- QCTL_ACK: a write with ACK 1. -/
def execQctlAck (vd q : Nat) (val : W64) (s : State) : Out := if val.bit 7 then s.writeQctl vd q val else .next s
/-- QCTL_ENABLE: a write with EN 1. -/
def execQctlEnable (vd q : Nat) (val : W64) (s : State) : Out := if val.bit 5 then s.writeQctl vd q val else .next s
/-- QCTL_DISABLE: a write with EN 0. -/
def execQctlDisable (vd q : Nat) (val : W64) (s : State) : Out := if val.bit 5 then .next s else s.writeQctl vd q val

/-! ## Registers without a behaviour of their own (R282) -/

/-- Queue registers that may be written in STOPPED alone. -/
def HQueue.place (x : HQueue) (o : Nat) (val : W64) : HQueue :=
  if x.state ≠ .stopped then x
  else if o = 0x00 then { x with base := keepBits val 55 6 }
  else if o = 0x10 then { x with widxAt := keepBits val 55 3 }
  else x

/-- A virtual device after a write to such a register at a BAR0 offset; writes to other offsets are ignored. -/
def VDev.plain (v : VDev) (o : Nat) (val : W64) : VDev :=
  if o = 0x0010 then { v with invVa := keepBits val 55 16 }
  else if o = 0x1000 then { v with fabGrid := keepBits val 63 48 ||| keepBits val 34 32 ||| keepBits val 29 0 }
  else if o = 0x1008 then { v with fabCoord := keepBits val 59 0 }
  else if o = 0x2010 then { v with stowBase := keepBits val 55 16 }
  else if o = 0x2018 then { v with stowLen := BitVec.ofNat 32 (val.field 0 32) }
  else if o = 0x2020 then { v with dbm := keepBits val 55 20, track := val.bit 0 }
  else if o = 0x2028 then { v with dbIdx := val.field 0 17 }
  else if o = 0x2038 then { v with tflSeq := BitVec.ofNat 32 (val.field 0 32) }
  else if o = 0x2048 then { v with capBase := keepBits val 55 6 }
  else if 0x2080 ≤ o ∧ o < 0x2080 + 8 * 48 ∧ o % 8 = 0 then
    { v with drain := v.drain.set ((o - 0x2080) / 8) (val.field 0 48) }
  else if 0x4000 ≤ o ∧ o < 0x4000 + 64 * 64 then
    let q := (o - 0x4000) / 64
    { v with queues := v.queues.set q ((v.queues.get q {}).place (o % 64) val) }
  else v

/-- REGISTER_WRITE. HOST_ATOMICS exists in the physical function alone (04_memory R62). -/
def execRegisterWrite (vd offset : Nat) (val : W64) (s : State) : Out :=
  if offset = 0x0020 then
    (if vd = 0 then .next { s with platform := { s.platform with hostAtomics := BitVec.ofNat 2 (val.field 0 2) } }.fire
    else .next s)
  else s.regWrite vd (fun v => v.plain offset val)

/-! ## Stop and resume (R300) -/

/-- A virtual device stops: its queues accept no more, and every team is saved. -/
def State.stopVd (s : State) (vd : Nat) : State :=
  let v := s.vdev vd
  if !v.live || !v.run then s
  else
    let ts := s.teams.keysWhere (fun _ t => t.vd == vd)
    (ts.foldl State.forceSave (s.setVdev vd { v with run := false, stopped := false })).fire

/-- RUN_STOP of virtual device `on.a`. -/
def execRunStop (s : State) : Out := .next (s.stopVd s.on.a)

/-- STOP_COMPLETE of virtual device `on.a`: no team is left, running copies have ended, and its cores write back their dirty
bytes. -/
def execStopComplete (s : State) : Out :=
  let vd := s.on.a
  let v := s.vdev vd
  let cores := v.clusters.flatMap (fun c => (List.range 8).map (fun i => c * 8 + i))
  if !v.live || v.run || v.stopped || s.teams.any (fun p => p.2.vd == vd) ||
      s.copies.any (fun p => p.2.vd == vd && p.2.phase == .running) || cores.any s.dirtyClaimed then .next s
  else
    let s1 := cores.foldl State.cleanAll s
    .next ((s1.setVdev vd { s1.vdev vd with stopped := true }).post vd { type_ := 7 }).fire

/-- RUN_RESUME of virtual device `on.a`. -/
def execRunResume (s : State) : Out :=
  let vd := s.on.a
  let v := s.vdev vd
  if !v.live || v.run then .next s else .next (s.setVdev vd { v with run := true, stopped := false }).fire

end Sys2Proof.Machine
end

