-- ==== Sys2Proof/Machine/FabricImport.lean ====
section
/-! DEFINITION. What arrives over the fabric: the import table and the requests performed under it, spawn records held at full
bins, gatherings, containment, and the ports in service (11_fabric R184, R189 to R201, 13_execution R241, 16_experts R380,
R383). -/

namespace Sys2Proof.Machine

/-! ## The import table (R189) -/

/-- An import entry without reserved values. -/
def importOk (ws : List W64) : Bool :=
  (entryWord ws 0).field 48 7 == 0 && (entryWord ws 1).field 56 8 == 0 && (entryWord ws 2).field 48 16 == 0 &&
    (entryWord ws 3).field 56 8 == 0 && (entryWord ws 3).field 0 4 == 0

/-- The entry of a GRID and KEY: the lowest-numbered one that has both. -/
def State.importEntry (s : State) (vd grid key : Nat) : Except Cause (List W64) :=
  let v := s.vdev vd
  let at_ (i : Nat) : Nat := v.fabItab.field 16 40 * 2 ^ 16 + 32 * i
  if !v.fabricOn then .error .windowKey
  else
    match (List.range (v.fabItab.field 0 12 + 1)).find? (fun i => s.poisoned (at_ i) 32 ||
        (let w := s.readPte (at_ i)
         w.bit 63 && w.field 32 16 == grid && w.field 0 32 == key)) with
    | none => .error .windowKey
    | some i =>
      if s.poisoned (at_ i) 32 then .error .uncorrectable
      else if importOk (s.entryWords (at_ i)) then .ok (s.entryWords (at_ i))
      else .error .windowKey

/-- What a request asks of its import entry: KIND, permission bits, length in bytes. -/
structure ImportUse where
  kind : Nat
  perms : List Nat
  n : Nat

/-- Steps 1 to 3 of the checks at the target. -/
def State.importCheck (s : State) (vd : Nat) (r : FabReq) (u : ImportUse) : Except Cause (List W64) :=
  match s.importEntry vd r.grid.toNat r.key.toNat with
  | .error c => .error c
  | .ok ws =>
    if entryKind ws ≠ u.kind || u.perms.any (fun b => !(entryWord ws 0).bit b) then .error .windowPerm
    else if (entryWord ws 2).field 0 48 < r.offset.toNat + u.n then .error .windowBounds
    else .ok ws

/-- IVA + OFFSET. -/
def importAddr (ws : List W64) (r : FabReq) : Nat := (entryWord ws 1).field 0 56 + r.offset.toNat

/-- Step 4: the access itself, as pieces, none of it in host memory. A word's access is aligned to its size (04_memory R59); the pieces of
a CPYW keep no alignment (06_copy R360). -/
def State.importPlace (s : State) (vd a n : Nat) (k : AccKind) (bulk : Bool) : Except Cause (List (Nat × Nat)) :=
  let ps := if bulk then rangeOf (fun x => s.ioPlace vd x 1 k) a n
    else match s.ioPlace vd a n k with
      | .error f => .error f
      | .ok key => .ok [(key, n)]
  match ps with
  | .error f => .error f.cause
  | .ok l => if l.any (fun p => isHostKey p.1) then .error .pageProtection else .ok l

/-- The marks that an access of the I/O die leaves over a range. -/
def State.ioMarks (s : State) (vd a n : Nat) (write : Bool) : State :=
  (pagesOf a n).foldl (fun s p => s.ioMark vd p write) s

/-! ## Arrivals -/

/-- An arriving access that may be blocked: it joins those that wait (06_copy R89), or is performed and leaves them. -/
def State.acceptArrival (s : State) (i : Instr) (me : On) (blocked : Bool) (f : State → State) : Out :=
  if blocked then (if s.on.c = 0 then .next { s with arrivals := s.arrivals ++ [(i, me)] }.fire else .next s)
  else .next (f { s with arrivals := s.arrivals.erase (i, s.on) }).fire

/-- An acknowledgement, or an error reply. -/
def State.answer (s : State) (r : FabReq) (c : Cause) : State :=
  if c = .none then s.sendReply r.port.val r.tag 0x11 []
  else s.sendReply r.port.val r.tag 0x12 [c.code]

/-- What performing a request comes to: an error reply, or whether a claim is in the way and what the access does. -/
abbrev Performed := Except Cause (Bool × (State → State))

/-- A request arrives and is performed, or waits for a claim; requests of one source device stay in order (R190). In protected mode a
flit whose tag fails, and fails again in its replay, locks the port (R201). -/
def State.fabricIn (s : State) (i : Instr) (vd : Nat) (r : FabReq) (act : Performed) : Out :=
  let p := s.port r.port.val
  let me : On := { a := vd, b := r.src.toNat + 1, c := 1 }
  let behind := (s.arrivals.takeWhile (fun x => x != (i, me))).any (fun x => x.2 == me)
  if s.on.c = 0 ∧ (!(s.vdev vd).live || !p.up || p.locked || s.contained.contains (r.grid.toNat, r.src.toNat)) then .next s
  else if s.on.c = 0 ∧ p.session ∧ r.tagFails then .next (s.lockPort r.port.val).fire
  else if s.on.c = 0 ∧ s.tagRetired vd r.gentag.toNat then .next (s.discardAt r.port.val).fire
  else
    let s0 := if s.on.c = 0 then s.gotPacket r.port.val (flitsFor (24 + r.data.length)) else s
    match act with
    | .error c => s0.acceptArrival i me false (fun s => s.answer r c)
    | .ok (blocked, f) => s0.acceptArrival i me (blocked || behind) f

/-- The pieces of a read or write after steps 1 to 5. -/
def State.importAccess (s : State) (vd : Nat) (r : FabReq) (u : ImportUse) (k : AccKind) :
    Except Cause (Nat × List (Nat × Nat)) :=
  match s.importCheck vd r u with
  | .error c => .error c
  | .ok ws =>
    match s.importPlace vd (importAddr ws r) u.n k r.bulk with
    | .error c => .error c
    | .ok ps =>
      let bad := match k with
        | .store => (s.badWrite ps).isSome
        | .load => (s.badPiece ps).isSome
        | .fetch => (s.badPiece ps).isSome
        | .atomic => (s.badPiece ps).isSome
      if bad then .error .uncorrectable else .ok (importAddr ws r, ps)

/-- Some piece lies under a claim. -/
def State.piecesClaimed (s : State) (ps : List (Nat × Nat)) : Bool := ps.any (fun p => s.claimed p.1 p.2)

/-- Replay capture notes a fabric write at each slice that it reaches, as its sender and tag (17_command R296). -/
def State.captureWrite (s : State) (vd : Nat) (src tag : Nat) (ps : List (Nat × Nat)) : State :=
  (((ps.filter (fun p => isSliceKey p.1)).map (fun p => (p.1 - sliceBase) / sliceStride)).eraseDups).foldl
    (fun s c => s.captureInput vd .fabricWrite [BitVec.ofNat 64 c, BitVec.ofNat 64 src, BitVec.ofNat 64 tag]) s

/-- An atomic that arrives is noted with its address, its sender and its tag. -/
def State.captureRemote (s : State) (vd a : Nat) (r : FabReq) : State :=
  s.captureInput vd .atomic [BitVec.ofNat 64 a, BitVec.ofNat 64 r.src.toNat, BitVec.ofNat 64 r.tag.toNat]

/-- A read. -/
def State.importRead (s : State) (vd : Nat) (r : FabReq) : Performed :=
  match s.importAccess vd r { kind := 0, perms := [59], n := r.size.toNat } .load with
  | .error c => .error c
  | .ok (a, ps) =>
    .ok (s.piecesClaimed ps, fun s =>
      (s.ioMarks vd a r.size.toNat false).sendReply r.port.val r.tag 0x10 (s.readPieces ps))

/-- A write that needs the permissions named. -/
def State.importWrite (s : State) (vd : Nat) (r : FabReq) (perms : List Nat) : Performed :=
  match s.importAccess vd r { kind := 0, perms := perms, n := r.data.length } .store with
  | .error c => .error c
  | .ok (a, ps) =>
    .ok (s.piecesClaimed ps, fun s =>
      (((s.ioMarks vd a r.data.length true).captureWrite vd r.src.toNat r.tag.toNat ps).writePieces ps r.data).answer r .none)

/-- FABRIC_READ (R190). -/
def execFabricRead (vd : Nat) (r : FabReq) (s : State) : Out := s.fabricIn (.fabricRead vd r) vd r (s.importRead vd r)
/-- FABRIC_WRITE (R190). -/
def execFabricWrite (vd : Nat) (r : FabReq) (s : State) : Out :=
  s.fabricIn (.fabricWrite vd r) vd r (s.importWrite vd r [58])
/-- FABRIC_MULTICAST_WRITE (R193). -/
def execFabricMulticastWrite (vd : Nat) (r : FabReq) (s : State) : Out :=
  s.fabricIn (.fabricMulticastWrite vd r) vd r (s.importWrite vd r [58, 56])

/-! ## Atomics and signals (R191, R192) -/

/-- The operation that a code names (02_encoding R26). -/
def atomOfCode (c : Nat) : Option AtomOp :=
  [AtomOp.add, .smin, .smax, .umin, .umax, .and, .or, .xor, .xch, .cas, .fadd][c]?

/-- An atomic: the payload is the operand, for a compare-and-swap the expected value and then the new one. -/
def State.importAtomic (s : State) (vd : Nat) (r : FabReq) (op : AtomOp) : Performed :=
  let n := r.size.toNat
  let b := leValue (r.data.take n)
  let nv := leValue ((r.data.drop n).take n)
  match s.importAccess vd r { kind := 0, perms := [57], n := n } .atomic with
  | .error c => .error c
  | .ok (a, ps) =>
    .ok (s.piecesClaimed ps, fun s0 =>
      let s := (s0.ioMarks vd a n true).captureRemote vd a r
      let old := leValue (s.readPieces ps)
      (s.writePieces ps (leBytes n (atomNew op (8 * n) old b nv))).sendReply r.port.val r.tag 0x10 (leBytes n old))

/-- FABRIC_ATOMIC (R191): 4 or 8 bytes, FADD on 4 alone; a packet with another operation or size is discarded and counted. -/
def execFabricAtomic (vd : Nat) (r : FabReq) (s : State) : Out :=
  match atomOfCode r.op.toNat with
  | none => .next (s.discardAt r.port.val).fire
  | some op =>
    if r.size.toNat = 4 || (r.size.toNat == 8 && op != .fadd) then
      s.fabricIn (.fabricAtomic vd r) vd r (s.importAtomic vd r op)
    else .next (s.discardAt r.port.val).fire

/-- An addition to a signal's VALUE. -/
def State.importSignal (s : State) (vd : Nat) (r : FabReq) : Performed :=
  match s.importCheck vd r { kind := 3, perms := [57], n := 8 } with
  | .error c => .error c
  | .ok ws =>
    let a := BitVec.ofNat 64 (importAddr ws r)
    match s.ioSignal vd a .atomic with
    | .error f => .error f.cause
    | .ok key =>
      if s.poisoned key 8 then .error .uncorrectable
      else
        .ok (s.claimed key 8, fun s =>
          (((s.captureRemote vd a.toNat r).ioMark vd a.toNat true).writeKey key
            (leBytes 8 ((s.loadLe key 8 + leValue (r.data.take 8)) % 2 ^ 64))).answer r .none)

/-- FABRIC_SIGNAL_ADD (R192). -/
def execFabricSignalAdd (vd : Nat) (r : FabReq) (s : State) : Out :=
  s.fabricIn (.fabricSignalAdd vd r) vd r (s.importSignal vd r)

/-! ## Spawn records (13_execution R241) -/

/-- What a record meets at its bin: a cause for the error reply, NONE where it was taken; nothing while the bin is full. -/
def State.settleRecord (s : State) (vd k bin gentag : Nat) (bytes : List Byte) : Option (State × Cause) :=
  let l := s.launch k
  let b := l.bin bin
  if (s.launches.find k).isNone ∨ l.retired ∨ l.vd ≠ vd ∨ !l.declares bin then some (s, .windowKey)
  else if b.size ≠ bytes.length then some (s, .windowPerm)
  else if !b.open_ then some (s, .queueClosed)
  else if binRoom ≤ b.records.length then none
  else some (s.addRecord k bin gentag bytes, .none)

/-- A record's header as it stands in the bin: BIN, SIZE and REMOTE are those of its arrival (R238). -/
def arrivedRecord (bin : Nat) (bs : List Byte) : List Byte :=
  let h : W64 := BitVec.ofNat 64 (leValue (bs.take 8))
  leBytes 8 (h.field 21 43 * 2 ^ 21 + bin % 64 * 2 ^ 15 + recCode bs.length * 4 + 2) ++ bs.drop 8

/-- A spawn record: a full bin holds it, behind those that it holds already. -/
def State.importRecord (s : State) (vd : Nat) (r : FabReq) : Performed :=
  match s.importCheck vd r { kind := 2, perms := [58], n := r.data.length } with
  | .error c => .error c
  | .ok ws =>
    let k := (entryWord ws 1).field 0 32
    let bin := r.offset.toNat / 64
    let bytes := arrivedRecord bin r.data
    .ok (false, fun s0 =>
      let s := s0.captureWrite vd r.src.toNat r.tag.toNat [(granuleKey ((s0.launch k).bin bin).core 0, 1)]
      let v := s.vdev vd
      let hold := s.setVdev vd { v with
        heldRecords := v.heldRecords ++ [{ launch := k, bin := bin, bytes := bytes, gentag := r.gentag, tag := r.tag, port := r.port.val }] }
      match s.settleRecord vd k bin r.gentag.toNat bytes with
      | none => hold
      | some (s1, c) =>
        if c = .none && v.heldRecords.any (fun h => h.launch == k && h.bin == bin) then hold else s1.answer r c)

/-- FABRIC_SPAWN_RECORD. -/
def execFabricSpawnRecord (vd : Nat) (r : FabReq) (s : State) : Out :=
  s.fabricIn (.fabricSpawnRecord vd r) vd r (s.importRecord vd r)

/-- A held record is answered and leaves the list. -/
def State.answerHeld (s : State) (vd n : Nat) (h : HeldRecord) (c : Cause) : State :=
  let s1 := s.setVdev vd { s.vdev vd with heldRecords := (s.vdev vd).heldRecords.eraseIdx n }
  if c = .none then s1.sendReply h.port h.tag 0x11 [] else s1.sendReply h.port h.tag 0x12 [c.code]

/-- The first held record of a virtual device whose bin has room, or whose launch has ended, is settled. -/
def State.heldStepOf (s : State) (vd : Nat) : Option State :=
  let hs := (s.vdev vd).heldRecords
  (List.range hs.length).findSome? (fun n =>
    let h := hs.getD n {}
    match s.settleRecord vd h.launch h.bin h.gentag.toNat h.bytes with
    | none => none
    | some (s1, c) => some (s1.answerHeld vd n h c))

/-- Held records as an engine. -/
def State.heldStep (s : State) : State :=
  match s.vdevs.findSome? (fun v => s.heldStepOf v.1) with
  | none => s
  | some s1 => s1.fire

/-- HELD_SPAWN_RECORD_TIMEOUT of record `on.b` of virtual device `on.a`: the window's timeout, which its source counts, expires. -/
def execHeldSpawnRecordTimeout (s : State) : Out :=
  match (s.vdev s.on.a).heldRecords[s.on.b]? with
  | none => .next s
  | some h => .next (s.answerHeld s.on.a s.on.b h .remoteTimeout).fire

/-! ## Bulk writes (06_copy R360, 16_experts R383) -/

/-- A remote CMBPUT: the control word, then the row, for the combine buffer whose base IVA is. -/
def State.importPut (s : State) (vd : Nat) (r : FabReq) : Performed :=
  let row := r.data.drop 8
  let ctl : W64 := BitVec.ofNat 64 (leValue (r.data.take 8))
  match s.importCheck vd r { kind := 0, perms := [58], n := row.length } with
  | .error c => .error c
  | .ok ws =>
    match s.segAtBase vd (BitVec.ofNat 64 (importAddr ws r)) with
    | none => .error .attachMiss
    | some i =>
      let g := s.seg vd i
      if !(s.load64 g.base).bit 63 || g.cluster then .error .reservedField
      else
        let put := fun (s : State) => s.cmbResult (s.cmbAt vd g) (ctl.field 0 24) (ctl.field 48 16) r.gentag.toNat row
        .ok (s.claimed g.base (bufferBytes (s.load64 g.base)) || (put s).releaseHeld (s.cmbAt vd g), fun s =>
          (put (s.captureWrite vd r.src.toNat r.tag.toNat [(g.base, 1)])).answer r .none)

/-- FABRIC_BULK_WRITE: operation 0xC is a remote CMBPUT, any other a row of a CPYW. -/
def execFabricBulkWrite (vd : Nat) (r : FabReq) (s : State) : Out :=
  s.fabricIn (.fabricBulkWrite vd r) vd r (if r.op = 0xC then s.importPut vd r else s.importWrite vd { r with bulk := true } [58])

/-! ## GENTAG.rem at its target (16_experts R380) -/

/-- A management packet retires (operation 1) or un-retires (2) a tag. One from a contained source does not arrive (11_fabric R197); one that
would make a slot's release wait for a claim comes up again later. -/
def State.manage (s0 : State) (vd : Nat) (r : FabReq) : State :=
  let p := s0.port r.port.val
  if !(s0.vdev vd).live || !p.up || p.locked || s0.contained.contains (r.grid.toNat, r.src.toNat) then s0
  else if p.session && r.tagFails then (s0.lockPort r.port.val).fire
  else
    let s := s0.gotPacket r.port.val (flitsFor (24 + r.data.length))
    let tag := leValue (r.data.take 2)
    match s.importCheck vd r { kind := 0, perms := [58], n := 0 } with
    | .error c => (s.answer r c).fire
    | .ok _ =>
      if tag = 0 then (s.answer r .reservedField).fire
      else if r.op = 1 && s.retireWaits vd tag then { s0 with agenda := s0.agenda ++ [.manage vd r] }
      else if r.op = 1 then ((s.retireTag vd tag).answer r .none).fire
      else if r.op = 2 then ((s.clearTag vd tag).answer r .none).fire
      else (s.discardAt r.port.val).fire

/-! ## Gatherings (R194, R195) -/

/-- Bytes of a contribution. -/
def gatherBytes (size : Nat) : Nat := 8 * 2 ^ size

/-- The virtual device that a gathering's destination is. -/
def State.gatherVd (s : State) (k : GathKey) : Option Nat :=
  (s.vdevs.keysWhere (fun _ v => v.live && v.fabricOn && v.gridId == k.grid.toNat && patOk v.axes k.dest &&
    patExact v.axes k.dest && v.ownIndex == patIndex v.axes k.dest)).head?

/-- The gathering open at a place. -/
def State.gathering (s : State) (k : GathKey) : Option Gathering := s.gatherings.find? (fun g => g.at_ == k)

/-- Writes a gathering. -/
def State.putGathering (s : State) (g : Gathering) : State :=
  { s with gatherings := s.gatherings.map (fun x => if x.at_ = g.at_ then g else x) }

/-- Contributions still missing. -/
def Gathering.missing (g : Gathering) : Nat := g.expected - g.got.length

/-- A gathering that expects a contribution from a contained coordinate closes (R197). -/
def Gathering.contain (g : Gathering) (axes : List Nat) (contained : List (Nat × Nat)) : Gathering :=
  if g.fail.isNone && contained.any (fun c => c.1 == g.at_.grid.toNat && patWithin axes g.pattern c.2 && (g.got.find c.2).isNone &&
      decide (c.2 < gridTotal axes)) then
    { g with fail := some (Cause.code .remoteContained, g.missing) }
  else g

/-- A contribution that a gathering may count: a pattern of the grid that its source is within, an operation, and its bytes. -/
def contributionOk (axes : List Nat) (m : GathMsg) : Bool :=
  patOk axes m.pattern && patWithin axes m.pattern m.src && decide (m.src < gridTotal axes) && m.op != 7 &&
    m.data.length == gatherBytes m.size.val

/-- A contribution at the col node: it opens a gathering, is counted, or is held. Refused ones change nothing. -/
def State.contribute (s : State) (m : GathMsg) : State :=
  match s.gatherVd m.at_ with
  | none => s
  | some vd =>
    let axes := (s.vdev vd).axes
    let grid := m.at_.grid.toNat
    if !contributionOk axes m || s.contained.contains (grid, m.src) || s.contained.contains (grid, patIndex axes m.at_.dest) then s
    else
      match s.gathering m.at_ with
      | none =>
        let g : Gathering :=
          { at_ := m.at_, vd := vd, op := m.op.val, size := m.size.val, pattern := m.pattern
            expected := patCount axes m.pattern, got := [(m.src, m.data)] }
        { s with gatherings := s.gatherings ++ [g.contain axes s.contained] }.fire
      | some g =>
        if g.fail.isNone && (g.op != m.op.val || g.size != m.size.val || g.pattern != m.pattern) then s
        else if g.fail.isSome || (g.got.find m.src).isSome || g.missing == 0 then
          (s.putGathering { g with held := g.held ++ [m] }).fire
        else (s.putGathering { g with got := g.got.set m.src m.data }).fire

/-- GATHERING_CONTRIBUTION. -/
def execGatheringContribution (m : GathMsg) (s : State) : Out := .next (s.contribute m)

/-- A gathering closes; what it held opens the next one. -/
def State.closeGathering (s : State) (g : Gathering) : State :=
  g.held.foldl State.contribute { s with gatherings := s.gatherings.filter (fun x => x.at_ != g.at_) }

/-- One step of a reduction, on an element of an operation. -/
def gatherOp (op : Nat) (a b : Nat) : Nat :=
  if op = 0 then atomNew .fadd 32 a b 0
  else if op = 1 then atomNew .add 32 a b 0
  else if op = 2 then atomNew .add 64 a b 0
  else if op = 3 then atomNew .smin 32 a b 0
  else if op = 4 then atomNew .smax 32 a b 0
  else if op = 5 then atomNew .smin 64 a b 0
  else atomNew .smax 64 a b 0

/-- Bytes of an element of an operation. -/
def gatherWidth (op : Nat) : Nat := if op = 2 ∨ op = 5 ∨ op = 6 then 8 else 4

/-- The elements of some bytes. -/
def elementsOf (w : Nat) (bs : List Byte) : List Nat := (List.range (bs.length / w)).map (fun i => leValue ((bs.drop (w * i)).take w))

/-- The result of a complete gathering, over contributions in ascending coordinate (03_numbers R50). -/
def Gathering.result (g : Gathering) : List Byte :=
  let w := gatherWidth g.op
  match g.got.map (fun p => elementsOf w p.2) with
  | [] => []
  | x :: r => (r.foldl (fun a b => a.zipWith (gatherOp g.op) b) x).flatMap (leBytes w)

/-- Address of the region's reduction signal, 0 for none. -/
def importSignalAt (ws : List W64) : W64 := BitVec.ofNat 64 ((entryWord ws 3).field 4 52 * 16)

/-- The request as which a gathering's result is checked at its destination. -/
def Gathering.asRequest (g : Gathering) : FabReq :=
  { port := 0, tag := 0, gentag := 0, grid := g.at_.grid, offset := g.at_.offset, key := g.at_.key, src := 0, op := 0,
    size := BitVec.ofNat 8 (gatherBytes g.size), strength := 0, data := [], tagFails := false }

/-- A gathering that has failed records its error in the signal, where there is one, and closes; none while a claim is in the
way. -/
def State.gatherFail (s : State) (g : Gathering) : Option State :=
  match g.fail, s.importEntry g.vd g.at_.grid.toNat g.at_.key.toNat with
  | none, _ => none
  | some _, .error _ => some (s.closeGathering g)
  | some e, .ok ws =>
    if importSignalAt ws = 0 then some (s.closeGathering g)
    else
      match s.ioSignal g.vd (importSignalAt ws) .atomic with
      | .error _ => some (s.closeGathering g)
      | .ok key =>
        if s.poisoned (key + 8) 8 then some (s.closeGathering g)
        else if s.claimed key 16 then none
        else some (((s.ioMark g.vd (importSignalAt ws).toNat true).signalError key e.1 e.2).closeGathering g)

/-- A gathering fails now, or as soon as its signal can be written. -/
def State.failGathering (s : State) (g : Gathering) (c : BitVec 8) (missing : Nat) : State :=
  let g1 := { g with fail := some (c, missing) }
  match (s.putGathering g1).gatherFail g1 with
  | none => s.putGathering g1
  | some s1 => s1

/-- Failed gatherings whose signals waited on a claim, as an engine. -/
def State.gatherStep (s : State) : State :=
  match s.gatherings.findSome? s.gatherFail with
  | none => s
  | some s1 => s1.fire

/-- The signal of a region rises by the derived count; a signal that cannot be reached stays. -/
def State.raiseSignal (s : State) (vd : Nat) (a : W64) (n : Nat) : State :=
  match s.changeSignal vd a (.add (BitVec.ofNat 64 n)) with
  | .done s1 => s1
  | .fault _ => s
  | .wait => s

/-- The signal of a region lies under a claim. -/
def State.signalClaimed (s : State) (vd : Nat) (a : W64) : Bool :=
  match s.ioSignal vd a .atomic with
  | .error _ => false
  | .ok key => s.claimed key 16

/-- FABRIC_REDUCTION: every contribution of the gathering is present. -/
def execFabricReduction (vd : Nat) (at_ : GathKey) (s : State) : Out :=
  match s.gathering at_ with
  | none => .next s
  | some g =>
    if g.vd ≠ vd || g.fail.isSome || g.missing != 0 then .next s
    else
      match s.importEntry vd at_.grid.toNat at_.key.toNat with
      | .error _ => .next (s.closeGathering g).fire
      | .ok ws =>
        let sig := importSignalAt ws
        if !(entryWord ws 0).bit 55 || sig == 0 then .next (s.closeGathering g).fire
        else
          match s.importAccess vd g.asRequest { kind := 0, perms := [55], n := gatherBytes g.size } .store with
          | .error c => .next (s.failGathering g c.code 0).fire
          | .ok (a, ps) =>
            if s.piecesClaimed ps || s.signalClaimed vd sig then .next s
            else
              let s1 := ((s.ioMarks vd a (gatherBytes g.size) true).captureWrite vd (patIndex (s.vdev vd).axes at_.dest) 0 ps).writePieces ps g.result
              .next ((s1.raiseSignal vd sig g.expected).closeGathering g).fire

/-- REDUCTION_TIMER_EXPIRY (R195). -/
def execReductionTimerExpiry (vd : Nat) (at_ : GathKey) (s : State) : Out :=
  match s.gathering at_ with
  | none => .next s
  | some g =>
    if g.vd ≠ vd || g.fail.isSome || g.missing == 0 then .next s
    else .next (s.failGathering g (Cause.code .remoteTimeout) g.missing).fire

/-! ## Containment (R197) -/

/-- Requests outstanding to a contained coordinate complete with an error reply. -/
def State.failOutstanding (s : State) (grid member : Nat) : State :=
  ((s.slots.keysWhere (fun _ x => x.busy && x.grid.toNat == grid && x.targets.contains member)).filter
      (fun i => !s.replyHeld i)).foldl
    (fun s i => s.replyFor i member (.error (Cause.code .remoteContained))) s

/-- CONTAINMENT: the fabric manager declares a member dead. -/
def execContainment (grid : BitVec 16) (member : Nat) (s : State) : Out :=
  let c := (grid.toNat, member)
  if s.contained.contains c then .next s
  else
    let s1 := { s with contained := c :: s.contained }.failOutstanding grid.toNat member
    let hit := s1.gatherings.filter (fun g => g.fail.isNone && (g.contain (s1.vdev g.vd).axes [c]).fail.isSome)
    .next (hit.foldl (fun s g => s.failGathering g (Cause.code .remoteContained) g.missing) s1).fire

/-- CONTAINMENT_CLEARED. -/
def execContainmentCleared (grid : BitVec 16) (member : Nat) (s : State) : Out :=
  let c := (grid.toNat, member)
  if s.contained.contains c then .next { s with contained := s.contained.filter (· != c) }.fire else .next s

/-! ## Ports (R184, R199 to R201) -/

/-- A port is to enter or leave service once no request is outstanding. -/
def State.drainPort (s : State) (p : Nat) (up : Bool) : State := s.setPort p { s.port p with draining := some up }

/-- With no request outstanding, the ports that wait change, and requests are mapped afresh. In protected mode a port enters service with a
new session with its col node: the device is the requester (17_command R301), and its keys count flits from 0. -/
def State.portStep (s : State) : State :=
  if s.slots.any (fun x => x.2.busy) || s.ports.all (fun p => p.2.draining.isNone) then s
  else
    { s with ports := s.ports.mapKV (fun _ p =>
        match p.draining with
        | none => p
        | some up => { p with up := up, draining := none, session := up && s.platform.protected_,
                              sentFlits := if up then 0 else p.sentFlits, gotFlits := if up then 0 else p.gotFlits }) }.fire

/-- PORT_SERVICE_CHANGE (R184): a locked port does not return to service. -/
def execPortServiceChange (port : Fin 16) (up : Bool) (s : State) : Out :=
  let p := s.port port.val
  if p.draining.getD p.up == up || (up && p.locked) then .next s else .next (s.drainPort port.val up).fire

/-- PORT_FOLD (R200): the buffer still holds the reserves of `banks` channels of the six. -/
def execPortFold (port : Fin 16) (banks : Nat) (s : State) : Out :=
  let p := s.port port.val
  if 6 - banks ≤ p.folds then .next s
  else if banks < 3 then .next ((s.setPort port.val { p with folds := 3 }).drainPort port.val false).fire
  else .next (s.setPort port.val { p with folds := 6 - banks }).fire

/-- FABRIC_LANE_SWAP (R200): a lane is lost; the spare takes its place, or the width narrows. -/
def execFabricLaneSwap (port : Fin 16) (s : State) : Out :=
  let p := s.port port.val
  if !p.spareUsed then .next (s.setPort port.val { p with spareUsed := true }).fire
  else if p.lanes = 0 then .next s
  else if p.lanes ≤ 2 then .next ((s.setPort port.val { p with lanes := p.lanes - 1 }).drainPort port.val false).fire
  else .next (s.setPort port.val { p with lanes := p.lanes - 1 }).fire

/-- LINK_PAUSE (R199). -/
def execLinkPause (port : Fin 16) (vc : Fin 6) (s : State) : Out :=
  let p := s.port port.val
  if p.paused.contains vc.val then .next s else .next (s.setPort port.val { p with paused := vc.val :: p.paused }).fire

/-- LINK_RESUME (R199). -/
def execLinkResume (port : Fin 16) (vc : Fin 6) (s : State) : Out :=
  let p := s.port port.val
  if p.paused.contains vc.val then
    .next ((s.setPort port.val { p with paused := p.paused.filter (· != vc.val) }).releaseOutbox port.val).fire
  else .next s

/-- Flits of a request or reply that wait in the buffers of a port: port, channel, flits. -/
def waitingFlits (i : Instr) (on_ : On) : Option (Nat × Nat × Nat) :=
  let of := fun (r : FabReq) (vc : Nat) => some (r.port.val, vc, flitsFor (24 + r.data.length))
  match i with
  | .fabricRead _ r => of r (if r.bulk then 4 else 0)
  | .fabricWrite _ r => of r 0
  | .fabricMulticastWrite _ r => of r 0
  | .fabricAtomic _ r => of r 2
  | .fabricSignalAdd _ r => of r 3
  | .fabricSpawnRecord _ r => of r 0
  | .fabricBulkWrite _ r => of r 4
  | .readData _ bs => some (on_.b, 1, flitsFor bs.length)
  | _ => none

/-- Flits that the buffer of a port for a channel has free; its size is a free value (log entry 97). -/
def State.flitsFree (s : State) (p vc : Nat) : Nat :=
  Config.vcBuffer p vc - (s.arrivals.filterMap (fun a => waitingFlits a.1 a.2)).foldl
    (fun n x => if x.1 = p ∧ x.2.1 = vc then n + x.2.2 else n) 0

/-- A port asks its col node to pause a channel, or to resume it: a link-control flit, of no VC (R198). -/
def State.askLink (s : State) (p vc : Nat) (pause : Bool) : State :=
  let x := s.port p
  ((s.setPort p { x with asked := if pause then vc :: x.asked else x.asked.filter (· != vc) }).emit
    { vc := 0, kind := 0x1F, port := p, data := [BitVec.ofNat 8 (2 * vc + bitNat pause)] }).fire

/-- The pauses and resumes that the ports owe: a pause where the free space of a channel has fallen to 4 flits, a resume where it has risen
to 12 (R199). -/
def State.linkStep (s : State) : State :=
  match (s.ports.keys.flatMap (fun p => (List.range 6).map (fun vc => (p, vc)))).findSome? (fun x =>
      let asked := (s.port x.1).asked.contains x.2
      if !(s.port x.1).up then none
      else if !asked && decide (s.flitsFree x.1 x.2 ≤ 4) then some (s.askLink x.1 x.2 true)
      else if asked && decide (12 ≤ s.flitsFree x.1 x.2) then some (s.askLink x.1 x.2 false)
      else none) with
  | none => s
  | some s1 => s1

/-- REATTESTATION of a locked port (R201): it returns to service. -/
def execReattestation (port : Fin 16) (s : State) : Out :=
  let p := s.port port.val
  if p.locked then .next ((s.setPort port.val { p with locked := false, failed := false }).drainPort port.val true).fire else .next s

/-- The host turns protected mode on or off: the ports in service set up their sessions, or end them (18_platform R307). -/
def State.protect (s : State) (on_ : Bool) : State :=
  { s with
    platform := { s.platform with protected_ := on_ }
    ports := s.ports.mapKV (fun _ p => { p with session := on_ && p.up && !p.locked, sentFlits := 0, gotFlits := 0 }) }.fire

end Sys2Proof.Machine
end

