-- ==== Sys2Proof/Machine/LaneInt.lean ====
section
/-! DEFINITION. Lane integer words and comparisons (08_compute R124 to R129, R356). -/

namespace Sys2Proof.Machine

/-- IADD (R124). -/
def execIadd (f : LaneBin) (s : State) : Out := s.laneBin (.iadd f) f (fun a b => a + b)
/-- ISUB (R124). -/
def execIsub (f : LaneBin) (s : State) : Out := s.laneBin (.isub f) f (fun a b => a - b)
/-- IMUL (R124). -/
def execImul (f : LaneBin) (s : State) : Out := s.laneBin (.imul f) f (fun a b => a * b)
/-- IMULHS (R124). -/
def execImulhs (f : LaneBin) (s : State) : Out :=
  s.laneBin (.imulhs f) f (fun a b => w32OfInt (a.toInt * b.toInt / 2 ^ 32))
/-- IMULHU (R124). -/
def execImulhu (f : LaneBin) (s : State) : Out :=
  s.laneBin (.imulhu f) f (fun a b => BitVec.ofNat 32 (a.toNat * b.toNat / 2 ^ 32))
/-- IMIN (R124). -/
def execImin (f : LaneBin) (s : State) : Out := s.laneBin (.imin f) f (fun a b => if a.toInt ≤ b.toInt then a else b)
/-- IMAX (R124). -/
def execImax (f : LaneBin) (s : State) : Out := s.laneBin (.imax f) f (fun a b => if b.toInt ≤ a.toInt then a else b)
/-- UMIN (R124). -/
def execUmin (f : LaneBin) (s : State) : Out := s.laneBin (.umin f) f (fun a b => if a.toNat ≤ b.toNat then a else b)
/-- UMAX (R124). -/
def execUmax (f : LaneBin) (s : State) : Out := s.laneBin (.umax f) f (fun a b => if b.toNat ≤ a.toNat then a else b)
/-- IABS (R124). -/
def execIabs (f : LaneUn) (s : State) : Out := s.laneUn (.iabs f) f (fun a => w32OfInt a.toInt.natAbs)
/-- AND (R124). -/
def execAndv (f : LaneBin) (s : State) : Out := s.laneBin (.andv f) f (fun a b => a &&& b)
/-- OR (R124). -/
def execOrv (f : LaneBin) (s : State) : Out := s.laneBin (.orv f) f (fun a b => a ||| b)
/-- XOR (R124). -/
def execXorv (f : LaneBin) (s : State) : Out := s.laneBin (.xorv f) f (fun a b => a ^^^ b)
/-- ANDN (R124). -/
def execAndn (f : LaneBin) (s : State) : Out := s.laneBin (.andn f) f (fun a b => a &&& ~~~b)

/-- Left shift by a whole amount: 0 from the width up (R125, R140). -/
def shiftLeft {w : Nat} (a : BitVec w) (n : Nat) : BitVec w := if w ≤ n then 0 else a <<< n
/-- Logical right shift by a whole amount (R125, R140). -/
def shiftRight {w : Nat} (a : BitVec w) (n : Nat) : BitVec w := if w ≤ n then 0 else a >>> n
/-- Arithmetic right shift by a whole amount (R125, R140). -/
def shiftArith {w : Nat} (a : BitVec w) (n : Nat) : BitVec w :=
  if w ≤ n then (if a.toInt < 0 then BitVec.allOnes w else 0) else a.sshiftRight n

/-- SHL (R125). -/
def execShl (f : LaneBin) (s : State) : Out := s.laneBin (.shl f) f (fun a b => shiftLeft a b.toNat)
/-- SHR (R125). -/
def execShr (f : LaneBin) (s : State) : Out := s.laneBin (.shr f) f (fun a b => shiftRight a b.toNat)
/-- SAR (R125). -/
def execSar (f : LaneBin) (s : State) : Out := s.laneBin (.sar f) f (fun a b => shiftArith a b.toNat)

/-- The number of 1 bits among the low `n` (R124, R139). -/
def popCount (n w : Nat) : Nat := (List.range n).countP (natBit w)
/-- The number of leading 0 bits within `n` (R124, R139). -/
def leadingZeros (n w : Nat) : Nat := if w = 0 then n else n - 1 - Nat.log2 w
/-- The bits reversed (R124). -/
def bitReverse (w : W32) : W32 :=
  BitVec.ofNat 32 ((List.range 32).foldl (fun v i => 2 * v + bitNat (natBit w.toNat i)) 0)

/-- POPC (R124). -/
def execPopc (f : LaneUn) (s : State) : Out := s.laneUn (.popc f) f (fun a => BitVec.ofNat 32 (popCount 32 a.toNat))
/-- CLZ (R124). -/
def execClz (f : LaneUn) (s : State) : Out := s.laneUn (.clz f) f (fun a => BitVec.ofNat 32 (leadingZeros 32 a.toNat))
/-- BREV (R124). -/
def execBrev (f : LaneUn) (s : State) : Out := s.laneUn (.brev f) f bitReverse

/-- The field of `a` of `n` bits from bit `p` up, sign-extended on request (R126, R342). -/
def bitField (a p n : Nat) (sx : Bool) : Int :=
  let v := natField a p n
  if sx && decide (0 < n) && natBit v (n - 1) then (v : Int) - 2 ^ n else v

/-- BFX on a field descriptor (R126). -/
def bfx (a b : W32) : W32 :=
  let p := natField b.toNat 0 5
  let n := min (min (natField b.toNat 8 6) 32) (32 - p)
  w32OfInt (bitField a.toNat p n (natBit b.toNat 15))

/-- BFI on a field descriptor (R126). -/
def bfi (a b d : W32) : W32 :=
  let p := natField b.toNat 0 5
  let n := min (min (natField b.toNat 8 6) 32) (32 - p)
  let mask : W32 := BitVec.ofNat 32 ((2 ^ n - 1) * 2 ^ p)
  (d &&& ~~~mask) ||| ((a <<< p) &&& mask)

/-- BFX (R126). -/
def execBfx (f : LaneBin) (s : State) : Out := s.laneBin (.bfx f) f bfx
/-- BFI (R126): reads vd as the insert target. -/
def execBfi (f : LaneBin) (s : State) : Out := s.laneTri (.bfi f) f bfi
/-- IMAD (R356). -/
def execImad (f : LaneBin) (s : State) : Out := s.laneTri (.unlisted (.imad f)) f (fun a b d => a * b + d)

/-- A relation of two integers (R127). -/
def intCompare (c : IntCond) (a b : Int) : Bool :=
  match c with
  | .eq => a == b
  | .ne => a != b
  | .lt => decide (a < b)
  | .le => decide (a ≤ b)
  | .gt => decide (b < a)
  | .ge => decide (b ≤ a)

/-- An integer comparison word. -/
def icmpWord (f : LaneICmp) : LaneWord :=
  { blocks := blockOf f.a 1 ++ blockOf f.b 1, guard := laneGuard f.pg f.ng,
    srcs := [{ o := f.a, trap := f.ea }, { o := f.b, trap := f.eb }] }

/-- ICMP (R127). -/
def execIcmp (f : LaneICmp) (s : State) : Out :=
  .next (s.laneWord (.icmp f) (icmpWord f) (fun s1 ts k =>
    s1.writePred f.pd ts (fun t => intCompare f.cc (s1.lv k 0 t).toInt (s1.lv k 1 t).toInt)))
/-- UCMP (R127). -/
def execUcmp (f : LaneICmp) (s : State) : Out :=
  .next (s.laneWord (.ucmp f) (icmpWord f) (fun s1 ts k =>
    s1.writePred f.pd ts (fun t => intCompare f.cc (s1.lv k 0 t).toNat (s1.lv k 1 t).toNat)))

/-- SEL (R128): unguarded. -/
def execSel (f : LaneBin) (s : State) : Out :=
  .next (s.laneWord (.sel f) { binWord f with guard := fun _ => true } (fun s1 ts k =>
    s1.writeLane f.d ts (fun t =>
      if laneGuard f.pg f.ng (s1.grp.thread t) then s1.lv k 0 t else s1.lv k 1 t)))

/-- A word of the LI format with one source. -/
def immWord (f : LaneImm) : LaneWord :=
  { blocks := blockOf f.d 1 ++ blockOf f.a 1, guard := laneGuard f.pg false, srcs := [{ o := f.a }], dest := destOf f.d 1 }

/-- A word of the LI format that writes one value. -/
def State.laneImm (s : State) (i : Instr) (f : LaneImm) (op : W32 → W32) : Out :=
  .next (s.laneWord i (immWord f) (fun s1 ts k => s1.writeLane f.d ts (fun t => op (s1.lv k 0 t))))

/-- IADDI (R129). -/
def execIaddi (f : LaneImm) (s : State) : Out := s.laneImm (.iaddi f) f (fun a => a + f.imm.signExtend 32)
/-- ANDI (R129). -/
def execAndi (f : LaneImm) (s : State) : Out := s.laneImm (.andi f) f (fun a => a &&& f.imm.signExtend 32)
/-- SHLI (R125). -/
def execShli (f : LaneImm) (s : State) : Out := s.laneImm (.shli f) f (fun a => shiftLeft a f.imm.toNat)
/-- SHRI (R125). -/
def execShri (f : LaneImm) (s : State) : Out := s.laneImm (.shri f) f (fun a => shiftRight a f.imm.toNat)

/-- LEA (R129). -/
def execLea (f : LaneLea) (s : State) : Out :=
  .next (s.laneWord (.lea f)
    { blocks := blockOf f.d 1 ++ blockOf f.a 1 ++ blockOf f.b 1, guard := laneGuard f.pg false,
      srcs := [{ o := f.a }, { o := f.b }], dest := destOf f.d 1 }
    (fun s1 ts k => s1.writeLane f.d ts (fun t => s1.lv k 0 t + (s1.lv k 1 t <<< f.sh.val))))

/-- MOVI (R129). -/
def execMovi (f : LaneMovi) (s : State) : Out :=
  .next (s.laneWord (.movi f) { blocks := blockOf f.d 1, guard := laneGuard f.pg false, dest := destOf f.d 1 }
    (fun s1 ts _ => s1.writeLane f.d ts (fun _ => f.imm.signExtend 32)))

end Sys2Proof.Machine
end

