-- ==== Sys2Proof/Machine/GroupInt.lean ====
section
/-! DEFINITION. Group integer words (08_compute R139 to R143, R341, R342). -/

namespace Sys2Proof.Machine

/-- GADD (R139). -/
def execGadd (f : GrpBin) (s : State) : Out := s.grpBin (.gadd f) f (fun a b => a + b)
/-- GSUB (R139). -/
def execGsub (f : GrpBin) (s : State) : Out := s.grpBin (.gsub f) f (fun a b => a - b)
/-- GMUL (R139). -/
def execGmul (f : GrpBin) (s : State) : Out := s.grpBin (.gmul f) f (fun a b => a * b)
/-- GMAD (R139): reads gd as its addend. -/
def execGmad (f : GrpBin) (s : State) : Out :=
  .next (s.groupWord (.gmad f)
    { gbinWord s.grp f with srcs := [{ o := f.a, trap := f.ea }, { o := f.b, trap := f.eb }, { o := f.d }] }
    (fun s1 v => .done (s1.writeGroup f.d (fitW f.w (gv v 0 * gv v 1 + gv v 2)))))
/-- GMIN (R139). -/
def execGmin (f : GrpBin) (s : State) : Out :=
  s.grpBin (.gmin f) f (fun a b => if signedW f.w a ≤ signedW f.w b then a else b)
/-- GMAX (R139). -/
def execGmax (f : GrpBin) (s : State) : Out :=
  s.grpBin (.gmax f) f (fun a b => if signedW f.w b ≤ signedW f.w a then a else b)
/-- GAND (R139). -/
def execGand (f : GrpBin) (s : State) : Out := s.grpBin (.gand f) f (fun a b => a &&& b)
/-- GOR (R139). -/
def execGor (f : GrpBin) (s : State) : Out := s.grpBin (.gor f) f (fun a b => a ||| b)
/-- GXOR (R139). -/
def execGxor (f : GrpBin) (s : State) : Out := s.grpBin (.gxor f) f (fun a b => a ^^^ b)

/-- A shift on W bits. -/
def shiftW (w : Bool) (sh : {n : Nat} → BitVec n → Nat → BitVec n) (a b : W64) : W64 :=
  if w then sh a b.toNat else (sh (a.truncate 32 : W32) b.toNat).zeroExtend 64

/-- GSHL (R140). -/
def execGshl (f : GrpBin) (s : State) : Out := s.grpBin (.gshl f) f (shiftW f.w shiftLeft)
/-- GSHR (R140). -/
def execGshr (f : GrpBin) (s : State) : Out := s.grpBin (.gshr f) f (shiftW f.w shiftRight)
/-- GSAR (R140). -/
def execGsar (f : GrpBin) (s : State) : Out := s.grpBin (.gsar f) f (shiftW f.w shiftArith)

/-- A relation of two group values (R141). -/
def grpCompare (w : Bool) (c : GrpCond) (a b : W64) : Bool :=
  match c with
  | .eq => a == b
  | .ne => a != b
  | .lt => decide (signedW w a < signedW w b)
  | .le => decide (signedW w a ≤ signedW w b)
  | .gt => decide (signedW w b < signedW w a)
  | .ge => decide (signedW w b ≤ signedW w a)
  | .ltu => decide (a.toNat < b.toNat)
  | .leu => decide (a.toNat ≤ b.toNat)
  | .gtu => decide (b.toNat < a.toNat)
  | .geu => decide (b.toNat ≤ a.toNat)

/-- GCMP (R141). -/
def execGcmp (f : GrpCmp) (s : State) : Out :=
  .next (s.groupWord (.gcmp f)
    { guard := grpGuard s.grp f.cg f.ng, srcs := [{ o := f.a, trap := f.ea }, { o := f.b, trap := f.eb }], wide := f.w }
    (fun s1 v => .done (s1.setGrp (s1.grp.setCond f.cd (grpCompare f.w f.cc (gv v 0) (gv v 1))))))

/-- GSEL (R141): unguarded. -/
def execGsel (f : GrpBin) (s : State) : Out :=
  .next (s.groupWord (.gsel f) { gbinWord s.grp f with guard := true }
    (fun s1 v => .done (s1.writeGroup f.d (fitW f.w (if grpGuard s1.grp f.cg f.ng then gv v 0 else gv v 1)))))

/-- Bits of a group operation. -/
def widthW (w : Bool) : Nat := if w then 64 else 32

/-- GPOPC (R139). -/
def execGpopc (f : GrpUn) (s : State) : Out :=
  s.grpUn (.gpopc f) f (fun a => BitVec.ofNat 64 (popCount (widthW f.w) a.toNat))
/-- GCLZ (R139). -/
def execGclz (f : GrpUn) (s : State) : Out :=
  s.grpUn (.gclz f) f (fun a => BitVec.ofNat 64 (leadingZeros (widthW f.w) a.toNat))

/-- GADDI (R143): reads gd, as a source without a trap bit, and writes it. -/
def execGaddi (f : GrpImm) (s : State) : Out :=
  .next (s.groupWord (.gaddi f) { srcs := [{ o := f.d }], dest := destOf f.d 1 }
    (fun s1 v => .done (s1.writeGroup f.d (gv v 0 + f.imm.signExtend 64))))
/-- GMOVI (R143). -/
def execGmovi (f : GrpImm) (s : State) : Out :=
  .next (s.groupWord (.gmovi f) { dest := destOf f.d 1 } (fun s1 _ => .done (s1.writeGroup f.d (f.imm.signExtend 64))))
/-- GMOVH (R143). -/
def execGmovh (f : GrpImm) (s : State) : Out :=
  .next (s.groupWord (.gmovh f) { srcs := [{ o := f.d }], dest := destOf f.d 1 }
    (fun s1 v => .done (s1.writeGroup f.d ((gv v 0 <<< 18) ||| f.imm.zeroExtend 64))))

/-- GMULH (R139). -/
def execGmulh (f : GrpBin) (s : State) : Out :=
  s.grpBin (.gmulh f) f (fun a b => BitVec.ofNat 64 (a.toNat * b.toNat / 2 ^ widthW f.w))
/-- GDIVU (R142): all ones on division by zero. -/
def execGdivu (f : GrpBin) (s : State) : Out :=
  s.grpBin (.gdivu f) f (fun a b => if b = 0 then BitVec.allOnes 64 else BitVec.ofNat 64 (a.toNat / b.toNat))
/-- GREMU (R142): ga on division by zero. -/
def execGremu (f : GrpBin) (s : State) : Out :=
  s.grpBin (.gremu f) f (fun a b => if b = 0 then a else BitVec.ofNat 64 (a.toNat % b.toNat))

/-- The address of GLEA (R341): the index's low bits are signed, its top four bits are a shift. -/
def glea (w : Bool) (a b : W64) : W64 :=
  let n := widthW w - 4
  let idx := signedOf n (b.toNat % 2 ^ n)
  w64OfInt ((a.toNat : Int) + idx * 2 ^ natField b.toNat n 4)

/-- GLEA (R341). -/
def execGlea (f : GrpBin) (s : State) : Out := s.grpBin (.unlisted (.glea f)) f (glea f.w)

/-- The field of GBFX (R342). -/
def gbfx (w : Bool) (a b : W64) : W64 :=
  let p := b.field 0 6
  let n := min (min (b.field 8 7) 64) (widthW w - p)
  w64OfInt (bitField a.toNat p n (b.bit 15))

/-- GBFX (R342). -/
def execGbfx (f : GrpBin) (s : State) : Out := s.grpBin (.unlisted (.gbfx f)) f (gbfx f.w)

end Sys2Proof.Machine
end

