-- ==== Sys2Proof/Machine/Platform.lean ====
section
/-! DEFINITION. The module around the cores: caches and walks that act on their own, host accesses to device memory, soft
errors and repair, sensors, firmware, attestation, resets and virtual devices (04_memory R55, R56, R61, R66, R67, 05_slices R72,
15_faults R271, 17_command R294, R298, R301, 18_platform R305 to R312). -/

namespace Sys2Proof.Machine

/-! ## Caches and walks -/

/-- L1_EVICTION of line `on.b` of core `on.a` (R56): a dirty line under a claim waits. -/
def execL1Eviction (s : State) : Out :=
  match (s.core s.on.a).line s.on.b with
  | none => .next s
  | some l =>
    if l.dirty != 0 && s.claimed (l.line * 128) 128 then .next s else .next (s.flushLine s.on.a s.on.b).fire

/-- The set of a cluster's TLB, 256 of 16 ways, in which an entry stands: by the number of the page that its leaf maps (DESIGN CHOICE, log
entry 93). -/
def TlbEntry.set (t : TlbEntry) : Nat := t.page / leafPages t.size % 256

/-- A list of TLB entries with a new one in front, in place of those for the same page. -/
def TlbEntry.into (t : TlbEntry) (l : List TlbEntry) : List TlbEntry := t :: l.filter (fun x => !x.covers t.vd (t.page * 2 ^ 16))

/-- The first `n` entries of a set, and all those of others. -/
def setWays (l : List TlbEntry) (k n : Nat) : List TlbEntry :=
  match l with
  | [] => []
  | t :: r => if t.set ≠ k then t :: setWays r k n else if n = 0 then setWays r k 0 else t :: setWays r k (n - 1)

/-- A translation goes to the TLBs of a core and its cluster: 256 entries, and 16 in each set (R61). -/
def State.fillTlb (s : State) (core : Nat) (t : TlbEntry) : State :=
  let c := s.core core
  let k := clusterOf core
  let s1 := s.setCore core { c with tlb := (t.into c.tlb).take 256 }
  s1.setCluster k { s1.cluster k with tlb := setWays (t.into (s1.cluster k).tlb) t.set 16 }

/-- The pointer of the root entry goes to the I/O die's cache. -/
def State.fillPointer (s : State) (vd va : Nat) : State :=
  let at_ := (s.vdev vd).root.field 17 39 * 2 ^ 17 + natField va 42 14 * 8
  match s.heldPointer vd at_ with
  | some _ => s
  | none => { s with pointers := ((vd, at_, s.readPte at_) :: s.pointers).take 1024 }

/-- PAGE_WALK_COMPLETE of page `on.b` of virtual device `on.a` (R61): the result goes to the TLBs of the cores that joined the walk. -/
def execPageWalkComplete (s : State) : Out :=
  let vd := s.on.a
  let page := s.on.b
  match s.walkFind vd page with
  | none => .next s
  | some w =>
    let s1 := { s with walks := s.walks.filter (fun x => !(x.vd == vd && x.page == page)) }
    .next ((w.cores.foldl (fun s c => s.fillTlb c (tlbEntryOf vd page w.leaf w.at_ w.size)) s1).fillPointer vd (page * 2 ^ 16)).fire

/-! ## The host's CXL.mem accesses (R55, R67) -/

/-- HOST_CXL_MEM_READ of `on.b` bytes at physical address `on.a`: poison and zeros where the data are uncorrectable. -/
def execHostCxlMemRead (s : State) : Out :=
  let a := s.on.a
  let n := s.on.b
  if Config.deviceBytes < a + n then .next s
  else
    s.acceptArrival .hostCxlMemRead { s.on with c := 2 } (s.claimed a n) (fun s =>
      { s with hostReply := if s.poisoned a n then (List.replicate n 0, true) else (s.bytes a n, false) })

/-- HOST_CXL_MEM_WRITE: a partial write to an uncorrectable granule leaves it as it is, and the writer is told (R67). -/
def execHostCxlMemWrite (addr : Nat) (data : List Byte) (s : State) : Out :=
  if Config.deviceBytes < addr + data.length then .next s
  else
    s.acceptArrival (.hostCxlMemWrite addr data) { s.on with c := 2 } (s.claimed addr data.length) (fun s =>
      match rangeOf (fun x => .ok x) addr data.length with
      | .error _ => s
      | .ok ps => if (s.badWrite ps).isSome then { s with hostReply := ([], true) } else { s.writePieces ps data with hostReply := ([], false) })

/-! ## Soft errors (R66) -/

/-- A memory, as a number. -/
def memCode : MemKind → Nat
  | .lpddr => 0
  | .homeCache => 1
  | .l1 => 2
  | .slice => 3
  | .systemSram => 4
  | .tlb => 5

/-- Place of an address of a memory in the counts. -/
def errorKey (m : MemKind) (a : Nat) : Nat := a * 8 + memCode m

/-- Command-processor cycles of 24 hours (R306). -/
def dayCycles : Nat := 86400 * 1000000000

/-- Corrected errors of a row within 24 hours. -/
def State.errorsToday (s : State) (m : MemKind) (a : Nat) : Nat :=
  ((s.platform.corrected.get (errorKey m a) []).filter (fun t => decide (s.cpNow < t + dayCycles))).length

/-- What a corrected error does beside being counted: a clean L1 line is fetched again, a TLB entry is dropped. -/
def State.afterError (s : State) (m : MemKind) (a : Nat) : State :=
  match m with
  | .lpddr => s
  | .homeCache => s
  | .slice => s
  | .systemSram => s
  | .l1 => { s with cores := s.cores.mapKV (fun _ c => { c with l1 := c.l1.filter (fun l => !(l.line == a && l.dirty == 0)) }) }
  | .tlb =>
    { s with
      cores := s.cores.mapKV (fun _ c => { c with tlb := c.tlb.filter (fun t => t.page != a) })
      clusters := s.clusters.mapKV (fun _ c => { c with tlb := c.tlb.filter (fun t => t.page != a) })
      pointers := s.pointers.filter (fun p => p.2.1 != a) }

/-- CORRECTED_ERROR: counted, and reported to the physical function. `addr` is a line for an L1, a page for a TLB, the address of
the entry for the pointer cache. -/
def execCorrectedError (mem : MemKind) (addr : Nat) (s : State) : Out :=
  let k := errorKey mem addr
  let ts := s.cpNow :: s.platform.corrected.get k []
  let s1 := { s with platform := { s.platform with corrected := s.platform.corrected.set k ts } }
  .next ((s1.afterError mem addr).post 0
    { type_ := 6, a := BitVec.ofNat 64 addr, b := BitVec.ofNat 64 ts.length }).fire

/-- The memory is patrolled (R66). -/
def patrolled : MemKind → Bool
  | .lpddr => true
  | .slice => true
  | .systemSram => true
  | .homeCache => false
  | .l1 => false
  | .tlb => false

/-- PATROL_SCRUB: data are read, corrected and stay as they are. -/
def execPatrolScrub (mem : MemKind) (s : State) : Out :=
  if patrolled mem then .next { s with platform := { s.platform with scrubs := s.platform.scrubs + 1 } }.fire else .next s

/-! ## Repair in service (01_machine R15, 18_platform R311, R312) -/

/-- Compute die of a core. -/
def dieOf (core : Nat) : Nat := core / 96

/-- The first substitution of a die that has been triggered. -/
def State.dieJob (s : State) (die : Nat) : Option Nat := s.platform.jobs.find? (fun c => dieOf c == die)

/-- The memory whose row at an address has taken 16 corrected errors within 24 hours. -/
def State.failingRow (s : State) (a : Nat) : Option MemKind :=
  [MemKind.slice, .systemSram].find? (fun m => decide (16 ≤ s.errorsToday m a))

/-- Bytes of system SRAM on one compute die (01_machine R11). -/
def dieSram : Nat := 6 * 2 ^ 20

/-- Compute die of a row: of a slice, by its core; of system SRAM, by its address. -/
def rowDie (m : MemKind) (a : Nat) : Nat := if m = .slice then dieOf ((a - sliceBase) / sliceStride) else a / dieSram

/-- SRAM_ROW_REPAIR of the row at `on.a`: it is copied to a spare row, with no other effect. A repair of a die waits for those
triggered before it. -/
def execSramRowRepair (s : State) : Out :=
  let a := s.on.a
  match s.failingRow a with
  | none => .next s
  | some m =>
    if (s.dieJob (rowDie m a)).isSome then .next s
    else
      .next { s with platform := { s.platform with
        corrected := s.platform.corrected.erase (errorKey m a), repairedRows := a :: s.platform.repairedRows } }.fire

/-- Corrected errors of an LPDDR5X channel within 24 hours. -/
def State.channelErrors (s : State) (ch : Nat) : Nat :=
  s.platform.corrected.foldl (fun n p =>
    if p.1 % 8 = memCode .lpddr ∧ channelOf (p.1 / 8) = ch then n + s.errorsToday .lpddr (p.1 / 8) else n) 0

/-- CHANNEL_SPARING of channel `on.a`, whose errors exceed the threshold that firmware sets (04_memory R66): one spare for 16 channels takes
its number. -/
def execChannelSparing (s : State) : Out :=
  let ch := s.on.a
  if 32 ≤ ch ∨ s.channelErrors ch ≤ s.platform.channelLimit ∨ s.platform.sparedChannels.any (fun c => c / 16 == ch / 16) then .next s
  else .next { s with platform := { s.platform with sparedChannels := ch :: s.platform.sparedChannels } }.fire

/-- The core changes whether it takes teams. -/
def State.setOut (s : State) (core : Nat) (b : Bool) : State := s.setCore core { s.core core with out := b }

/-- A substitution is triggered. -/
def State.triggerJob (s : State) (core : Nat) : State :=
  if s.platform.jobs.contains core then s
  else { s with platform := { s.platform with jobs := s.platform.jobs ++ [core] } }.fire

/-- No spare takes over the core: teams saved for one may go to any core, and the scratch kept for them is freed. -/
def State.giveUpSpare (s : State) (core : Nat) : State :=
  s.vdevs.keys.foldl (fun s vd => (s.vdev vd).saved.foldl (fun s x =>
    if x.2.team.onto = some core then
      (s.freeKept x.2.team).setVdev vd { s.vdev vd with saved := (s.vdev vd).saved.set x.1 { x.2 with team := { x.2.team with onto := none } } }
    else s) s) s

/-- The spare takes over the core's number, slice and place, if one is left; else the core stays out of service. -/
def State.substitute (s : State) (core : Nat) : State :=
  let die := dieOf core
  let used := s.platform.spares.get die 0
  let s1 := s.cleanAll core
  let c := s1.core core
  let p := { s1.platform with jobs := s1.platform.jobs.filter (· != core) }
  if used < 4 then
    { s1.setCore core { c with l1 := [], tlb := [], out := false, errors := [] } with
      platform := { p with spares := p.spares.set die (used + 1) } }
  else { (s1.giveUpSpare core).setOut core true with platform := p }

/-- A team has to leave a core for a spare: it is saved, and will be restored onto the spare (R311). -/
def State.saveForSpare (s : State) (core tk : Nat) : State := (s.setTeam tk { s.team tk with onto := some core }).forceSave tk

/-- SPARE_CORE_SUBSTITUTION of core `on.a`: a request triggers it; when its turn on the die comes its teams are saved, and once they
have gone the spare takes over. A team that is draining, being saved or ending is waited for. -/
def execSpareCoreSubstitution (s : State) : Out :=
  let core := s.on.a
  if Config.nCores ≤ core then .next s
  else if !s.platform.jobs.contains core then .next (s.triggerJob core)
  else if s.dieJob (dieOf core) ≠ some core then .next s
  else
    let begin_ := (s.coreTeams core).filter (fun t => (s.team t).phase == .running || (s.team t).phase == .placing)
    if !begin_.isEmpty || !(s.core core).out then .next (begin_.foldl (fun s t => s.saveForSpare core t) (s.setOut core true)).fire
    else if !(s.coreTeams core).isEmpty || s.dirtyClaimed core then .next s
    else .next (s.substitute core).fire

/-- A team of a lost core: an idempotent launch's team restarts as after a flush; otherwise its launch retires with UNCORRECTABLE
(15_faults R271). -/
def State.loseTeam (s : State) (tk : Nat) : State :=
  let t := s.team tk
  if (s.launch t.launch).idem then s.flushTeam tk
  else
    (((s.leaveCore tk).setFateOf t .done).failLaunch t.launch .uncorrectable).tryEnd t.launch

/-- An uncorrectable error of a core is counted, among those of the last 24 hours (R311). -/
def Core.countError (c : Core) (now : Nat) : Core := { c with errors := now :: c.errors.filter (fun t => decide (now < t + dayCycles)) }

/-- CORE_LOST_TO_UNCORRECTABLE_FAULT of core `on.a`: what its L1 held is lost with it. A lost core is out of service until a spare takes over
(DEDUCED, log entry 98). -/
def execCoreLostToUncorrectableFault (s : State) : Out :=
  let core := s.on.a
  if Config.nCores ≤ core then .next s
  else
    let s1 := s.setCore core { (s.core core).countError s.cpNow with l1 := [], tlb := [], out := true }
    .next ((((s1.coreTeams core).foldl State.loseTeam s1)).triggerJob core).fire

/-- An uncorrectable error in a core's lane or tile storage: the fourth within 24 hours triggers a substitution (R311). What the error does to
the words that meet it is not said (DESIGN CHOICE, log entry 98). -/
def State.coreError (s : State) (core : Nat) : State :=
  if Config.nCores ≤ core then s
  else
    let s1 := (s.setCore core ((s.core core).countError s.cpNow)).fire
    if 4 ≤ (s1.core core).errors.length then s1.triggerJob core else s1

/-- Every virtual device begins to stop, and something is to follow. -/
def State.stopAll (s : State) (leave : Bool) : State :=
  let s1 := (s.vdevs.keysWhere (fun _ v => v.live)).foldl State.stopVd s
  { s1 with platform := { s1.platform with leaving := some leave } }

/-- MODULE_REPLACEMENT: a management request; each virtual device is stopped to migrate (17_command R300). -/
def execModuleReplacement (s : State) : Out :=
  match s.platform.leaving with
  | some _ => .next s
  | none => if s.platform.removed then .next s else .next (s.stopAll true).fire

/-- Once every virtual device has stopped, power is removed, or the module leaves CXL. -/
def State.leaveStep (s : State) : State :=
  match s.platform.leaving with
  | none => s
  | some leave =>
    if s.vdevs.any (fun v => v.2.live && !v.2.stopped) then s
    else if leave then { s with platform := { s.platform with leaving := none, removed := true } }.fire
    else { s with platform := { s.platform with leaving := none, power := false } }.fire

/-! ## Command processor and firmware (17_command R294, R301, 18_platform R310) -/

/-- Command-processor cycles between heartbeats: 100 µs. -/
def beatCycles : Nat := 100000

/-- HEARTBEAT. -/
def execHeartbeat (s : State) : Out :=
  let p := s.platform
  if p.beatAt + beatCycles ≤ s.cpNow then
    .next { s with platform := { p with heartbeats := p.heartbeats + 1, beatAt := s.cpNow } }.fire
  else .next s

/-- The standby takes over: each virtual device's journal and event ring tell. Firmware that it had been given runs now (R310). -/
def State.takeOver (s : State) : State :=
  let p := s.platform
  let s1 := { s with platform := { p with
    active := 1 - p.active, takeovers := p.takeovers + 1, beatAt := s.cpNow, firmware := p.standby, standby := p.firmware,
    staged := p.staged.map (fun (x : Nat × Bool) => (x.1, true)) } }
  (s1.vdevs.keysWhere (fun _ v => v.live)).foldl (fun s vd => (s.journal vd 9 0 0 0 0 0).post vd { type_ := 8 }) s1

/-- Command-processor cycles by which a heartbeat may be late: 500 µs. -/
def lateCycles : Nat := 500000

/-- A takeover is due: the heartbeat is 500 µs late, or an update has given the standby its firmware (R294, R310). -/
def Platform.takeoverDue (p : Platform) (now : Nat) : Bool :=
  decide (p.beatAt + beatCycles + lateCycles ≤ now) ||
    (match p.staged with
    | some (_, over_) => !over_
    | none => false)

/-- STANDBY_TAKEOVER (R294). `on.a` is 1 where the lockstep shadow has seen a mismatch. -/
def execStandbyTakeover (s : State) : Out :=
  if s.on.a = 1 ∨ s.platform.takeoverDue s.cpNow then .next s.takeOver.fire else .next s

/-- FIRMWARE_UPDATE: an image that is not verified, or whose version lies below the rollback counter, is refused; otherwise it is staged and
applied to the standby core, which is to take over (R310). A module whose boot was stopped takes it for its next boot. -/
def execFirmwareUpdate (version : Nat) (signed : Bool) (s : State) : Out :=
  let p := s.platform
  if !signed || decide (version < p.rollback) then .next s
  else if p.bootFailed then .next { s with platform := { p with firmware := version, signed := true } }.fire
  else .next { s with platform := { p with staged := some (version, false), standby := version } }.fire

/-- The core that was active before an update takes the firmware too (R310). -/
def State.updateStep (s : State) : State :=
  let p := s.platform
  match p.staged with
  | some (v, true) => { s with platform := { p with standby := v, staged := none } }.fire
  | some (_, false) => s
  | none => s

/-! ## Sensors (R308, R309) -/

/-- The greatest of some readings. -/
def hottest (l : List Nat) : Nat := l.foldl max 0
/-- Hottest junction, in quarters of a degree. -/
def hotJunction (r : SensorReading) : Nat := hottest (r.dies ++ r.ioDie)

/-- Power asks for a lower arithmetic clock: from the cap on, until it falls 2% below it. -/
def Platform.powerHigh (p : Platform) (r : SensorReading) : Bool :=
  decide (p.powerCap < r.power) || (p.overPower && decide (98 * p.powerCap < 100 * r.power))

/-- A junction asks for a lower arithmetic clock: from 100 °C on, until every one is below 97 °C. -/
def Platform.junctionHigh (p : Platform) (r : SensorReading) : Bool :=
  decide (400 ≤ hotJunction r) || (p.overHot && decide (388 ≤ hotJunction r))

/-- SENSOR_SAMPLE. A step of the clock posts a CORRECTED event with cause NONE. -/
def execSensorSample (r : SensorReading) (s : State) : Out :=
  let p := s.platform
  let stepDown := (p.powerHigh r || p.junctionHigh r) && decide (625000 < p.clockKHz)
  let s1 := { s with platform := { p with
    sensors := some r, refreshDouble := decide (95 ≤ hottest r.channels), overPower := p.powerHigh r, overHot := p.junctionHigh r
    clockKHz := if stepDown then p.clockKHz - 62500 else p.clockKHz } }
  let s2 := if stepDown then s1.post 0 { type_ := 6 } else s1
  let danger := decide (440 ≤ hotJunction r) || decide (260 ≤ r.outlet)
  .next (if danger && p.leaving.isNone then s2.stopAll false else s2).fire

/-- A reading as the numbers that a message carries. -/
def sensorWords (r : SensorReading) : List Nat :=
  r.dies ++ r.ioDie ++ r.channels ++ [r.inlet, r.outlet, r.power] ++ r.rails.flatMap (fun x => [x.1, x.2])

/-- PLATFORM_MONITORING_AND_CONTROL (R310): a power cap outside 1,200 W to 2,400 W changes nothing. A module whose boot was stopped reports
the stop (R307), as the one number 0 (DESIGN CHOICE, log entry 99). -/
def execPlatformMonitoringAndControl (m : PldmMsg) (s : State) : Out :=
  let p := s.platform
  let say := fun (a : List Nat) => (.next { s with platform := { p with answers := a :: p.answers } }.fire : Out)
  if p.bootFailed then say [0]
  else
    match m with
    | .readSensors => say (match p.sensors with
      | none => []
      | some r => sensorWords r)
    | .setPowerCap w => if 1200 ≤ w ∧ w ≤ 2400 then .next { s with platform := { p with powerCap := w } }.fire else .next s
    | .readFaultLog => say (p.corrected.map (fun (x : Nat × List Nat) => x.1))

/-- The facts that measurements 1 to 4 are of: the boot ROM, the firmware, its configuration, the fuses (17_command R301). -/
def Platform.facts (p : Platform) (n : Nat) : List Nat :=
  if n = 1 then []
  else if n = 2 then [p.firmware]
  else if n = 3 then [p.powerCap, p.channelLimit]
  else p.rollback :: p.spares.flatMap (fun (x : Nat × Nat) => [x.1, x.2])

/-- Numbers that an SPDM answer carries: the request, then what the module computes for it; for measurements the four of R301. -/
def Platform.spdmAnswer (p : Platform) (r : SpdmReq) : List Nat :=
  let one := fun (n : Nat) => [n, Config.measurement 0 [n, p.spdm]]
  match r with
  | .getVersion => one 0
  | .getCapabilities => one 1
  | .negotiateAlgorithms => one 2
  | .getDigests => one 3
  | .getCertificate => one 4
  | .challenge => one 5
  | .getMeasurements => 6 :: [1, 2, 3, 4].map (fun n => Config.measurement n (p.facts n))
  | .keyExchange => one 7
  | .finish => one 8
  | .keyUpdate => one 9
  | .endSession => one 10

/-- SPDM_REQUEST (R301): the request is answered; keys, certificates and measurements are free values (log entry 99). -/
def execSpdmRequest (r : SpdmReq) (s : State) : Out :=
  let p := s.platform
  .next { s with platform := { p with spdm := p.spdm + 1, answers := p.spdmAnswer r :: p.answers } }.fire

/-! ## Virtual devices (05_slices R72, 17_command R298) -/

/-- Everything that belongs to a virtual device is discarded; its granules are free. -/
def State.clearVd (s : State) (vd : Nat) : State :=
  let v := s.vdev vd
  let mine (core : Nat) : Bool := v.clusters.contains (clusterOf core)
  let ts := s.teams.keysWhere (fun _ t => t.vd == vd)
  let cs := s.copies.keysWhere (fun _ c => c.vd == vd)
  let s1 := ts.foldl (fun s t => ((s.team t).groups.foldl State.unhint s).removeTeam t) s
  { s1 with
    copies := cs.foldl (fun m k => m.erase k) s1.copies
    claims := s1.claims.filter (fun k => !cs.contains k)
    launches := (s1.launches.keysWhere (fun _ l => l.vd == vd)).foldl (fun m k => m.erase k) s1.launches
    granules := s1.granules.filter (fun g => g.2 != vd + 1)
    cores := s1.cores.mapKV (fun k c => if mine k then { out := c.out, errors := c.errors } else c)
    clusters := s1.clusters.mapKV (fun _ c =>
      { c with tlb := c.tlb.filter (fun t => t.vd != vd), windows := c.windows.filter (fun w => w.1 != vd) })
    pointers := s1.pointers.filter (fun p => p.1 != vd)
    walks := s1.walks.filter (fun w => w.vd != vd)
    arrivals := s1.arrivals.filter (fun a => !(a.2.c == 1 && a.2.a == vd)) }

/-- VF_FUNCTION_LEVEL_RESET of virtual function `on.a` (R307): the virtual device keeps what it was granted. -/
def execVfFunctionLevelReset (s : State) : Out :=
  let vd := s.on.a
  let v := s.vdev vd
  if vd = 0 ∨ !v.live then .next s
  else .next ((s.clearVd vd).setVdev vd { live := true, clusters := v.clusters, journalMiB := v.journalMiB }).fire

/-- VIRTUAL_DEVICE_DESTRUCTION of virtual device `on.a`: its clusters are the physical function's again (log entry 5). -/
def execVirtualDeviceDestruction (s : State) : Out :=
  let vd := s.on.a
  let v := s.vdev vd
  if vd = 0 ∨ !v.live then .next s
  else
    let s1 := (s.clearVd vd).setVdev vd {}
    let z := s1.vdev 0
    .next (s1.setVdev 0 { z with clusters := (List.range 96).filter (fun c => z.clusters.contains c || v.clusters.contains c) }).fire

/-- Nothing of a virtual device stands on a core. -/
def State.idleCore (s : State) (core : Nat) : Bool :=
  (s.coreTeams core).isEmpty && s.granules.all (fun g => g.1 / 40 != core) && (s.core core).seqs.isEmpty && !s.dirtyClaimed core &&
    s.copies.all (fun c => clusterOf c.2.core != clusterOf core || c.2.phase == .done)

/-- VIRTUAL_DEVICE_CREATION: whole clusters of the physical function on which nothing stands, a part of the journal, a stow pool. -/
def execVirtualDeviceCreation (vd : Nat) (clusters : List Nat) (journalMiB stowPa stowLen : Nat) (s : State) : Out :=
  let z := s.vdev 0
  let cores := clusters.flatMap (fun c => (List.range 8).map (fun i => c * 8 + i))
  let used := s.vdevs.foldl (fun n v => if v.2.live then n + v.2.journalMiB else n) 0
  if vd = 0 ∨ 15 < vd ∨ (s.vdev vd).live ∨ clusters.isEmpty ∨ clusters.eraseDups.length ≠ clusters.length ∨
      !clusters.all z.clusters.contains ∨ journalMiB = 0 ∨ 32 < used + journalMiB ∨ stowPa % 2 ^ 16 ≠ 0 ∨
      Config.deviceBytes < stowPa + stowLen * 2 ^ 16 ∨ !cores.all s.idleCore then .next s
  else
    let s1 := cores.foldl (fun s c => (s.flushAll c).setCore c { s.core c with l1 := [], tlb := [], classAt := [] }) s
    let s2 := s1.setVdev 0 { s1.vdev 0 with clusters := (s1.vdev 0).clusters.filter (fun c => !clusters.contains c) }
    .next (s2.setVdev vd
      { live := true, clusters := (List.range 96).filter clusters.contains, journalMiB := journalMiB,
        stowBase := BitVec.ofNat 64 stowPa, stowLen := BitVec.ofNat 32 stowLen }).fire

/-! ## Resets (R307) -/

/-- What outlives a reset: the host's memory, the fuses (a core without a spare stays out of service), what the col nodes hold, and the
model's own counters. A firmware image whose signature or version fails stops the boot. -/
def State.afterReset (s : State) (mem : List Host.Cell) (poison : List (Nat × Nat)) : State :=
  let p := s.platform
  { State.reset with
    mem := mem
    poison := poison
    contained := s.contained
    gatherings := s.gatherings
    cores := (s.cores.filter (fun c => c.2.out && !p.jobs.contains c.1)).map (fun c => (c.1, { out := true }))
    platform :=
      { firmware := p.firmware, standby := p.firmware, signed := p.signed, rollback := p.rollback, spares := p.spares
        repairedRows := p.repairedRows, sparedChannels := p.sparedChannels
        bootFailed := !p.signed || decide (p.firmware < p.rollback), beatAt := s.cpNow }
    now := s.now
    cpNow := s.cpNow
    portNow := s.portNow
    agenda := s.agenda
    steps := s.steps
    free := s.free
    fired := s.fired
    sends := s.sends
    made := s.made }

/-- The stored firmware image is replaced. -/
def State.setImage (s : State) (version : Nat) (signed : Bool) : State :=
  { s with platform := { s.platform with firmware := version, signed := signed } }.fire

/-- Firmware sets the threshold of channel sparing (04_memory R66). -/
def State.setChannelLimit (s : State) (n : Nat) : State := { s with platform := { s.platform with channelLimit := n } }.fire

/-- POWER_GOOD_BOOT: the whole boot; device memory starts as at reset. -/
def execPowerGoodBoot (s : State) : Out :=
  .next (s.afterReset (s.mem.filter (fun c => isHostKey c.1)) []).fire

/-- CXL_HOT_RESET, or a function-level reset of the physical function: steps 3 to 6. Slices are zeroed; device memory keeps its
contents. -/
def execCxlHotReset (s : State) : Out :=
  .next (s.afterReset (s.mem.filter (fun c => !isSliceKey c.1)) (s.poison.filter (fun p => !isSliceKey p.1))).fire

end Sys2Proof.Machine
end

