-- ==== Sys2Proof/Machine/UnlistedWords.lean ====
section
/-! DEFINITION. The words of the opcode maps that the opcode table has no row for (R330 to R398): each has its own meaning in its
family's file, and this is the one arm of `exec` that they share (log entry 6). -/

namespace Sys2Proof.Machine

/-- A word of R330 to R398. -/
def execUnlisted (u : Unlisted) (s : State) : Out :=
  match u with
  | .imad f => execImad f s
  | .dsenc f => execDsenc f s
  | .dsmul f => execDsmul f s
  | .kinit k pg => execKinit k pg s
  | .kins f => execKins f s
  | .kext d a idx e pg => execKext d a idx e pg s
  | .mxscl f => execMxscl f s
  | .trap code pg => execTrap code pg s
  | .bkpt code pg => execBkpt code pg s
  | .glea f => execGlea f s
  | .gbfx f => execGbfx f s
  | .acq a sc => execAcq a sc s
  | .rel a sc => execRel a sc s
  | .fence sc => execFence sc s
  | .bind f => execBind f s
  | .unbind f => execUnbind f s
  | .sgnew d b pin clu => execSgnew d b pin clu s
  | .sgname f => execSgname f s
  | .sgatt f nr w => execSgatt f nr w s
  | .sgdet a => execSgdet a s
  | .sgdrop f byName => execSgdrop f byName s
  | .sgstow f => execSgstow f s
  | .sgstat f n => execSgstat f n s
  | .cpyq f => execCpyq f s
  | .cpyw a b get cb => execCpyw a b get cb s
  | .cpyc f all cb => execCpyc f all cb s
  | .cpyst d wt cb => execCpyst d wt cb s
  | .tbld t a b => execTbld t a b s
  | .tbld4 t a b => execTbld4 t a b s
  | .tchk c t => execTchk c t s
  | .tinv t => execTinv t s
  | .tspl t a => execTspl t a s
  | .tfil t a => execTfil t a s
  | .mloop f => execMloop f s
  | .mloop4 f => execMloop4 f s
  | .mstep f => execMstep f s
  | .scacc d e b te => execScacc d e b te s
  | .azero d e => execAzero d e s
  | .asto d a b te => execAsto d a b te s
  | .alda d a b => execAlda d a b s
  | .acvt d a b fmt sat te => execAcvt d a b fmt sat te s
  | .mstat d sel wt => execMstat d sel wt s
  | .wsel a b dp => execWsel a b dp s
  | .rrst d a b dp op size => execRrst d a b dp op size s
  | .sigadd d a b dp loc => execSigadd d a b dp loc s
  | .sigwt d a b cond te => execSigwt d a b cond te s
  | .rwait d a b te => execRwait d a b te s
  | .rfence d team te => execRfence d team te s
  | .rget d a b dp cb => execRget d a b dp cb s
  | .coord d a sel => execCoord d a sel s
  | .cmbcfg f => execCmbcfg f s
  | .cmbopen f strict => execCmbopen f strict s
  | .cmbput f rem => execCmbput f rem s
  | .cmbrel f drop => execCmbrel f drop s
  | .cmbstat f slot n => execCmbstat f slot n s
  | .gentag f rem op => execGentag f rem op s
  | .csrrd d csr => execCsrrd d csr s
  | .csrwr d csr => execCsrwr d csr s
  | .cycle d => execCycle d s
  | .sleep a => execSleep a s
  | .gtrap code => execGtrap code s
  | .rte f => execRte f s
  | .gnop f => execGnop f s
  | .teamend a f => execTeamend a f s
  | .probe f kind => execProbe f kind s
  | .prio f => execPrio f s

end Sys2Proof.Machine
end

