-- ==== Sys2Proof/Machine/Dispatch.lean ====
section
/-! DEFINITION. One arm per constructor of `Instr`: a direct call of the meaning, or a rejection by name. -/

namespace Sys2Proof.Machine

def exec (i : Instr) (s : State) : Host.Outcome State Fault Refusal :=
  match i with
  | .iadd f => Sys2Proof.Machine.execIadd f s
  | .isub f => Sys2Proof.Machine.execIsub f s
  | .imul f => Sys2Proof.Machine.execImul f s
  | .imulhs f => Sys2Proof.Machine.execImulhs f s
  | .imulhu f => Sys2Proof.Machine.execImulhu f s
  | .imin f => Sys2Proof.Machine.execImin f s
  | .imax f => Sys2Proof.Machine.execImax f s
  | .umin f => Sys2Proof.Machine.execUmin f s
  | .umax f => Sys2Proof.Machine.execUmax f s
  | .iabs f => Sys2Proof.Machine.execIabs f s
  | .andv f => Sys2Proof.Machine.execAndv f s
  | .orv f => Sys2Proof.Machine.execOrv f s
  | .xorv f => Sys2Proof.Machine.execXorv f s
  | .andn f => Sys2Proof.Machine.execAndn f s
  | .shl f => Sys2Proof.Machine.execShl f s
  | .shr f => Sys2Proof.Machine.execShr f s
  | .sar f => Sys2Proof.Machine.execSar f s
  | .popc f => Sys2Proof.Machine.execPopc f s
  | .clz f => Sys2Proof.Machine.execClz f s
  | .brev f => Sys2Proof.Machine.execBrev f s
  | .bfx f => Sys2Proof.Machine.execBfx f s
  | .bfi f => Sys2Proof.Machine.execBfi f s
  | .icmp f => Sys2Proof.Machine.execIcmp f s
  | .ucmp f => Sys2Proof.Machine.execUcmp f s
  | .sel f => Sys2Proof.Machine.execSel f s
  | .iaddi f => Sys2Proof.Machine.execIaddi f s
  | .andi f => Sys2Proof.Machine.execAndi f s
  | .shli f => Sys2Proof.Machine.execShli f s
  | .shri f => Sys2Proof.Machine.execShri f s
  | .lea f => Sys2Proof.Machine.execLea f s
  | .movi f => Sys2Proof.Machine.execMovi f s
  | .fadd f => Sys2Proof.Machine.execFadd f s
  | .fsub f => Sys2Proof.Machine.execFsub f s
  | .fmul f => Sys2Proof.Machine.execFmul f s
  | .ffma f => Sys2Proof.Machine.execFfma f s
  | .fmin f => Sys2Proof.Machine.execFmin f s
  | .fmax f => Sys2Proof.Machine.execFmax f s
  | .fcmp f => Sys2Proof.Machine.execFcmp f s
  | .fcls f => Sys2Proof.Machine.execFcls f s
  | .frcp f => Sys2Proof.Machine.execFrcp f s
  | .frsq f => Sys2Proof.Machine.execFrsq f s
  | .fsqrt f => Sys2Proof.Machine.execFsqrt f s
  | .fexp2 f => Sys2Proof.Machine.execFexp2 f s
  | .flog2 f => Sys2Proof.Machine.execFlog2 f s
  | .badd2 f => Sys2Proof.Machine.execBadd2 f s
  | .bmul2 f => Sys2Proof.Machine.execBmul2 f s
  | .bfma2 f => Sys2Proof.Machine.execBfma2 f s
  | .bmax2 f => Sys2Proof.Machine.execBmax2 f s
  | .hadd2 f => Sys2Proof.Machine.execHadd2 f s
  | .hmul2 f => Sys2Proof.Machine.execHmul2 f s
  | .hfma2 f => Sys2Proof.Machine.execHfma2 f s
  | .cvtif f => Sys2Proof.Machine.execCvtif f s
  | .cvtfi f => Sys2Proof.Machine.execCvtfi f s
  | .cvtfb f => Sys2Proof.Machine.execCvtfb f s
  | .cvtbf f => Sys2Proof.Machine.execCvtbf f s
  | .cvtfh f => Sys2Proof.Machine.execCvtfh f s
  | .cvthf f => Sys2Proof.Machine.execCvthf f s
  | .cvtf8 f => Sys2Proof.Machine.execCvtf8 f s
  | .cvt8f f => Sys2Proof.Machine.execCvt8f f s
  | .cvtfn f => Sys2Proof.Machine.execCvtfn f s
  | .cvtnf f => Sys2Proof.Machine.execCvtnf f s
  | .shfi f => Sys2Proof.Machine.execShfi f s
  | .shfu f => Sys2Proof.Machine.execShfu f s
  | .shfd f => Sys2Proof.Machine.execShfd f s
  | .shfx f => Sys2Proof.Machine.execShfx f s
  | .vote f => Sys2Proof.Machine.execVote f s
  | .ballot f => Sys2Proof.Machine.execBallot f s
  | .gred f => Sys2Proof.Machine.execGred f s
  | .matchv f => Sys2Proof.Machine.execMatchv f s
  | .mkemp f => Sys2Proof.Machine.execMkemp f s
  | .mkful f => Sys2Proof.Machine.execMkful f s
  | .pmovPack f => Sys2Proof.Machine.execPmovPack f s
  | .pmovUnpack f => Sys2Proof.Machine.execPmovUnpack f s
  | .getid f => Sys2Proof.Machine.execGetid f s
  | .ld8 f => Sys2Proof.Machine.execLd8 f s
  | .ld16 f => Sys2Proof.Machine.execLd16 f s
  | .ld32 f => Sys2Proof.Machine.execLd32 f s
  | .ld64 f => Sys2Proof.Machine.execLd64 f s
  | .ld128 f => Sys2Proof.Machine.execLd128 f s
  | .st8 f => Sys2Proof.Machine.execSt8 f s
  | .st16 f => Sys2Proof.Machine.execSt16 f s
  | .st32 f => Sys2Proof.Machine.execSt32 f s
  | .st64 f => Sys2Proof.Machine.execSt64 f s
  | .st128 f => Sys2Proof.Machine.execSt128 f s
  | .ldx f => Sys2Proof.Machine.execLdx f s
  | .stx f => Sys2Proof.Machine.execStx f s
  | .aadd f => Sys2Proof.Machine.execAadd f s
  | .amin f => Sys2Proof.Machine.execAmin f s
  | .amax f => Sys2Proof.Machine.execAmax f s
  | .aumin f => Sys2Proof.Machine.execAumin f s
  | .aumax f => Sys2Proof.Machine.execAumax f s
  | .aand f => Sys2Proof.Machine.execAand f s
  | .aor f => Sys2Proof.Machine.execAor f s
  | .axor f => Sys2Proof.Machine.execAxor f s
  | .axch f => Sys2Proof.Machine.execAxch f s
  | .acas f => Sys2Proof.Machine.execAcas f s
  | .afadd f => Sys2Proof.Machine.execAfadd f s
  | .pref f => Sys2Proof.Machine.execPref f s
  | .rld32 f => Sys2Proof.Machine.execRld32 f s
  | .rld64 f => Sys2Proof.Machine.execRld64 f s
  | .rst32 f => Sys2Proof.Machine.execRst32 f s
  | .rst64 f => Sys2Proof.Machine.execRst64 f s
  | .ratom f => Sys2Proof.Machine.execRatom f s
  | .br f => Sys2Proof.Machine.execBr f s
  | .brx f => Sys2Proof.Machine.execBrx f s
  | .call f => Sys2Proof.Machine.execCall f s
  | .ret f => Sys2Proof.Machine.execRet f s
  | .exitv f => Sys2Proof.Machine.execExitv f s
  | .barv f => Sys2Proof.Machine.execBarv f s
  | .regn n => Sys2Proof.Machine.execRegn n s
  | .spawn f => Sys2Proof.Machine.execSpawn f s
  | .yield f => Sys2Proof.Machine.execYield f s
  | .nop f => Sys2Proof.Machine.execNop f s
  | .waite f => Sys2Proof.Machine.execWaite f s
  | .gadd f => Sys2Proof.Machine.execGadd f s
  | .gsub f => Sys2Proof.Machine.execGsub f s
  | .gmul f => Sys2Proof.Machine.execGmul f s
  | .gmad f => Sys2Proof.Machine.execGmad f s
  | .gmin f => Sys2Proof.Machine.execGmin f s
  | .gmax f => Sys2Proof.Machine.execGmax f s
  | .gand f => Sys2Proof.Machine.execGand f s
  | .gor f => Sys2Proof.Machine.execGor f s
  | .gxor f => Sys2Proof.Machine.execGxor f s
  | .gshl f => Sys2Proof.Machine.execGshl f s
  | .gshr f => Sys2Proof.Machine.execGshr f s
  | .gsar f => Sys2Proof.Machine.execGsar f s
  | .gcmp f => Sys2Proof.Machine.execGcmp f s
  | .gsel f => Sys2Proof.Machine.execGsel f s
  | .gpopc f => Sys2Proof.Machine.execGpopc f s
  | .gclz f => Sys2Proof.Machine.execGclz f s
  | .gaddi f => Sys2Proof.Machine.execGaddi f s
  | .gmovi f => Sys2Proof.Machine.execGmovi f s
  | .gmovh f => Sys2Proof.Machine.execGmovh f s
  | .gmulh f => Sys2Proof.Machine.execGmulh f s
  | .gdivu f => Sys2Proof.Machine.execGdivu f s
  | .gremu f => Sys2Proof.Machine.execGremu f s
  | .gbr f => Sys2Proof.Machine.execGbr f s
  | .gloop f => Sys2Proof.Machine.execGloop f s
  | .gcall f => Sys2Proof.Machine.execGcall f s
  | .gret f => Sys2Proof.Machine.execGret f s
  | .qput f => Sys2Proof.Machine.execQput f s
  | .qget f => Sys2Proof.Machine.execQget f s
  | .qclose f => Sys2Proof.Machine.execQclose f s
  | .qstat f => Sys2Proof.Machine.execQstat f s
  | .gld32 f => Sys2Proof.Machine.execGld32 f s
  | .gld64 f => Sys2Proof.Machine.execGld64 f s
  | .gst32 f => Sys2Proof.Machine.execGst32 f s
  | .gst64 f => Sys2Proof.Machine.execGst64 f s
  | .gatom f => Sys2Proof.Machine.execGatom f s
  | .agen f => Sys2Proof.Machine.execAgen f s
  | .agenx f => Sys2Proof.Machine.execAgenx f s
  | .gpref f => Sys2Proof.Machine.execGpref f s
  | .cbinit f => Sys2Proof.Machine.execCbinit f s
  | .cbarv f => Sys2Proof.Machine.execCbarv f s
  | .cbwait f => Sys2Proof.Machine.execCbwait f s
  | .cbtest f => Sys2Proof.Machine.execCbtest f s
  | .cpy f => Sys2Proof.Machine.execCpy f s
  | .cpys f => Sys2Proof.Machine.execCpys f s
  | .cpyg f => Sys2Proof.Machine.execCpyg f s
  | .cpyx f => Sys2Proof.Machine.execCpyx f s
  | .rgld f => Sys2Proof.Machine.execRgld f s
  | .rgst f => Sys2Proof.Machine.execRgst f s
  | .rmst f => Sys2Proof.Machine.execRmst f s
  | .rgatm f => Sys2Proof.Machine.execRgatm f s
  | .binsetFlush f => Sys2Proof.Machine.execBinsetFlush f s
  | .binsetClose f => Sys2Proof.Machine.execBinsetClose f s
  | .binsetOpen f => Sys2Proof.Machine.execBinsetOpen f s
  | .spawngLoc f => Sys2Proof.Machine.execSpawngLoc f s
  | .spawngRemote f => Sys2Proof.Machine.execSpawngRemote f s
  | .binfl f => Sys2Proof.Machine.execBinfl f s
  | .longLatencyComplete g op mask => Sys2Proof.Machine.execLongLatencyComplete g op mask s
  | .xlateInvCtlWrite vd val => Sys2Proof.Machine.execXlateInvCtlWrite vd val s
  | .xlateRootWrite vd val => Sys2Proof.Machine.execXlateRootWrite vd val s
  | .xlateKeysWrite vd val => Sys2Proof.Machine.execXlateKeysWrite vd val s
  | .fabWtabWrite vd val => Sys2Proof.Machine.execFabWtabWrite vd val s
  | .fabItabWrite vd val => Sys2Proof.Machine.execFabItabWrite vd val s
  | .evbaseWrite vd val => Sys2Proof.Machine.execEvbaseWrite vd val s
  | .evctlWrite vd val => Sys2Proof.Machine.execEvctlWrite vd val s
  | .caplenWrite vd val => Sys2Proof.Machine.execCaplenWrite vd val s
  | .tfcmdResume vd val => Sys2Proof.Machine.execTfcmdResume vd val s
  | .tfcmdAbort vd val => Sys2Proof.Machine.execTfcmdAbort vd val s
  | .qctlReset vd q val => Sys2Proof.Machine.execQctlReset vd q val s
  | .qctlAck vd q val => Sys2Proof.Machine.execQctlAck vd q val s
  | .qctlEnable vd q val => Sys2Proof.Machine.execQctlEnable vd q val s
  | .qctlDisable vd q val => Sys2Proof.Machine.execQctlDisable vd q val s
  | .registerWrite vd offset val => Sys2Proof.Machine.execRegisterWrite vd offset val s
  | .writeIndexStore vd q val => Sys2Proof.Machine.execWriteIndexStore vd q val s
  | .fabricRead vd r => Sys2Proof.Machine.execFabricRead vd r s
  | .fabricWrite vd r => Sys2Proof.Machine.execFabricWrite vd r s
  | .fabricMulticastWrite vd r => Sys2Proof.Machine.execFabricMulticastWrite vd r s
  | .fabricReduction vd at_ => Sys2Proof.Machine.execFabricReduction vd at_ s
  | .fabricAtomic vd r => Sys2Proof.Machine.execFabricAtomic vd r s
  | .fabricSignalAdd vd r => Sys2Proof.Machine.execFabricSignalAdd vd r s
  | .fabricSpawnRecord vd r => Sys2Proof.Machine.execFabricSpawnRecord vd r s
  | .fabricBulkWrite vd r => Sys2Proof.Machine.execFabricBulkWrite vd r s
  | .readData tag data => Sys2Proof.Machine.execReadData tag data s
  | .acknowledgement tag => Sys2Proof.Machine.execAcknowledgement tag s
  | .errorReply tag cause => Sys2Proof.Machine.execErrorReply tag cause s
  | .linkPause port vc => Sys2Proof.Machine.execLinkPause port vc s
  | .linkResume port vc => Sys2Proof.Machine.execLinkResume port vc s
  | .gatheringContribution m => Sys2Proof.Machine.execGatheringContribution m s
  | .reductionTimerExpiry vd at_ => Sys2Proof.Machine.execReductionTimerExpiry vd at_ s
  | .containment grid member => Sys2Proof.Machine.execContainment grid member s
  | .portServiceChange port up => Sys2Proof.Machine.execPortServiceChange port up s
  | .portFold port banks => Sys2Proof.Machine.execPortFold port banks s
  | .fabricLaneSwap port => Sys2Proof.Machine.execFabricLaneSwap port s
  | .hostCxlMemWrite addr data => Sys2Proof.Machine.execHostCxlMemWrite addr data s
  | .correctedError mem addr => Sys2Proof.Machine.execCorrectedError mem addr s
  | .patrolScrub mem => Sys2Proof.Machine.execPatrolScrub mem s
  | .firmwareUpdate version signed => Sys2Proof.Machine.execFirmwareUpdate version signed s
  | .sensorSample r => Sys2Proof.Machine.execSensorSample r s
  | .illegalOpcodeWord w => Sys2Proof.Machine.execIllegalOpcodeWord w s
  | .containmentCleared grid member => Sys2Proof.Machine.execContainmentCleared grid member s
  | .reattestation port => Sys2Proof.Machine.execReattestation port s
  | .spdmRequest r => Sys2Proof.Machine.execSpdmRequest r s
  | .platformMonitoringAndControl m => Sys2Proof.Machine.execPlatformMonitoringAndControl m s
  | .virtualDeviceCreation vd clusters journalMiB stowPa stowLen => Sys2Proof.Machine.execVirtualDeviceCreation vd clusters journalMiB stowPa stowLen s
  | .unlisted u => Sys2Proof.Machine.execUnlisted u s
  | .qgetFill => Sys2Proof.Machine.execQgetFill s
  | .statusWaitFill => Sys2Proof.Machine.execStatusWaitFill s
  | .barrierWaitEnd => Sys2Proof.Machine.execBarrierWaitEnd s
  | .missedPromise => Sys2Proof.Machine.execMissedPromise s
  | .collectiveFormation => Sys2Proof.Machine.execCollectiveFormation s
  | .regnPerform => Sys2Proof.Machine.execRegnPerform s
  | .ageCap => Sys2Proof.Machine.execAgeCap s
  | .copyClaimGrant => Sys2Proof.Machine.execCopyClaimGrant s
  | .copyCommandStart => Sys2Proof.Machine.execCopyCommandStart s
  | .copyUnitRelease => Sys2Proof.Machine.execCopyUnitRelease s
  | .copyCommandComplete => Sys2Proof.Machine.execCopyCommandComplete s
  | .stowComplete => Sys2Proof.Machine.execStowComplete s
  | .restoreComplete => Sys2Proof.Machine.execRestoreComplete s
  | .binRingAllocation => Sys2Proof.Machine.execBinRingAllocation s
  | .binFlushTimerExpiry => Sys2Proof.Machine.execBinFlushTimerExpiry s
  | .spawnGroupLaunch => Sys2Proof.Machine.execSpawnGroupLaunch s
  | .combineDeadline => Sys2Proof.Machine.execCombineDeadline s
  | .teamPlacement => Sys2Proof.Machine.execTeamPlacement s
  | .residencyHoldExpiry => Sys2Proof.Machine.execResidencyHoldExpiry s
  | .victimWaitExpiry => Sys2Proof.Machine.execVictimWaitExpiry s
  | .drainBudgetExpiry => Sys2Proof.Machine.execDrainBudgetExpiry s
  | .saveEnd => Sys2Proof.Machine.execSaveEnd s
  | .teamEnd => Sys2Proof.Machine.execTeamEnd s
  | .l1Eviction => Sys2Proof.Machine.execL1Eviction s
  | .pageWalkComplete => Sys2Proof.Machine.execPageWalkComplete s
  | .invalidationComplete => Sys2Proof.Machine.execInvalidationComplete s
  | .dbdataRead => Sys2Proof.Machine.execDbdataRead s
  | .runStop => Sys2Proof.Machine.execRunStop s
  | .stopComplete => Sys2Proof.Machine.execStopComplete s
  | .runResume => Sys2Proof.Machine.execRunResume s
  | .packetAccept => Sys2Proof.Machine.execPacketAccept s
  | .launch => Sys2Proof.Machine.execLaunch s
  | .barrier => Sys2Proof.Machine.execBarrier s
  | .barrierResolve => Sys2Proof.Machine.execBarrierResolve s
  | .abortedPacketRetire => Sys2Proof.Machine.execAbortedPacketRetire s
  | .signalAdd => Sys2Proof.Machine.execSignalAdd s
  | .signalSet => Sys2Proof.Machine.execSignalSet s
  | .segmentStow => Sys2Proof.Machine.execSegmentStow s
  | .segmentDrop => Sys2Proof.Machine.execSegmentDrop s
  | .segmentPin => Sys2Proof.Machine.execSegmentPin s
  | .segmentUnpin => Sys2Proof.Machine.execSegmentUnpin s
  | .marker => Sys2Proof.Machine.execMarker s
  | .bufferedEventPost => Sys2Proof.Machine.execBufferedEventPost s
  | .heartbeat => Sys2Proof.Machine.execHeartbeat s
  | .standbyTakeover => Sys2Proof.Machine.execStandbyTakeover s
  | .requestTimeout => Sys2Proof.Machine.execRequestTimeout s
  | .slotQuarantineEnd => Sys2Proof.Machine.execSlotQuarantineEnd s
  | .packetLifeExpiry => Sys2Proof.Machine.execPacketLifeExpiry s
  | .hostCxlMemRead => Sys2Proof.Machine.execHostCxlMemRead s
  | .sramRowRepair => Sys2Proof.Machine.execSramRowRepair s
  | .channelSparing => Sys2Proof.Machine.execChannelSparing s
  | .spareCoreSubstitution => Sys2Proof.Machine.execSpareCoreSubstitution s
  | .moduleReplacement => Sys2Proof.Machine.execModuleReplacement s
  | .powerGoodBoot => Sys2Proof.Machine.execPowerGoodBoot s
  | .cxlHotReset => Sys2Proof.Machine.execCxlHotReset s
  | .vfFunctionLevelReset => Sys2Proof.Machine.execVfFunctionLevelReset s
  | .virtualDeviceDestruction => Sys2Proof.Machine.execVirtualDeviceDestruction s
  | .coreLostToUncorrectableFault => Sys2Proof.Machine.execCoreLostToUncorrectableFault s
  | .heldSpawnRecordTimeout => Sys2Proof.Machine.execHeldSpawnRecordTimeout s

end Sys2Proof.Machine
end

