-- ==== Sys2Proof/Machine/Engines.lean ====
section
/-! DEFINITION. The order in which the model looks at the engines, timers and waiting agents when the agenda is empty
(log entry 7), and the instruction that stands ready for a first step. -/

namespace Sys2Proof.Machine

/-- The operands of an event that names no part. -/
def on0 : On := { a := 0 }
/-- The operands of an event that names one part. -/
def on1 (a : Nat) : On := { a := a }
/-- Of one that names two parts. -/
def on2 (a b : Nat) : On := { a := a, b := b }
/-- Of one that names three parts. -/
def on3 (a b c : Nat) : On := { a := a, b := b, c := c }

/-- Time passes: each clock domain advances by a free number of cycles (log entry 2). -/
def State.elapse (s : State) : State :=
  { s with
    steps := s.steps + 1
    now := s.now + Config.elapsed 0 s.steps
    cpNow := s.cpNow + Config.elapsed 1 s.steps
    portNow := s.portNow + Config.elapsed 2 s.steps }

/-- The step's turn: on even steps the groups come before the engines, on odd steps after them (log entry 7). -/
def State.groupsFirst (s : State) : Bool := s.steps % 2 == 0

/-- A protection granule becomes uncorrectable (04_memory R66, R67). -/
def State.spoilAt (s : State) (k : Nat) (home : Bool) : State :=
  let p := protGranule home k
  if s.poison.contains p then s.fire else { s with poison := p :: s.poison }.fire

/-- A parity error in a 32-bit word of a line of an L1 (R66): the dirty bytes of the word are uncorrectable; its clean bytes are refetched
when they are next read. -/
def State.spoilLine (s : State) (core ln word : Nat) : State :=
  match (s.core core).line ln with
  | none => s
  | some l =>
    let m := byteMask (4 * (word % 32)) 4
    (s.setLine core { l with bad := l.bad ||| (l.dirty &&& m), present := l.present &&& ~~~(m &&& ~~~l.dirty) }).fire

/-- The host stores bytes into its own memory. -/
def State.hostStoreAt (s : State) (a : Nat) (bs : List Byte) : State :=
  { s with mem := Memory.setBytes s.mem (hostKey a) bs }.fire

/-- Cycles of one clock domain pass (18_platform R306). -/
def State.tickBy (s : State) (d n : Nat) : State :=
  if d = 0 then { s with now := s.now + n }
  else if d = 1 then { s with cpNow := s.cpNow + n }
  else { s with portNow := s.portNow + n }

/-- AtomicOp Requester Enable of the physical function (04_memory R65). -/
def State.setAtomicEnable (s : State) (b : Bool) : State :=
  { s with platform := { s.platform with atomicEnable := b } }.fire

/-! ## Engines that the opcode table has no row for -/

/-- The first CPYW that can send its next piece sends it. -/
def State.pumpStep (s : State) : State :=
  match s.copies.find? (fun p => !p.2.pieces.isEmpty && (s.pumpCopy p.1 p.2).fired != s.fired) with
  | none => s
  | some p => s.pumpCopy p.1 p.2

/-- Engine `c`: the sequencer of a core, or from 768 on the combine engines, CPYW requests, launches that end, held spawn records,
failed gatherings, ports that drain, the module that leaves, restores that wait for granules, an update's second core, and link control. -/
def State.engineStep (s : State) (c : Nat) : State :=
  if c < Config.nCores then s.seqStep c
  else if c = 768 then s.cmbStep
  else if c = 769 then s.pumpStep
  else if c = 770 then s.launchStep
  else if c = 771 then s.heldStep
  else if c = 772 then s.gatherStep
  else if c = 773 then s.portStep
  else if c = 774 then s.leaveStep
  else if c = 775 then s.restoreStep
  else if c = 776 then s.updateStep
  else s.linkStep

/-- The engines, in the order in which they are looked at. -/
def State.engineList (s : State) : List Nat := s.cores.keys ++ [768, 769, 770, 771, 772, 773, 774, 775, 776, 777]

/-! ## Events that may be due -/

/-- Events of one group. -/
def Group.events (k : Nat) (g : Group) : List (Instr × On) :=
  g.ops.map (fun o => (Instr.longLatencyComplete k o.id 0xFFFFFFFF, on0)) ++
    g.queues.map (fun q => (Instr.qgetFill, on2 k q.1)) ++
    g.waits.map (fun w => (Instr.statusWaitFill, on2 k w.1)) ++
    [(.barrierWaitEnd, on1 k), (.missedPromise, on1 k), (.collectiveFormation, on1 k), (.regnPerform, on1 k), (.ageCap, on1 k)]

/-- Events of one copy command. -/
def CopyCmd.events (k : Nat) (c : CopyCmd) : List (Instr × On) :=
  [(Instr.copyClaimGrant, on1 k), (.copyCommandStart, on1 k)] ++ c.held.map (fun u => (Instr.copyUnitRelease, on2 k u)) ++
    [(.copyCommandComplete, on1 k), (.stowComplete, on2 c.vd c.seg), (.restoreComplete, on2 c.vd c.seg)]

/-- Events of one launch. -/
def Launch.events (k : Nat) (l : Launch) : List (Instr × On) :=
  [(Instr.binRingAllocation, on1 k)] ++ l.bins.map (fun b => (Instr.binFlushTimerExpiry, on2 k b.1)) ++
    l.bins.map (fun b => (Instr.spawnGroupLaunch, on2 k b.1)) ++ [(.residencyHoldExpiry, on1 k), (.victimWaitExpiry, on1 k)]

/-- Events of one queue. -/
def queueEvents (vd q : Nat) : List (Instr × On) :=
  [Instr.abortedPacketRetire, .launch, .barrier, .barrierResolve, .signalAdd, .signalSet, .segmentStow, .segmentDrop,
    .segmentPin, .segmentUnpin, .marker, .packetAccept].map (fun i => (i, on2 vd q))

/-- Deadlines of the combine buffers of a virtual device. -/
def State.deadlines (s : State) (vd : Nat) : List (Instr × On) :=
  (s.cmbSegs vd).flatMap (fun p =>
    (List.range (s.cmbAt vd p.2).nslot).map (fun i => (Instr.combineDeadline, on3 vd p.1 i)))

/-- Events of one virtual device. -/
def State.vdevEvents (s : State) (vd : Nat) (v : VDev) : List (Instr × On) :=
  v.queues.flatMap (fun q => queueEvents vd q.1) ++
    [(Instr.teamPlacement, on1 vd), (.invalidationComplete, on1 vd), (.stopComplete, on1 vd), (.bufferedEventPost, on1 vd)] ++
    s.deadlines vd

/-- Everything that may be due; an event that is not due leaves the state unchanged (log entry 7). -/
def State.dueEvents (s : State) : List (Instr × On) :=
  s.arrivals ++
    s.groups.flatMap (fun p => Group.events p.1 p.2) ++
    s.copies.flatMap (fun p => CopyCmd.events p.1 p.2) ++
    s.teams.flatMap (fun p => [(Instr.drainBudgetExpiry, on1 p.1), (.saveEnd, on1 p.1), (.teamEnd, on1 p.1)]) ++
    s.launches.flatMap (fun p => Launch.events p.1 p.2) ++
    s.vdevs.flatMap (fun p => s.vdevEvents p.1 p.2) ++
    s.slots.flatMap (fun p => [(Instr.requestTimeout, on1 p.1), (.slotQuarantineEnd, on1 p.1)]) ++
    s.walks.map (fun w => (Instr.pageWalkComplete, on2 w.vd w.page)) ++
    s.gatherings.map (fun g => (Instr.fabricReduction g.vd g.at_, on0)) ++
    s.platform.jobs.map (fun c => (Instr.spareCoreSubstitution, on1 c)) ++
    s.platform.corrected.map (fun p => (Instr.sramRowRepair, on1 (p.1 / 8))) ++
    [(.heartbeat, on0), (.standbyTakeover, on0)]

/-! ## A first instruction (log entry 16) -/

/-- Where the first instruction stands: virtual address, physical page, page tables. -/
def bootVa : VA := 0x10000
/-- Physical address of the code page. -/
def bootPage : Nat := 0x60000

/-- Device memory with a page table of three levels that maps `bootVa`, and the word at its place. -/
def bootMem (m : List Host.Cell) (w : Nat) : List Host.Cell :=
  Memory.setBytes (Memory.setBytes (Memory.setBytes (Memory.setBytes m 0x20000 (leBytes 8 0x40001))
    0x40000 (leBytes 8 0x50001)) 0x50008 (leBytes 8 0x600B9)) bootPage (leBytes 4 w)

/-- A READY thread at `bootVa`. -/
def bootThread : Thread := { pc := bootVa, entry := bootVa, st := .ready }

/-- A key that no group or team has had. -/
def State.newKey (s : State) : Nat := max s.made (max s.groups.fresh s.teams.fresh)

/-- A group of 32 READY threads of a team of core 0 whose code holds the word, about to issue. -/
def State.place (s : State) (w : Nat) : State :=
  let t := s.newKey
  let k := t + 1
  let l := max (s.launchSeq + 1) s.launches.fresh
  let mem := bootMem s.mem w
  { s with
    mem := mem
    poison := []
    pointers := []
    vdevs := s.vdevs.set 0 { s.vdev 0 with live := true, root := 0x20001, keys := 0 }
    cores := s.cores.set 0 { s.core 0 with tlb := [] }
    clusters := s.clusters.set 0 { s.cluster 0 with tlb := [] }
    launchSeq := l
    launches := s.launches.set l
      { image := mem.filter (fun c => isDeviceKey c.1), code := bootVa, entryP := bootVa, eligible := true,
        started := true, next := 1, fates := [(0, .placed)] }
    made := t + 2
    teams := s.teams.set t { launch := l, groups := [k], launched := 32 }
    groups := s.groups.set k { team := t, live := true, threads := threadIds.map (fun i => (i, bootThread)) }
    platform := { s.platform with power := true, bootFailed := false }
    agenda := .issue k :: s.agenda }

end Sys2Proof.Machine
end

