-- ==== Sys2Proof/Machine/HostReads.lean ====
section
/-! DEFINITION. What the host reads in the windows of a function (17_command R282): the register blocks of BAR0 (04_memory R62,
11_fabric R185, R283, R284), the journal window of BAR2 (R295) and the segment directory window of BAR4 (05_slices R74). -/

namespace Sys2Proof.Machine

/-- The translation block; HOST_ATOMICS exists in the physical function alone (R62). -/
def VDev.xlateWord (v : VDev) (hostAtomics : Nat) (o : Nat) : Nat :=
  if o = 0x00 then v.root.toNat
  else if o = 0x08 then v.keys.toNat
  else if o = 0x10 then v.invVa.toNat
  else if o = 0x18 then v.invCount.toNat * 2 ^ 32 + bitNat v.invErr * 2 ^ 3 + v.invScope.toNat * 2 + bitNat v.invBusy
  else if o = 0x20 then hostAtomics
  else 0

/-- The fabric block (R185). -/
def VDev.fabricWord (v : VDev) (o : Nat) : Nat :=
  if o = 0x00 then v.fabGrid.toNat
  else if o = 0x08 then v.fabCoord.toNat
  else if o = 0x10 then v.fabWtab.toNat
  else if o = 0x18 then v.fabItab.toNat
  else 0

/-- The control block (R283); DBDATA is read by `State.barRead`. -/
def VDev.controlWord (v : VDev) (o : Nat) : Nat :=
  if o = 0x00 then v.evBase.toNat
  else if o = 0x08 then bitNat v.evEn * 2 ^ 16 + v.evVec.toNat * 2 ^ 8 + v.evLog2n % 32
  else if o = 0x10 then v.stowBase.toNat
  else if o = 0x18 then v.stowLen.toNat
  else if o = 0x20 then v.dbm.toNat + bitNat v.track
  else if o = 0x28 then v.dbIdx
  else if o = 0x38 then v.tflSeq.toNat
  else if o = 0x40 then v.tfCmd.toNat
  else if o = 0x48 then v.capBase.toNat
  else if o = 0x50 then v.capLen.toNat
  else if o = 0x58 then v.jseq
  else if o = 0x60 then bitNat v.stopped * 2 + bitNat v.run
  else if 0x80 ≤ o ∧ o < 0x80 + 8 * 48 ∧ o % 8 = 0 then v.drain.get ((o - 0x80) / 8) 65536
  else 0

/-- The code of a queue's state in QSTAT (R284). -/
def QState.code : QState → Nat
  | .stopped => 0
  | .running => 1
  | .halted => 2
  | .aborted => 3

/-- A queue block (R284). -/
def HQueue.blockWord (x : HQueue) (o : Nat) : Nat :=
  if o = 0x00 then x.base.toNat
  else if o = 0x08 then bitNat x.age * 2 ^ 6 + bitNat x.en * 2 ^ 5 + x.log2n % 32
  else if o = 0x10 then x.widxAt.toNat
  else if o = 0x18 then x.ridx
  else if o = 0x20 then x.pidx.toNat * 2 ^ 32 + min x.errCount 0xFFFF * 2 ^ 16 + x.cause.toNat * 2 ^ 8 + x.state.code
  else 0

/-- The 64-bit word of BAR0 at a multiple of 8; an unlisted offset reads 0. -/
def VDev.bar0 (v : VDev) (hostAtomics o : Nat) : Nat :=
  if o < 0x1000 then v.xlateWord hostAtomics o
  else if o < 0x2000 then v.fabricWord (o - 0x1000)
  else if o < 0x4000 then v.controlWord (o - 0x2000)
  else if o < 0x4000 + 64 * 64 then (v.queues.get ((o - 0x4000) / 64) {}).blockWord (o % 64)
  else 0

/-- The word of BAR2 at a multiple of 8: the record with sequence n lies at 32 × (n mod records). -/
def VDev.bar2 (v : VDev) (vd o : Nat) : Nat :=
  match v.journal.find? (fun r => r.seq % v.journalSize == o / 32) with
  | none => 0
  | some r =>
    if o / 32 ≥ v.journalSize then 0
    else if o % 32 = 0 then r.seq
    else if o % 32 = 8 then (r.word1 vd).toNat
    else if o % 32 = 16 then r.a.toNat
    else r.b.toNat

/-- The word of BAR4 at a multiple of 8: descriptor n at 32n. -/
def VDev.bar4 (v : VDev) (o : Nat) : Nat :=
  if o / 32 < 4096 then ((v.segs.get (o / 32) {}).word (o % 32 / 8)).toNat else 0

/-- The word of a window of virtual device `vd` at a multiple of 8. -/
def State.barWord (s : State) (vd bar o : Nat) : Nat :=
  let v := s.vdev vd
  if bar = 0 then v.bar0 (if vd = 0 then s.platform.hostAtomics.toNat else 0) o
  else if bar = 2 then v.bar2 vd o
  else if bar = 4 then v.bar4 o
  else 0

/-- Bytes of a window. -/
def State.barBytes (s : State) (vd bar o n : Nat) : List Byte :=
  (List.range n).map (fun i => BitVec.ofNat 8 (s.barWord vd bar ((o + i) / 8 * 8) / 2 ^ (8 * ((o + i) % 8))))

/-- The host reads `n` bytes of a BAR of a function: one that begins at DBDATA takes and clears the bitmap word (R299), every other
changes nothing. -/
def State.barRead (s : State) (vd bar o n : Nat) : State :=
  if !(s.vdev vd).live then s
  else if bar = 0 ∧ o = 0x2030 then (let t := s.readDbdata vd; { t with hostReply := (t.hostReply.1.take n, t.hostReply.2) })
  else { s with hostReply := (s.barBytes vd bar o n, false) }.fire

end Sys2Proof.Machine
end

