-- ==== Sys2Proof/Machine/SaveArea.lean ====
section
/-! DEFINITION. The save area of a saved team as bytes, and the checks of a restore that firmware directs (15_faults R268 to R270,
07_registers R119, 13_execution R242, 10_table R171, R182, 12_consistency R212, 06_copy R86). -/

namespace Sys2Proof.Machine

/-! ## Blocks -/

/-- 64-bit words, little-endian. -/
def wordBytes (ws : List W64) : List Byte := ws.flatMap (fun w => leBytes 8 w.toNat)

/-- Words given as numbers, then zeros up to `n` bytes. -/
def blockOfWords (n : Nat) (ws : List Nat) : List Byte :=
  ws.flatMap (leBytes 8) ++ List.replicate (n - 8 * ws.length) 0

/-- The two-bit codes of registers `lo` on, one after the other. -/
def stateCodes (code : Nat → Nat) (lo n : Nat) : Nat := (List.range n).foldl (fun m i => m + code (lo + i) * 4 ^ i) 0

/-- The state code (07_registers R101). -/
def Full.code : Full → Nat
  | .full => 0
  | .pending => 1
  | .empty => 2
  | .faulted => 3

/-- The state code (13_execution R228). -/
def TState.code : TState → Nat
  | .ready => 0
  | .wait => 1
  | .parked => 2
  | .exited => 3
  | .absent => 4

/-- A binding table (12_consistency R212): 520 bytes. -/
def Team.bindingWords (t : Team) : List Nat :=
  let entry (n : Nat) : List Nat := match t.bindings.find n with
    | none => [0, 0, 0, 0]
    | some b => [b.obj.toNat, b.base.toNat, b.len.toNat, 0]
  (bitNat t.ovf * 2 ^ 16 + (List.range 16).foldl (fun m n => m + bitNat (t.bindings.find n).isSome * 2 ^ n) 0) ::
    (List.range 16).flatMap entry

/-- The words of a descriptor (06_copy R86). -/
def CopyDesc.toWords (d : CopyDesc) : List Nat :=
  [d.src.toNat, d.dst.toNat, d.sstride.toNat + d.dstride.toNat * 2 ^ 32,
   d.len.toNat + d.qfmt.toNat * 2 ^ 32 + bitNat d.qin * 2 ^ 34, d.idx.toNat, d.aux.toNat, d.pat.toNat, d.tag.toNat]

/-- The opcode of a copy word (02_encoding R29). -/
def CopyKind.opcode : CopyKind → Nat
  | .cpy => 0x38
  | .cpys => 0x39
  | .cpyg => 0x3A
  | .cpyx => 0x3B
  | .cpyq => 0x3C
  | .cpywPut => 0x3D
  | .cpywGet => 0x3D
  | .stow => 0
  | .restore => 0

/-- A copy record; `group` is the index of the issuing group in its team. -/
def CopyCmd.record (c : CopyCmd) (group : Nat) : List Byte :=
  blockOfWords 128 (c.desc.toWords ++
    [c.kind.opcode + c.cb * 2 ^ 8 + bitNat c.np * 2 ^ 14 + bitNat (c.kind == .cpywGet) * 2 ^ 15 + group * 2 ^ 16, c.count])

/-- The words of a shape record (10_table R168). -/
def Shape.toWords (h : Shape) : List Nat :=
  [h.abase.toNat, h.bbase.toNat, h.astep.toNat + h.bstep.toNat * 2 ^ 32, h.ars.toNat, h.rcp.toNat,
   h.ks * 2 ^ 48 + h.s0 * 2 ^ 32 + h.ne * 2 ^ 24 + h.ns * 2 ^ 21 + bitNat h.strict * 2 ^ 20 + bitNat h.sp * 2 ^ 19 +
     bitNat h.kind * 2 ^ 18 + (h.p - 1) * 2 ^ 15 + (h.mb - 1) * 2 ^ 8 + h.bfmt * 2 ^ 4 + h.afmt, 0, 0]

/-- The sequence runs steps of its shape record. -/
def SeqKind.steps : SeqKind → Bool
  | .tbld => false
  | .tbld4 => false
  | .tinv => false
  | .tspl => false
  | .tfil => false
  | .mloop => true
  | .mloop4 => true
  | .mstep => true

/-- A sequencer record: the word, the row count, and the shape record with S0 at the next step. -/
def SeqCmd.record (q : SeqCmd) : List Byte :=
  let w := match q.word with
    | none => 0
    | some i => i.enc.getD 0
  blockOfWords 64 [w, q.rows] ++ blockOfWords 64 (if q.kind.steps then { q.shape with s0 := q.step } else q.shape).toWords

/-- An accumulator (07_registers R119): 8 KiB, row-major. -/
def Acc.bytes (a : Acc) : List Byte := (List.range 2048).flatMap (fun i => leBytes 4 (a.vals.get i 0).toNat)

/-! ## A group's block (R269) -/

/-- A status wait (07_registers R119). -/
def statusWord (w : Nat × StatusKind) : Nat :=
  w.1 + 2 ^ 6 + (match w.2 with
    | .cpyst cb => cb * 2 ^ 9
    | .mstat sel _ => 2 ^ 7 + sel * 2 ^ 19
    | .binfl bin => 2 * 2 ^ 7 + bin * 2 ^ 13)

/-- An entry of an operand queue: 128 bytes. -/
def QEntry.bytes (e : QEntry) : List Byte :=
  match e with
  | .perThread vals => (List.range 32).flatMap (fun t => leBytes 4 (vals.getD t 0).toNat)
  | .uniform v => blockOfWords 128 [v.toNat]

/-- The entry is of the uniform kind. -/
def QEntry.isUniform : QEntry → Bool
  | .perThread _ => false
  | .uniform _ => true

/-- A queue (07_registers R119): header and four entries, 544 bytes. -/
def Queue.bytes (q : Queue) : List Byte :=
  let kinds := (List.range 4).foldl (fun m i => m + bitNat ((q.entries.map QEntry.isUniform).getD i false) * 2 ^ i) 0
  let regs := (List.range 4).foldl (fun m i => m + ((q.gets.map (fun x => x.1)).getD i 0) * 64 ^ i) 0
  blockOfWords 32 [q.entries.length + bitNat q.closed * 2 ^ 3 + kinds * 2 ^ 4 + q.gets.length * 2 ^ 8 + regs * 2 ^ 11] ++
    q.entries.flatMap QEntry.bytes ++ List.replicate (128 * (4 - q.entries.length)) 0

/-- A thread's words in the thread table (13_execution R242). -/
def Thread.tableWords (x : Thread) : List Nat :=
  [x.pc.toNat, x.entry.toNat, x.st.code + bitNat x.wsat * 2 ^ 3 + x.stack.length * 2 ^ 4, 0]

/-- A thread's return stack, entry 0 the oldest (13_execution R242): 128 bytes. -/
def Thread.stackBytes (x : Thread) : List Byte := blockOfWords 128 (x.stack.reverse.map BitVec.toNat)

/-- A fault record: 32 bytes. -/
def FaultRec.bytes (r : FaultRec) : List Byte := wordBytes ((List.range 4).map r.word)

/-- The CSR block; `open_` is the buffer base on which a CMBOPEN of the group waited. -/
def Group.csrWords (g : Group) (open_ : Option W64) : List Nat :=
  [g.fpm.toNat, g.klen.toNat, g.abase.toNat, g.wsel.toNat, g.wpat.toNat, g.regctr.toNat, g.gentag.toNat, g.trapcause.toNat,
   g.trapaddr.toNat, g.trappc.toNat, g.trapmask.toNat, bitNat g.trap + bitNat g.report * 2 + bitNat g.fw * 4,
   g.rerrCause.toNat * 2 ^ 56 + g.rerrCount.toNat * 2 ^ 40,
   (match g.sleepLeft with
    | none => 0
    | some n => 2 ^ 63 + n % 2 ^ 48),
   (match open_ with
    | none => 0
    | some b => 2 ^ 63 + b.toNat % 2 ^ 56), 0]

/-- The 32-bit words of the predicates and conditions (07_registers R119). -/
def Group.predWords (g : Group) : List Nat :=
  (List.range 7).map (fun k => (List.range 32).foldl (fun m t => m + bitNat ((g.thread t).preds.getLsbD (k + 1)) * 2 ^ t) 0) ++
    [g.conds.toNat / 2 * 2 + 1]

/-- A group block of budget `g.budget`: 11,328 bytes and 136 for each vector register. -/
def Group.block (g : Group) (open_ : Option W64) : List Byte :=
  let threads := (List.range 32).map g.thread
  blockOfWords 128 (g.csrWords open_) ++
    g.fault.bytes ++ List.replicate 32 0 ++
    blockOfWords 64 (g.agen :: g.waits.map statusWord) ++
    blockOfWords 64 [stateCodes (fun r => (g.regState r).code) 0 32, stateCodes (fun r => (g.regState r).code) 32 24] ++
    g.predWords.flatMap (leBytes 4) ++ List.replicate 32 0 ++
    blockOfWords 448 ((List.range 56).map (fun r => (g.reg r).toNat)) ++
    threads.flatMap (fun x => x.fault.bytes) ++
    threads.flatMap (fun x => blockOfWords 32 x.tableWords) ++
    threads.flatMap Thread.stackBytes ++
    (List.range 8).flatMap (fun q => (g.queue q).bytes) ++
    (List.range g.budget).flatMap (fun r => leBytes 8 (stateCodes (fun t => ((g.thread t).regState r).code) 0 32)) ++
    (List.range g.budget).flatMap (fun r => threads.flatMap (fun x => leBytes 4 (x.reg r).toNat))

/-- Bytes of a group block. -/
def blockLen (budget : Nat) : Nat := 11328 + 136 * budget

/-! ## The area (R268) -/

/-- The groups of a saved team, in ascending index. -/
def SavedTeam.inOrder (x : SavedTeam) : List (Nat × Group) := sortBy (fun a b => decide (a.2.idx ≤ b.2.idx)) x.groups

/-- Offset of the first group block. -/
def SavedTeam.groupsAt (x : SavedTeam) : Nat :=
  0x780 + 128 * x.copies.length + 128 * x.seqs.length + 8192 * x.team.nAccs + 0x10000 * x.team.nScratch

/-- Offsets of the blocks of groups with these budgets. -/
def blockOffsets (at_ : Nat) (budgets : List Nat) : List Nat :=
  match budgets with
  | [] => []
  | b :: r => at_ :: blockOffsets (at_ + blockLen b) r

/-- The header: 512 bytes; `prio` is the resident priority (14_scheduling R244). A spawn group has no role, so its budget is the sole
one. -/
def SavedTeam.header (x : SavedTeam) (l : Launch) (aging : Bool) (prio : Nat) : List Byte :=
  let t := x.team
  let gs := x.inOrder
  let nP := gs.countP (fun p => p.2.role == 1)
  let roles := l.roles && t.spawnBin.isNone
  let entry (p : Nat × (Nat × Group)) : Nat :=
    p.1 + p.2.2.budget / 8 * 2 ^ 32 + p.2.2.role * 2 ^ 38 + p.2.2.roleIdx * 2 ^ 40
  blockOfWords 512
    ([2 ^ 56 + gs.length * 2 ^ 40 + nP * 2 ^ 32 + (if roles then t.budgets.1 else 0) * 2 ^ 24 +
        (if roles then t.budgets.2 else (gs.map (fun p => p.2.budget)).headD t.budgets.1) * 2 ^ 16 + t.nTiles * 2 ^ 12 + t.nAccs * 2 ^ 7 + t.nScratch,
      x.copies.length * 2 ^ 48 + x.seqs.length * 2 ^ 32 + gs.foldl (fun m p => m + p.2.posted.flatten.length) 0 % 2 ^ 16 * 2 ^ 16 +
        bitNat l.idem * 2 ^ 7 + bitNat aging * 2 ^ 6 + prio % 64,
      t.progress % 2 ^ 48, t.launch % 2 ^ 32 * 2 ^ 32, t.index % 2 ^ 48, l.hint,
      (match t.spawnBin with
        | none => 0
        | some n => 2 ^ 63 + n % 64 * 2 ^ 56), 0] ++
    ((blockOffsets x.groupsAt (gs.map (fun p => p.2.budget))).zip gs).map entry)

/-- The bytes of a save area. -/
def SavedTeam.bytes (x : SavedTeam) (l : Launch) (aging : Bool) (prio : Nat) : List Byte :=
  let t := x.team
  let idx (k : Nat) : Nat := (x.groups.get k {}).idx
  x.header l aging prio ++
    (List.range 16).flatMap (fun n => wordBytes [(t.cb n).word0, (t.cb n).word1]) ++
    blockOfWords 0x240 t.bindingWords ++
    blockOfWords 64 [(List.range t.nAccs).foldl (fun m n => m + bitNat (t.accs.get n {}).full * 2 ^ n) 0] ++
    (List.range 8).flatMap (fun n => if n < t.nTiles then wordBytes (t.tile n).words else List.replicate 64 0) ++
    x.copies.flatMap (fun c => c.record (idx c.group)) ++
    x.seqs.flatMap SeqCmd.record ++
    (List.range t.nAccs).flatMap (fun n => (t.accs.get n {}).bytes) ++
    Memory.getBytes x.scratchBytes 0 (0x10000 * t.nScratch) ++
    x.inOrder.flatMap (fun p => p.2.block (x.opens.find p.1))

/-- The save area of saved team `tk` of a virtual device, as its bytes stand (R268). -/
def State.saveArea (s : State) (vd tk : Nat) : Option (List Byte) :=
  match (s.vdev vd).saved.find tk with
  | none => none
  | some x =>
    let l := s.launch x.team.launch
    some (x.bytes l (s.hqueue vd l.queue).age (s.residentPrio x.team))

/-! ## The checks of a restore (R270) -/

/-- The 64-bit word at an offset. -/
def wordIn (bs : List Byte) (at_ : Nat) : W64 := BitVec.ofNat 64 (leValue ((bs.drop at_).take 8))

/-- Every byte of a range is 0. -/
def zeroIn (bs : List Byte) (at_ n : Nat) : Bool := ((bs.drop at_).take n).all (· == 0)

/-- A fault record's reserved byte is 0, and a record that is not valid is all zeros (R259). -/
def recordOk (bs : List Byte) (at_ : Nat) : Bool :=
  (wordIn bs (at_ + 16)).field 56 8 == 0 && ((wordIn bs (at_ + 24)).bit 31 || zeroIn bs at_ 32)

/-- A thread's words in the table, and its stack (13_execution R242). -/
def threadOk (bs : List Byte) (at_ t : Nat) : Bool :=
  let w := wordIn bs (at_ + 0x740 + 32 * t + 16)
  let depth := w.field 4 5
  (wordIn bs (at_ + 0x740 + 32 * t)).field 56 8 == 0 && (wordIn bs (at_ + 0x740 + 32 * t + 8)).field 56 8 == 0 &&
    decide (w.field 0 3 ≤ 4) && decide (depth ≤ 16) && w.field 9 55 == 0 && wordIn bs (at_ + 0x740 + 32 * t + 24) == 0 &&
    (List.range 16).all (fun e =>
      let a := wordIn bs (at_ + 0xB40 + 128 * t + 8 * e)
      if e < depth then a.field 56 8 == 0 else a == 0)

/-- A queue's header and entries (07_registers R119). -/
def queueOk (bs : List Byte) (at_ : Nat) : Bool :=
  let w := wordIn bs at_
  let n := w.field 0 3
  let p := w.field 8 3
  decide (n ≤ 4) && decide (p ≤ 4) && w.field 35 29 == 0 && zeroIn bs (at_ + 8) 24 &&
    (List.range 4).all (fun i =>
      (decide (i < n) || (!w.bit (4 + i) && zeroIn bs (at_ + 32 + 128 * i) 128)) &&
      (decide (i < p) || w.field (11 + 6 * i) 6 == 0) &&
      (!w.bit (4 + i) || zeroIn bs (at_ + 32 + 128 * i + 8) 120))

/-- A status wait: an unused word is 0, and no kind 3 (07_registers R119). -/
def statusOk (w : W64) : Bool := if w.bit 6 then w.field 21 43 == 0 && w.field 7 2 != 3 else w == 0

/-- The registers whose PENDING state a queue header or a status wait lists. -/
def pendingListed (bs : List Byte) (at_ : Nat) : List Nat :=
  (List.range 8).flatMap (fun q =>
    let w := wordIn bs (at_ + 0x1B40 + 544 * q)
    (List.range (w.field 8 3)).map (fun i => w.field (11 + 6 * i) 6)) ++
  ((List.range 7).map (fun i => wordIn bs (at_ + 0xC8 + 8 * i))).filterMap (fun w => if w.bit 6 then some (w.field 0 6) else none)

/-- A group block is in order. -/
def groupOk (bs : List Byte) (at_ budget : Nat) : Bool :=
  let csr (i : Nat) : W64 := wordIn bs (at_ + 8 * i)
  let listed := pendingListed bs at_
  fpmOk (csr 0) && csrValueOk 2 (csr 1) && (csr 5).field 9 23 == 0 && (csr 6).field 16 48 == 0 && (csr 7).field 8 56 == 0 && (csr 9).field 56 8 == 0 &&
    (csr 10).field 32 32 == 0 && (csr 11).field 3 61 == 0 && (csr 12).field 0 40 == 0 && (csr 13).field 48 15 == 0 &&
    (csr 14).field 56 7 == 0 && csr 15 == 0 && recordOk bs (at_ + 0x80) && zeroIn bs (at_ + 0xA0) 32 &&
    (wordIn bs (at_ + 0xC0)).field 3 61 == 0 && (List.range 7).all (fun i => statusOk (wordIn bs (at_ + 0xC8 + 8 * i))) &&
    (wordIn bs (at_ + 0x108)).field 48 16 == 0 && zeroIn bs (at_ + 0x110) 48 &&
    (wordIn bs (at_ + 0x158)).field 36 28 == 0 && (wordIn bs (at_ + 0x158)).bit 32 && zeroIn bs (at_ + 0x160) 32 &&
    (List.range 56).all (fun r => (wordIn bs (at_ + 0x100 + 8 * (r / 32))).field (2 * (r % 32)) 2 != 1 || listed.contains r) &&
    (List.range 32).all (fun t => recordOk bs (at_ + 0x340 + 32 * t) && threadOk bs at_ t) &&
    (List.range 8).all (fun q => queueOk bs (at_ + 0x1B40 + 544 * q)) &&
    (List.range budget).all (fun r => (List.range 32).all (fun t => (wordIn bs (at_ + 0x2C40 + 8 * r)).field (2 * t) 2 != 1))

/-- The binding table is in order (12_consistency R212). -/
def bindingsOk (bs : List Byte) (at_ : Nat) : Bool :=
  let w := wordIn bs at_
  w.field 17 47 == 0 && (List.range 16).all (fun n =>
    wordIn bs (at_ + 0x20 + 32 * n) == 0 &&
      (if w.bit n then wordIn bs (at_ + 0x18 + 32 * n) != 0 else zeroIn bs (at_ + 8 + 32 * n) 24)) && zeroIn bs (at_ + 520) 56

/-- A copy record (R268): reserved fields of the descriptor (06_copy R86) and of the record. -/
def copyRecordOk (bs : List Byte) (at_ : Nat) : Bool :=
  (wordIn bs (at_ + 0x18)).field 35 29 == 0 && (wordIn bs (at_ + 0x38)).field 32 32 == 0 &&
    (wordIn bs (at_ + 0x40)).field 21 43 == 0 && zeroIn bs (at_ + 0x50) 0x30

/-- A sequencer record (R268): the word, the row count, and the reserved fields of the shape record (10_table R168). -/
def seqRecordOk (bs : List Byte) (at_ : Nat) : Bool :=
  (wordIn bs at_).field 32 32 == 0 && (wordIn bs (at_ + 8)).field 32 32 == 0 && zeroIn bs (at_ + 0x10) 0x30 &&
    (wordIn bs (at_ + 0x58)).field 32 32 == 0 && (wordIn bs (at_ + 0x68)).field 12 3 == 0 && zeroIn bs (at_ + 0x70) 16

/-- The groups that a header declares: offset, budget, role and index in role. -/
def headerGroups (bs : List Byte) : List (Nat × Nat × Nat × Nat) :=
  (List.range ((wordIn bs 0).field 40 8)).map (fun g =>
    let w := wordIn bs (0x40 + 8 * g)
    (w.field 0 32, 8 * w.field 32 6, w.field 38 2, w.field 40 5))

/-- VER is 1, and no reserved field or check of R119, R212 or R242 fails (R270). -/
def areaOk (bs : List Byte) : Bool :=
  let h := wordIn bs 0
  let n := h.field 40 8
  h.field 56 8 == 1 && h.field 48 8 == 0 && decide (1 ≤ n) && decide (n ≤ 32) && decide (h.field 12 4 ≤ 8) &&
    decide (h.field 7 5 ≤ 16) && decide (h.field 0 7 ≤ 40) && (wordIn bs 8).field 8 8 == 0 && (wordIn bs 0x10).field 48 16 == 0 &&
    (wordIn bs 0x18).field 0 32 == 0 && (wordIn bs 0x20).field 48 16 == 0 && (wordIn bs 0x30).field 0 56 == 0 &&
    !(wordIn bs 0x30).bit 62 && wordIn bs 0x38 == 0 && zeroIn bs (0x40 + 8 * n) (0x1C0 - 8 * n) &&
    (List.range n).all (fun g => (wordIn bs (0x40 + 8 * g)).field 45 19 == 0 && (wordIn bs (0x40 + 8 * g)).field 38 2 != 3) &&
    (List.range 16).all (fun c => !(wordIn bs (0x200 + 16 * c)).bit 36) && bindingsOk bs 0x300 &&
    (wordIn bs 0x540).field 16 48 == 0 && zeroIn bs 0x548 56 &&
    (List.range 8).all (fun t => if t < h.field 12 4 then descriptorOk (fun i => wordIn bs (0x580 + 64 * t + 8 * i))
      else zeroIn bs (0x580 + 64 * t) 64) &&
    (List.range ((wordIn bs 8).field 48 16)).all (fun i => copyRecordOk bs (0x780 + 128 * i)) &&
    (List.range ((wordIn bs 8).field 32 16)).all (fun i => seqRecordOk bs (0x780 + 128 * ((wordIn bs 8).field 48 16 + i))) &&
    (headerGroups bs).all (fun g => groupOk bs g.1 g.2.1)

/-- What the header declares. -/
def headerNeed (bs : List Byte) : Need :=
  let h := wordIn bs 0
  { budgets := (headerGroups bs).map (fun g => g.2.1), tiles := h.field 12 4, accs := h.field 7 5, scratch := h.field 0 7 }

/-- A restore of an area onto a core is refused with RESTORE_CAPACITY (R270); `kept` says that the scratch granules stand reserved for the
team (18_platform R312). -/
def State.restoreRefused (s : State) (core : Nat) (bs : List Byte) (kept : Bool) : Bool :=
  let l := (wordIn bs 0x18).field 32 32
  !areaOk bs || !s.fitsWithout core (headerNeed bs) [] (!kept) ||
    ((wordIn bs 0x30).bit 63 && (match s.launches.find l with
      | none => true
      | some x => x.retired))

/-- Firmware directs the restore of saved team `tk` onto a core from the bytes of its save area (14_scheduling R246, R270). A refusal
leaves the context saved and posts RESTORE_REFUSED (17_command R293); a core out of service, of another virtual device or not the
spare that waits for the team has no room for it. What is restored is the saved team, and while a claim holds up a write-back the
command does nothing (DESIGN CHOICE, log entry 64). -/
def State.firmwareRestore (s : State) (vd tk core : Nat) (bs : List Byte) : State :=
  match (s.vdev vd).saved.find tk with
  | none => s
  | some x =>
    let spare := x.team.onto
    let need := if spare.isSome then { x.need with scratch := 0 } else x.need
    if (s.teams.find tk).isSome then s
    else if !(s.vdCores vd).contains core || spare.any (· != core) || s.restoreRefused core bs spare.isSome ||
        !s.fitsWithout core need [] true then (s.postTeam x.team 5 (Cause.code .restoreCapacity)).fire
    else
      match s.restoreTeam vd tk core with
      | none => s
      | some s1 => s1.fire

end Sys2Proof.Machine
end

