-- ==== Sys2Proof/Machine/Turn.lean ====
section
/-! DEFINITION. What a step can be: an action of the agenda, a wait to be settled, the next word that a group issues, or the next
event that is due (log entry 7). -/

namespace Sys2Proof.Machine

/-- The word that a group has fetched is decoded, checked and performed. -/
def State.perform (s : State) (k : Nat) (pc : VA) (w : W32) : Host.Outcome State Fault Refusal :=
  let s2 := s.touchFetch k pc
  match decode w with
  | .error .illegalOpcode => exec (.illegalOpcodeWord w) s2
  | .error (.reservedField i) =>
    .next (s2.rejectWord w (if s2.grp.wordPrivileged i then .privileged else .reservedField))
  | .ok i =>
    if s2.grp.wordPrivileged i then .next (s2.rejectWord w .privileged)
    else if s2.heldByAcquire k w then .next (s2.stall i)
    else exec i s2

/-- A group issues its next word: fetch, decode, the checks of 02_encoding R24 that the word decides, then its meaning. A promise
that has fallen due comes first (06_copy R91). -/
def State.issue (s : State) (k : Nat) : Host.Outcome State Fault Refusal :=
  match s.promiseDue k with
  | some _ => exec .missedPromise { s with on := on1 k }
  | none =>
    let s1 := s.begin k
    match s1.grp.issuePc with
    | none => .next s
    | some pc =>
      if s1.fetchWaits k pc then .next { s with stalled := if s.stalled.contains k then s.stalled else k :: s.stalled }
      else
        match s1.fetchWord k pc with
        | .error f => .next (s1.issued k false (s1.trap f))
        | .ok w =>
          match s1.perform k pc w with
          | .next t => .next (s1.issued k true t)
          | .fault f => .fault f
          | .refused r => .refused r

/-- An event comes about. -/
def State.event (s : State) (i : Instr) (on : On) : Host.Outcome State Fault Refusal := exec i { s with on := on }

/-- The group may issue a word now. -/
def State.mayIssue (s : State) (k : Nat) : Bool :=
  (s.group k).live && !(s.group k).held && s.goesOn k

/-- One action. -/
def State.act (s : State) (a : Action) : Host.Outcome State Fault Refusal :=
  match a with
  | .issue k => if s.mayIssue k then s.issue k else .next s
  | .event i on => s.event i on
  | .engine c => .next (s.engineStep c)
  | .spoil k home => .next (s.spoilAt k home)
  | .spoilL1 c l w => .next (s.spoilLine c l w)
  | .hostStore a bs => .next (s.hostStoreAt a bs)
  | .tick d n => .next (s.tickBy d n)
  | .hostConfig b => .next (s.setAtomicEnable b)
  | .manage vd r => .next (s.manage vd r)
  | .linkError p tag => .next (s.linkError p tag)
  | .oddFlit p vc kind => .next (s.oddFlit p vc kind)
  | .protect b => .next (s.protect b)
  | .image n ok => .next (s.setImage n ok)
  | .coreError c => .next (s.coreError c)
  | .channelLimit n => .next (s.setChannelLimit n)
  | .firmwareLaunch vd q ws ext => .next (s.firmwareLaunch vd q ws ext)
  | .firmwareRestore vd tk c bs => .next (s.firmwareRestore vd tk c bs)
  | .barRead vd bar o n => .next (s.barRead vd bar o n)

/-- The first event of a list that has an effect. -/
def State.firstDue (s : State) (l : List (Instr × On)) : Option (Host.Outcome State Fault Refusal) :=
  match l with
  | [] => none
  | e :: r =>
    match s.event e.1 e.2 with
    | .next s' => if s'.fired = s.fired then s.firstDue r else some (.next s')
    | .fault f => some (.fault f)
    | .refused x => some (.refused x)

/-- The first engine step that has an effect. -/
def State.firstEngine (s : State) (l : List Nat) : Option (Host.Outcome State Fault Refusal) :=
  match l with
  | [] => none
  | c :: r => if (s.engineStep c).fired = s.fired then s.firstEngine r else some (.next (s.engineStep c))

/-- An engine, a timer or a waiting agent takes the step, if one is due. -/
def State.engines (s : State) : Option (Host.Outcome State Fault Refusal) :=
  match s.firstDue s.dueEvents with
  | some o => some o
  | none => s.firstEngine s.engineList

/-- A wait of group `k` of team `tk` is settled with the decision to save: one more attempt of its word or collective
(14_scheduling R255). A copy word that waits for its claim looks at the claim itself first. -/
def State.settle (s : State) (tk k : Nat) : Host.Outcome State Fault Refusal :=
  let a := (match (s.group k).copyWait with
    | none => s
    | some n => (match s.event .copyClaimGrant (on1 n) with
      | .next t => t
      | .fault _ => s
      | .refused _ => s)).forSettling tk
  match (if (s.group k).waitWord.isSome then a.issue k else a.event .collectiveFormation (on1 k)) with
  | .next t => .next (s.settled t tk k)
  | .fault f => .fault f
  | .refused r => .refused r

/-- Nothing can act: the groups that wait may look again, for time has passed. -/
def State.idle (s : State) : State := { s with stalled := [] }

/-- What happens when the agenda is empty. -/
def State.ownStep (s : State) : Host.Outcome State Fault Refusal :=
  match s.settling with
  | some (tk, k) => s.settle tk k
  | none =>
    if s.groupsFirst then
      match s.arbitrate with
      | some k => s.issue k
      | none => s.engines.getD (.next s.idle)
    else
      match s.engines with
      | some o => o
      | none =>
        match s.arbitrate with
        | some k => s.issue k
        | none => .next s.idle

/-- The action puts the module under power again (18_platform R307). -/
def Action.isBoot : Action → Bool
  | .event .powerGoodBoot _ => true
  | _ => false

/-- The action is sideband management (18_platform R307, R310). -/
def Action.isSideband : Action → Bool
  | .event (.platformMonitoringAndControl _) _ => true
  | .event (.firmwareUpdate _ _) _ => true
  | .image _ _ => true
  | _ => false

/-- One step of the machine. Without power it does nothing until it boots; a module whose boot was refused answers only sideband
management (18_platform R307, R309). -/
def State.advanceOne (s : State) : Host.Outcome State Fault Refusal :=
  let s1 := s.elapse
  match s1.agenda with
  | a :: r =>
    let s2 := { s1 with agenda := r }
    if a.isBoot then s2.act a
    else if !s1.platform.power then .fault .powerOff
    else if s1.platform.bootFailed && !a.isSideband then .next s2
    else s2.act a
  | [] =>
    if !s1.platform.power then .fault .powerOff
    else if s1.platform.bootFailed then .next s1
    else s1.ownStep

end Sys2Proof.Machine
end

