-- ==== Sys2Proof/Machine/Step.lean ====
section
/-! DEFINITION. One step of the machine. -/

namespace Sys2Proof.Machine

/-- One step of the machine: time passes, then the next action of the agenda, or what the machine does of its own. -/
def step (s : State) : Host.Outcome State Fault Refusal := s.advanceOne

/-- The state in which the very next step issues the word `w`. -/
def State.withFetchWord (s : State) (nbits w : Nat) : State := s.place (w % 2 ^ nbits)

end Sys2Proof.Machine
end

