-- ==== Sys2Proof/Safety.lean ====
section
/-! DEFINITION. What counts as a safe run, and the terms in which claims about single words are made: maps in key order, a lane
or group word that is ready to be performed, and the state after it. -/

namespace Sys2Proof

/-- The outcome is a next state. -/
def Safe {σ φ ρ : Type} (o : Host.Outcome σ φ ρ) : Prop := ∃ s, o = .next s

/-- The first `k` steps from a state go on. -/
def SafeFor (M : Host.Core) (k : Nat) (s : M.State) : Prop := Safe (M.run k s)

namespace Machine

/-- Keys from `lo` on, strictly rising. -/
def FMap.risingFrom {α : Type} (lo : Nat) (m : FMap α) : Bool :=
  match m with
  | [] => true
  | p :: r => decide (lo ≤ p.1) && FMap.risingFrom (p.1 + 1) r

/-- A map in its canonical order: no key is listed twice. -/
def FMap.rising {α : Type} (m : FMap α) : Bool := FMap.risingFrom 0 m

/-- The group of the word and its threads are listed in key order, and no signal counts the group: so it is in every state that a
run reaches in which the group may issue a word. -/
def State.inOrder (s : State) : Bool :=
  FMap.rising s.groups && FMap.rising s.grp.threads && s.grp.hint.isNone

/-- The group after a word that has been performed at a time: it waits at no word. -/
def Group.ended (g : Group) (now : Nat) : Group :=
  { g with waitWord := none, agen := 0, replyWait := none, cbWait := none, cancelWait := none, sleepLeft := none,
           inPipe := false, lastIssue := now }

/-- The state after a word that changed nothing but its own group. -/
def State.performed (s : State) (g : Group) : State :=
  { s with groups := s.groups.set s.cur (g.ended s.now), stalled := [], fired := s.fired + 1 }

/-- The threads of the run whose guard is true. -/
def LaneWord.acting (w : LaneWord) (g : Group) : List Nat := g.run.filter (fun t => w.guard (g.thread t))

/-- A lane-set word can be performed for every thread whose guard is true: outside trap context, with a head run, its registers
within the budget and its ports linked as it uses them, every source FULL or at the head of its queue, no destination PENDING,
and room where it pushes (02_encoding R24, 07_registers R103, R104, R110). -/
def State.laneReady (s : State) (w : LaneWord) : Bool :=
  s.inOrder && !s.grp.trap && !s.grp.run.isEmpty && s.laneStatic w &&
    (w.acting s.grp).all (fun t => s.grp.threadVerdict (s.grp.thread t) w.allSrcs == .run) &&
    !s.grp.laneWaits (w.acting s.grp) w &&
    !s.grp.destPending s.grp.run w.dest && !(w.counts && s.counterFull s.cur) &&
    (s.take (w.srcs.map (·.o))).2.room w.dest == .free

/-- A group-set word whose guard is true can be performed: the same of the group's registers. -/
def State.groupReady (s : State) (w : GrpWord) : Bool :=
  s.inOrder && s.grp.issuePc != none && w.ok && s.portsOk (w.srcs.map (·.o)) w.dest && w.guard &&
    s.grp.wordVerdict w.allSrcs == .run && !w.dest.list.any (fun r => s.grp.regState r == .pending) &&
    !(w.counts && s.counterFull s.cur) && (s.take (w.srcs.map (·.o))).2.room w.dest == .free

/-- The threads of the run go on to the next word, those that act changed by `f`. -/
def Group.stepRun (g : Group) (ts : List Nat) (f : Nat → Thread → Thread) : Group :=
  { g with threads := g.threads.mapKV (fun t x =>
      if g.run.contains t then
        (let y := if ts.contains t then f t x else x
         { y with pc := y.pc + 4 })
      else x) }

/-- What a lane-set word with one value per thread says: its shape, its destination, and from the state after its pops, the
thread and the values of its sources, the result and the floating-point conditions that it raises. -/
structure LaneRule where
  word : LaneWord
  d : Opnd
  op : State → Nat → List W32 → W32 × FFlags

/-- The result and conditions of one thread. -/
def LaneRule.val (r : LaneRule) (s : State) (t : Nat) : W32 × FFlags :=
  r.op (s.take (r.word.srcs.map (·.o))).2 t
    ((s.take (r.word.srcs.map (·.o))).1.map (fun k => k.lane (s.grp.thread t) t))

/-- The state after a lane-set word that was ready: each source port has given up one entry for each time it is named; `fpm` has the
conditions of all acting threads; a port destination has one per-thread entry more, 0 for the other threads; a register destination
holds the acting threads' results, FULL; the run stands at the next word (02_encoding R22, R24; 08_compute R122). -/
def State.laneResult (s : State) (r : LaneRule) : State :=
  let s1 := (s.take (r.word.srcs.map (·.o))).2
  let ts := r.word.acting s.grp
  let s2 := s1.setGrp (s1.grp.raise (flagsOf ts (fun t => (r.val s t).2)))
  match r.d with
  | .reg n => s2.performed (s2.grp.stepRun ts (fun t x => x.write n.val (r.val s t).1))
  | .port q =>
    let s3 := s2.pushPort q.val (.perThread (threadIds.map (fun t => if ts.contains t then (r.val s t).1 else 0)))
    s3.performed (s3.grp.stepRun ts (fun _ x => x))

/-- The state after a lane-set word that was ready and changed its threads: each acting thread becomes what `f` makes of it, given the
group, the values that it read and its index; the other threads of the run stand at the next word. -/
def State.laneThreads (s : State) (w : LaneWord) (f : Group → List W32 → Nat → Thread → Thread) : State :=
  let s1 := (s.take (w.srcs.map (·.o))).2
  let ks := (s.take (w.srcs.map (·.o))).1
  s1.performed { s1.grp with threads := s1.grp.threads.mapKV (fun t x =>
    if (w.acting s.grp).contains t then f s1.grp (ks.map (fun k => k.lane (s.grp.thread t) t)) t x
    else if s.grp.run.contains t then { x with pc := x.pc + 4 }
    else x) }

/-- The state after a group-set word that was ready and wrote one value: a register destination holds it, FULL, a port destination
has one uniform entry more, and the group goes on (R22, R29). -/
def State.groupResult (s : State) (w : GrpWord) (d : Opnd) (v : W64) : State :=
  let s1 := ((s.take (w.srcs.map (·.o))).2).writeGroup d v
  s1.performed s1.grp.advance

/-- The values that a group-set word reads. -/
def State.groupValues (s : State) (w : GrpWord) : List W64 :=
  (s.take (w.srcs.map (·.o))).1.map (fun k => k.group s.grp w.wide)

/-- Everything but the groups is as before, every byte of memory included. -/
def State.sameButGroups (s t : State) : Prop :=
  { t with groups := s.groups, stalled := s.stalled, fired := s.fired } = s

end Machine

end Sys2Proof
end

