-- ==== Sys2Proof/Certificates/Slice0/Obligations.lean ====
section
/-! DEFINITION. The statements about this machine that are to be proved. -/

namespace Sys2Proof.Claims

open Sys2Proof.Machine

/-! ## Lane-set words with one result per thread -/

/-- A rule whose result is a function of its source values. -/
def valueRule (w : LaneWord) (d : Opnd) (op : W32 → W32 → W32 → W32) : LaneRule :=
  { word := w, d := d, op := fun _ _ v => (op (v.getD 0 0) (v.getD 1 0) (v.getD 2 0), {}) }

/-- A rule whose result depends on the rounding mode and raises conditions. -/
def roundedRule (w : LaneWord) (d : Opnd) (op : Rnd → W32 → W32 → W32 → W32 × FFlags) : LaneRule :=
  { word := w, d := d, op := fun s _ v => op s.grp.rm (v.getD 0 0) (v.getD 1 0) (v.getD 2 0) }

/-- What is claimed of a lane-set word and its rule. -/
abbrev RuleClaim := Instr → LaneRule → Prop

/-- The signed integer that `(-1)^n * m * 2^e` is in units of `2^k`, where k is at most e. -/
def signedAt (n : Bool) (m : Nat) (e k : Int) : Int := (if n then -(m : Int) else m) * 2 ^ (e - k).toNat

/-- The word performs the rule whenever it is ready. -/
def Performs : RuleClaim := fun i r => ∀ s : State, s.laneReady r.word = true → exec i s = .next (s.laneResult r)

/-- The claim holds of a two-source lane word that computes `op` of va and vb. -/
def Binary (P : RuleClaim) (mk : LaneBin → Instr) (op : W32 → W32 → W32) : Prop :=
  ∀ f, P (mk f) (valueRule (binWord f) f.d (fun a b _ => op a b))

/-- The claim holds of a lane word that computes `op` of va, vb and vd. -/
def Ternary (P : RuleClaim) (mk : LaneBin → Instr) (op : W32 → W32 → W32 → W32) : Prop :=
  ∀ f, P (mk f) (valueRule (triWord f) f.d op)

/-- The claim holds of a lane word that computes `op` of va. -/
def Unary (P : RuleClaim) (mk : LaneUn → Instr) (op : W32 → W32) : Prop :=
  ∀ f, P (mk f) (valueRule (unWord f) f.d (fun a _ _ => op a))

/-- The claim holds of a lane word that computes `op` of va and its immediate. -/
def Immediate (P : RuleClaim) (mk : LaneImm → Instr) (op : W32 → BitVec 9 → W32) : Prop :=
  ∀ f, P (mk f) (valueRule (immWord f) f.d (fun a _ _ => op a f.imm))

/-- The shape of a lane word with a destination and no source. -/
def sourceless (d : Opnd) (pg : Fin 8) (ng : Bool) : LaneWord :=
  { blocks := blockOf d 1, guard := laneGuard pg ng, dest := destOf d 1 }

/-- The claim holds of a two-source lane word whose result is rounded. -/
def RoundedBinary (P : RuleClaim) (mk : LaneBin → Instr) (op : Rnd → W32 → W32 → W32 × FFlags) : Prop :=
  ∀ f, P (mk f) (roundedRule (binWord f) f.d (fun r a b _ => op r a b))

/-- The claim holds of a lane word that rounds a result of va, vb and vd. -/
def RoundedTernary (P : RuleClaim) (mk : LaneBin → Instr) (op : Rnd → W32 → W32 → W32 → W32 × FFlags) : Prop :=
  ∀ f, P (mk f) (roundedRule (triWord f) f.d op)

/-- The claim holds of a one-source lane word whose result is rounded. -/
def RoundedUnary (P : RuleClaim) (mk : LaneUn → Instr) (op : Rnd → W32 → W32 × FFlags) : Prop :=
  ∀ f, P (mk f) (roundedRule (unWord f) f.d (fun r a _ _ => op r a))

/-- The claim holds of a conversion: `op` gets the mode that `rnd` selects, whether the word or `fpm` saturates, its fmt and the source (02_encoding R28). -/
def Converts (P : RuleClaim) (mk : LaneCvt → Instr) (op : Rnd → Bool → Fin 4 → W32 → W32 × FFlags) : Prop :=
  ∀ f : LaneCvt, P (mk f)
    { word := { sourceless f.d f.pg f.ng with blocks := blockOf f.d 1 ++ blockOf f.a 1, srcs := [{ o := f.a, trap := f.ea }] },
      d := f.d, op := fun s _ v => op (s.grp.cvtMode f.rnd) (f.sat || s.grp.sat) f.fmt (v.getD 0 0) }

/-- A result rounded to FP32 from an exact value with its NV mark (03_numbers R48). -/
def toFp32 (r : Rnd) (x : Ext × Bool) : W32 × FFlags :=
  ((roundFp32 r x.1).1, { (roundFp32 r x.1).2 with nv := (roundFp32 r x.1).2.nv || x.2 })

/-- Both halves computed apart in a 16-bit format, without saturation (08_compute R135). -/
def halves (f : Fmt) (r : Rnd) (op : Nat → Ext × Bool) : W32 × FFlags :=
  let x := f.encode r false (op 0).1
  let y := f.encode r false (op 1).1
  (BitVec.ofNat 32 (x.1 + 2 ^ 16 * y.1),
    { nv := (x.2.nv || (op 0).2) || (y.2.nv || (op 1).2), of_ := x.2.of_ || y.2.of_, uf := x.2.uf || y.2.uf, nx := x.2.nx || y.2.nx })

/-- The exact value of half `h` of a register. -/
def halfOf (f : Fmt) (a : W32) (h : Nat) : Ext := exact f (a.toNat / 2 ^ (16 * h) % 2 ^ 16)

/-- The rules of the words that `IntegerWords` is about. -/
def IntegerRules (P : RuleClaim) : Prop :=
  Binary P .iadd (fun a b => BitVec.ofNat 32 (a.toNat + b.toNat)) ∧
  Binary P .isub (fun a b => BitVec.ofInt 32 (a.toInt - b.toInt)) ∧
  Binary P .imul (fun a b => BitVec.ofNat 32 (a.toNat * b.toNat)) ∧
  Binary P .imulhs (fun a b => BitVec.ofInt 32 (a.toInt * b.toInt / 2 ^ 32)) ∧
  Binary P .imulhu (fun a b => BitVec.ofNat 32 (a.toNat * b.toNat / 2 ^ 32)) ∧
  Binary P .imin (fun a b => BitVec.ofInt 32 (min a.toInt b.toInt)) ∧
  Binary P .imax (fun a b => BitVec.ofInt 32 (max a.toInt b.toInt)) ∧
  Binary P .umin (fun a b => BitVec.ofNat 32 (min a.toNat b.toNat)) ∧
  Binary P .umax (fun a b => BitVec.ofNat 32 (max a.toNat b.toNat)) ∧
  Binary P .andv (fun a b => a &&& b) ∧
  Binary P .orv (fun a b => a ||| b) ∧
  Binary P .xorv (fun a b => a ^^^ b) ∧
  Binary P .andn (fun a b => a &&& ~~~b) ∧
  Binary P .shl (fun a b => BitVec.ofNat 32 (a.toNat * 2 ^ b.toNat)) ∧
  Binary P .shr (fun a b => BitVec.ofNat 32 (a.toNat / 2 ^ b.toNat)) ∧
  Binary P .sar (fun a b => BitVec.ofInt 32 (a.toInt / 2 ^ b.toNat)) ∧
  Binary P .bfx bfx ∧
  Ternary P .bfi bfi ∧
  Ternary P (fun f => .unlisted (.imad f)) (fun a b d => BitVec.ofNat 32 (a.toNat * b.toNat + d.toNat))

/-- The rules of the words that `UnaryAndImmediateWords` is about. -/
def ImmediateRules (P : RuleClaim) : Prop :=
  Unary P .iabs (fun a => BitVec.ofInt 32 (if a.toInt < 0 then -a.toInt else a.toInt)) ∧
  Unary P .popc (fun a => BitVec.ofNat 32 ((List.range 32).countP (fun i => a.getLsbD i))) ∧
  Unary P .clz (fun a => BitVec.ofNat 32 ((List.range 32).countP (fun i => decide (a.toNat < 2 ^ i)))) ∧
  Unary P .brev (fun a => a.reverse) ∧
  Immediate P .iaddi (fun a m => BitVec.ofInt 32 (a.toInt + m.toInt)) ∧
  Immediate P .andi (fun a m => a &&& BitVec.ofInt 32 m.toInt) ∧
  Immediate P .shli (fun a m => BitVec.ofNat 32 (a.toNat * 2 ^ m.toNat)) ∧
  Immediate P .shri (fun a m => BitVec.ofNat 32 (a.toNat / 2 ^ m.toNat)) ∧
  (∀ f : LaneLea, P (.lea f) (valueRule
    { sourceless f.d f.pg false with
      blocks := blockOf f.d 1 ++ blockOf f.a 1 ++ blockOf f.b 1, srcs := [{ o := f.a }, { o := f.b }] } f.d
    (fun a b _ => BitVec.ofNat 32 (a.toNat + b.toNat * 2 ^ f.sh.val)))) ∧
  (∀ f : LaneMovi, P (.movi f) (valueRule (sourceless f.d f.pg false) f.d (fun _ _ _ => BitVec.ofInt 32 f.imm.toInt)))

/-- The rules of the words that `SelectPackAndIdentify` is about. -/
def SelectRules (P : RuleClaim) : Prop :=
  (∀ f : LaneBin, P (.sel f)
    { word := { binWord f with guard := fun _ => true }, d := f.d,
      op := fun s t v => (if (s.grp.thread t).pred f.pg != f.ng then v.getD 0 0 else v.getD 1 0, {}) }) ∧
  (∀ f : LaneOne, P (.pmovPack f)
    { word := sourceless f.d f.pg f.ng, d := f.d,
      op := fun s t _ => (BitVec.ofNat 32 ((s.grp.thread t).preds.toNat / 2 * 2 + 1), {}) }) ∧
  (∀ f : LaneGetid, P (.getid f)
    { word := sourceless f.d f.pg false, d := f.d, op := fun s t _ => (BitVec.ofNat 32 (s.identifier f.sel.toNat t), {}) })

/-- The rules of the words that `FloatWords` is about. -/
def FloatRules (P : RuleClaim) : Prop :=
  RoundedBinary P .fadd (fun r a b => toFp32 r ((fp32 a).add r (fp32 b))) ∧
  RoundedBinary P .fsub (fun r a b => toFp32 r ((fp32 a).add r (fp32 b).neg)) ∧
  RoundedBinary P .fmul (fun r a b => toFp32 r ((fp32 a).mul (fp32 b))) ∧
  RoundedTernary P .ffma (fun r a b d => toFp32 r ((fp32 a).fma r (fp32 b) (fp32 d))) ∧
  RoundedUnary P .frcp (fun r a => toFp32 r (recipExt (fp32 a), false)) ∧
  RoundedUnary P .frsq (fun r a => toFp32 r (rsqrtExt (fp32 a))) ∧
  RoundedUnary P .fsqrt (fun r a => toFp32 r (sqrtExt (fp32 a))) ∧
  RoundedUnary P .fexp2 (fun r a => toFp32 r (exp2Ext (fp32 a), false)) ∧
  RoundedUnary P .flog2 (fun r a => toFp32 r (log2Ext (fp32 a)))

/-- The rules of the words that `PackedAndScaledWords` is about. -/
def PackedRules (P : RuleClaim) : Prop :=
  RoundedBinary P .badd2 (fun r a b => halves .bf16 r (fun h => (halfOf .bf16 a h).add r (halfOf .bf16 b h))) ∧
  RoundedBinary P .bmul2 (fun r a b => halves .bf16 r (fun h => (halfOf .bf16 a h).mul (halfOf .bf16 b h))) ∧
  RoundedTernary P .bfma2 (fun r a b d => halves .bf16 r (fun h => (halfOf .bf16 a h).fma r (halfOf .bf16 b h) (halfOf .bf16 d h))) ∧
  Binary P .bmax2 (fun a b => BitVec.ofNat 32 (Fmt.minMax .bf16 true (a.toNat % 2 ^ 16) (b.toNat % 2 ^ 16) +
    2 ^ 16 * Fmt.minMax .bf16 true (a.toNat / 2 ^ 16) (b.toNat / 2 ^ 16))) ∧
  RoundedBinary P .hadd2 (fun r a b => halves .fp16 r (fun h => (halfOf .fp16 a h).add r (halfOf .fp16 b h))) ∧
  RoundedBinary P .hmul2 (fun r a b => halves .fp16 r (fun h => (halfOf .fp16 a h).mul (halfOf .fp16 b h))) ∧
  RoundedTernary P .hfma2 (fun r a b d => halves .fp16 r (fun h => (halfOf .fp16 a h).fma r (halfOf .fp16 b h) (halfOf .fp16 d h))) ∧
  RoundedUnary P (fun f => .unlisted (.dsenc f)) (fun _ a => (BitVec.ofNat 32 (ds8Encode (fp32 a)).1, (ds8Encode (fp32 a)).2)) ∧
  RoundedBinary P (fun f => .unlisted (.dsmul f)) (fun r a b =>
    if ds8Value (b.toNat % 256) = 0 then (0, {}) else toFp32 r ((fp32 a).mul (ds8Exact (b.toNat % 256)))) ∧
  RoundedBinary P (fun f => .unlisted (.mxscl f)) (fun r a b => toFp32 r ((fp32 a).scaleBy (b.toNat % 256), false))

/-- The rules of the words that `ConversionWords` is about. -/
def ConversionRules (P : RuleClaim) : Prop :=
  Converts P .cvtif (fun r _ k a => toFp32 r (.ofInt (if k = 1 then a.toNat else a.toInt), false)) ∧
  Converts P .cvtfi (fun r _ k a => toInt32 r (k == 1) (fp32 a)) ∧
  Converts P .cvtfb (fun r sat _ a => (BitVec.ofNat 32 (Fmt.encode .bf16 r sat (fp32 a)).1, (Fmt.encode .bf16 r sat (fp32 a)).2)) ∧
  Converts P .cvtfh (fun r sat _ a => (BitVec.ofNat 32 (Fmt.encode .fp16 r sat (fp32 a)).1, (Fmt.encode .fp16 r sat (fp32 a)).2)) ∧
  Converts P .cvtf8 (fun r sat k a =>
    let f := if k = 0 then Fmt.e4m3 else Fmt.e5m2
    (BitVec.ofNat 32 (f.encode r sat (fp32 a)).1, (f.encode r sat (fp32 a)).2)) ∧
  Converts P .cvtfn (fun r sat k a =>
    let f := if k = 0 then Fmt.e2m3 else if k = 1 then Fmt.e3m2 else Fmt.e2m1
    (BitVec.ofNat 32 (f.encode r sat (fp32 a)).1, (f.encode r sat (fp32 a)).2)) ∧
  Converts P .cvtbf (fun _ _ _ a => ((roundFp32 .rn (exact .bf16 (a.toNat % 2 ^ 16))).1, {})) ∧
  Converts P .cvthf (fun _ _ _ a => ((roundFp32 .rn (exact .fp16 (a.toNat % 2 ^ 16))).1, {})) ∧
  Converts P .cvt8f (fun _ _ k a =>
    ((roundFp32 .rn (exact (if k = 0 then .e4m3 else .e5m2) (a.toNat % 2 ^ 8))).1, {})) ∧
  Converts P .cvtnf (fun _ _ k a =>
    ((roundFp32 .rn (if k = 0 then exact .e2m3 (a.toNat % 2 ^ 6) else if k = 1 then exact .e3m2 (a.toNat % 2 ^ 6)
      else exact .e2m1 (a.toNat % 2 ^ 4))).1, {}))

/-- The rules of FMIN, FMAX and FCLS. -/
def FloatOrderRules (P : RuleClaim) : Prop :=
  Binary P .fmin (fun a b =>
    if (fp32 a).isNan then (if (fp32 b).isNan then 0x7FC00000 else b)
    else if (fp32 b).isNan then a
    else if (fp32 a).lt (fp32 b) then a
    else if (fp32 b).lt (fp32 a) then b
    else if b.msb && !a.msb then b else a) ∧
  Binary P .fmax (fun a b =>
    if (fp32 a).isNan then (if (fp32 b).isNan then 0x7FC00000 else b)
    else if (fp32 b).isNan then a
    else if (fp32 a).lt (fp32 b) then b
    else if (fp32 b).lt (fp32 a) then a
    else if a.msb && !b.msb then b else a) ∧
  Unary P .fcls (fun a => match fp32 a with
    | .nan => 256
    | .inf neg => if neg then 1 else 128
    | .fin neg m _ =>
      if m = 0 then (if neg then 8 else 16) else if m < 2 ^ 23 then (if neg then 4 else 32) else (if neg then 2 else 64))

/-- The word changes its threads by `f` whenever it is ready. -/
def Changes (i : Instr) (w : LaneWord) (f : Group → List W32 → Nat → Thread → Thread) : Prop :=
  ∀ s : State, s.laneReady w = true → exec i s = .next (s.laneThreads w f)

/-- The thread at the next word. -/
def onward (x : Thread) : Thread := { x with pc := x.pc + 4 }

/-- A lane word that reads two sources and has no destination register. -/
def comparing (a b : Opnd) (ea eb : Bool) (pg : Fin 8) (ng : Bool) : LaneWord :=
  { blocks := blockOf a 1 ++ blockOf b 1, guard := laneGuard pg ng, srcs := [{ o := a, trap := ea }, { o := b, trap := eb }] }

/-- The relation that a condition code of an integer comparison names. -/
def holdsFor (c : IntCond) (a b : Int) : Prop :=
  match c with
  | .eq => a = b
  | .ne => a ≠ b
  | .lt => a < b
  | .le => a ≤ b
  | .gt => a > b
  | .ge => a ≥ b

/-- A comparison word: each acting thread's predicate says whether the relation holds. -/
def Compares (mk : LaneICmp → Instr) (read : W32 → Int) : Prop :=
  ∀ f : LaneICmp, ∀ s : State, s.laneReady (comparing f.a f.b f.ea f.eb f.pg f.ng) = true →
    ∃ holds : W32 → W32 → Bool, (∀ a b, holds a b = true ↔ holdsFor f.cc (read a) (read b)) ∧
      exec (mk f) s = .next (s.laneThreads (comparing f.a f.b f.ea f.eb f.pg f.ng)
        (fun _ v _ x => onward (x.setPred f.pd (holds (v.getD 0 0) (v.getD 1 0)))))

/-- Every word of the instruction holds the code in its top byte (02_encoding R18 to R20). -/
def HasCode {f : Type} (mk : f → Instr) (code : Nat) : Prop := ∀ (x : f) (n : Nat), (mk x).enc = some n → n / 2 ^ 24 = code

/-! ## Group-set words -/

/-- The number of bits that a group operation works on (02_encoding R29). -/
def bitsOf (w : Bool) : Nat := if w then 64 else 32

/-- A two-source group word that computes `op` within its W bits, zero-extended. -/
def GroupBinary (mk : GrpBin → Instr) (op : Bool → W64 → W64 → W64) : Prop :=
  ∀ (f : GrpBin) (s : State), s.groupReady (gbinWord s.grp f) = true →
    exec (mk f) s = .next (s.groupResult (gbinWord s.grp f) f.d
      (fitW f.w (op f.w (gv (s.groupValues (gbinWord s.grp f)) 0) (gv (s.groupValues (gbinWord s.grp f)) 1))))

/-- A one-source group word. -/
def GroupUnary (mk : GrpUn → Instr) (op : Bool → W64 → W64) : Prop :=
  ∀ (f : GrpUn) (s : State), s.groupReady (gunWord s.grp f) = true →
    exec (mk f) s = .next (s.groupResult (gunWord s.grp f) f.d (fitW f.w (op f.w (gv (s.groupValues (gunWord s.grp f)) 0))))

/-- A group word with an immediate that also reads its destination, or does not. -/
def GroupImmediate (mk : GrpImm → Instr) (reads : Bool) (op : W64 → BitVec 18 → W64) : Prop :=
  ∀ (f : GrpImm) (s : State),
    let w : GrpWord := { srcs := if reads then [{ o := f.d }] else [], dest := destOf f.d 1 }
    s.groupReady w = true →
    exec (mk f) s = .next (s.groupResult w f.d (op (gv (s.groupValues w) 0) f.imm))

/-- The state after a group word that was ready and changed its group. -/
def afterGroup (s : State) (w : GrpWord) (f : Group → List W64 → Group) : State :=
  let s1 := (s.take (w.srcs.map (·.o))).2
  s1.performed (f s1.grp (s.groupValues w))

/-- The relation that a condition code of GCMP names, on W bits. -/
def groupHolds (w : Bool) (c : GrpCond) (a b : W64) : Prop :=
  match c with
  | .eq => a = b
  | .ne => a ≠ b
  | .lt => signedW w a < signedW w b
  | .le => signedW w a ≤ signedW w b
  | .gt => signedW w a > signedW w b
  | .ge => signedW w a ≥ signedW w b
  | .ltu => a.toNat < b.toNat
  | .leu => a.toNat ≤ b.toNat
  | .gtu => a.toNat > b.toNat
  | .geu => a.toNat ≥ b.toNat

/-! ## Exceptions -/

/-- The group has a handler for a cause. -/
def handles (g : Group) (cause : BitVec 8) : Prop := g.tvec ≠ 0 ∧ g.tcmask.getLsbD cause.toNat = true

/-- The group in trap context at its handler (15_faults R261). -/
def inHandler (g : Group) (r : FaultRec) (pc : VA) (mask : W32) : Group :=
  { g with fault := r, trapcause := r.cause, trapaddr := r.addr, trappc := pc, trapmask := mask, trap := true, report := false,
           hpc := g.tvec, held := false }

/-- The record of a fault of the group's own word (R259): GRP 1, DEF 0, FPC the word. -/
def ownRecord (g : Group) (f : AccFault) : FaultRec :=
  { addr := f.addr, cause := f.cause.code, fpc := g.pc, rpc := 0, entries := g.entriesCount, v := true, malf := f.malf, wr := f.wr,
    ex := f.ex, host := f.host, rmt := f.rmt, grp := true }

/-- The state after the executing group's word has trapped to its handler with a fault of its own: nothing was popped or written (R261). -/
def afterTrap (s : State) (f : AccFault) : State :=
  s.performed (inHandler s.grp (ownRecord s.grp f) s.grp.pc (maskOf s.grp.run))

/-- Outside trap context the group has a handler for the cause. -/
def canTrap (s : State) (c : Cause) : Prop := s.grp.trap = false ∧ handles s.grp c.code

/-- A two-source group word whose first source that cannot be read is at fault traps at itself, outside trap context: nothing is
popped or written, and control is at the handler. -/
def TrapsAtSource (mk : GrpBin → Instr) : Prop :=
  ∀ (f : GrpBin) (s : State) (e : AccFault), s.inOrder = true → s.grp.trap = false → s.grp.issuePc ≠ none →
    s.portsOk [f.a, f.b] (destOf f.d 1) = true → (s.grp.cond f.cg != f.ng) = true →
    s.grp.wordVerdict (gbinWord s.grp f).srcs = .fault e → handles s.grp e.cause.code →
    exec (mk f) s = .next (s.performed (inHandler s.grp (ownRecord s.grp e) s.grp.pc (maskOf s.grp.run)))

/-- What becomes of one thread of the run at a lane word that writes one value (R103): its guard is false and it goes on; its sources can
be read and it has the result; a source is EMPTY or its queue closed and it parks at the word with a new record; a source is FAULTED and
it parks with the record that it holds. -/
def laneFate (s : State) (r : LaneRule) (t : Nat) (x : Thread) : Thread :=
  if r.word.guard x = false then { x with pc := x.pc + 4 }
  else
    match s.grp.threadVerdict x r.word.allSrcs with
    | .run => { x.write (regNum r.d) (r.val s t).1 with pc := x.pc + 4 }
    | .fault e => { x with st := .parked, fault := s.grp.threadRec x e }
    | .deferred => { x with st := .parked }
    | .wait => x

/-- On registers, if nothing is awaited, every thread of the run meets its own fate; the threads that have a result raise its conditions,
and all else stays as it is. -/
def MeetFates : RuleClaim := fun i r =>
  ∀ s : State, r.word.srcs.all (fun x => !x.o.isPort) = true → (∃ n, r.d = .reg n) →
    s.inOrder = true → s.grp.trap = false → s.grp.run ≠ [] → s.laneStatic r.word = true →
    (∀ t ∈ r.word.acting s.grp, s.grp.threadVerdict (s.grp.thread t) r.word.allSrcs ≠ .wait) →
    s.grp.destPending s.grp.run r.word.dest = false →
    let able := (r.word.acting s.grp).filter (fun t => s.grp.threadVerdict (s.grp.thread t) r.word.allSrcs == .run)
    exec i s = .next (s.performed { s.grp.raise (flagsOf able (fun t => (r.val s t).2)) with
      threads := s.grp.threads.mapKV (fun t x => if s.grp.run.contains t then laneFate s r t x else x) })

/-! ## Memory -/

/-- The shape of a lane load of `n` bytes to register `d`: the address registers are sources. -/
def loadWord (d : Opnd) (srcs : List Opnd) (pg : Fin 4) (n : Nat) : LaneWord :=
  { blocks := blockOf d (regsOf n) ++ srcs.flatMap (fun o => blockOf o 1), guard := lmGuard pg,
    srcs := srcs.map (fun o => { o := o }), dest := .regs (regNum d) (regsOf n), counts := true }

/-- The acting threads, in ascending order, and their addresses, which `ea` computes from `abase` and the values read. -/
def addressed (s : State) (w : LaneWord) (ea : W64 → List W32 → W64) (t : Nat) : W64 :=
  ea s.grp.abase ((s.take (w.srcs.map (·.o))).1.map (fun k => k.lane (s.grp.thread t) t))

/-- Effective address of the sized forms (09_access R145): `abase`, va, and the offset in units of the size. -/
def sizedEa (off : BitVec 6) (n : Nat) (base : W64) (v : List W32) : W64 :=
  BitVec.ofInt 64 (base.toNat + (v.getD 0 0).toNat + off.toInt * n)

/-- Effective address of LDX and STX: `abase`, va, and four times vb. -/
def indexedEa (base : W64) (v : List W32) : W64 :=
  BitVec.ofNat 64 (base.toNat + (v.getD 0 0).toNat + 4 * (v.getD 1 0).toNat)

/-- An access of `n` bytes that goes to a slice byte: to that key, aligned, in a core of the virtual device, not claimed by a copy, its
protection granules correct. -/
def reachesSlice (s : State) (ea : W64) (n : Nat) (k : AccKind) (key : Nat) : Prop :=
  s.check s.curCore s.curVd ea n k = .ok (.slice key) ∧ s.claimed key n = false ∧ s.poisoned key n = false

/-- The words that `n` bytes at a key hold, little-endian, a short one zero-extended. -/
def wordsAt (s : State) (key n : Nat) : List W32 :=
  (List.range (regsOf n)).map (fun i => BitVec.ofNat 32 (leValue (Memory.getBytes s.mem (key + 4 * i) (min n 4))))

/-- A lane load whose acting threads all address slices: their destinations are PENDING, and one operation is outstanding whose pieces,
in thread order, hold the bytes that memory holds. Nothing else changes: no byte of memory, no other register. -/
def LoadsSlices {f : Type} (mk : f → Instr) (shape : f → LaneWord) (d : f → Opnd) (n : Nat) (ea : f → W64 → List W32 → W64) : Prop :=
  ∀ (x : f) (s : State) (key : Nat → Nat), s.laneReady (shape x) = true →
    (∀ t ∈ (shape x).acting s.grp, reachesSlice s (addressed s (shape x) (ea x) t) n .load (key t)) →
    let s1 := (s.take ((shape x).srcs.map (·.o))).2
    let ts := (shape x).acting s.grp
    let regs := (List.range (regsOf n)).map (fun i => regNum (d x) + i)
    exec (mk x) s = .next (s1.performed ((s1.grp.stepRun ts (fun _ y =>
        regs.foldl (fun y r => y.setState r .pending) y)).addOp
      (ts.map (fun t => { t := t, regs := regs.zip ((wordsAt s (key t) n).map (fun w => w.zeroExtend 64)) }))))

/-- No combine buffer is configured. -/
def noBuffers (s : State) : Prop := ∀ v ∈ s.vdevs, ∀ p ∈ v.2.segs, p.2.buffer = false

/-- A lane store, not a release at device or domain scope and, if strong, with no remote load outstanding (12_consistency R219), whose acting threads all address slices: each byte of memory is what the last
acting thread that stores there wrote, every other byte and every register is as before, and the run goes on. -/
def StoresSlices {f : Type} (mk : f → Instr) (shape : f → LaneWord) (sc : f → Scope) (st : f → Strength) (n : Nat)
    (ea : f → W64 → List W32 → W64) (data : f → Thread → List W32 → List Byte) : Prop :=
  ∀ (x : f) (s : State) (key : Nat → Nat), s.laneReady (shape x) = true → noBuffers s → Memory.wf s.mem = true →
    releases (sc x) (st x == .release) = false → (st x ≠ .plain → s.awaitsRemote s.cur = false) →
    (∀ t ∈ (shape x).acting s.grp, reachesSlice s (addressed s (shape x) (ea x) t) n .store (key t)) →
    let s1 := (s.take ((shape x).srcs.map (·.o))).2
    let ts := (shape x).acting s.grp
    let bytes := fun t => data x (s.grp.thread t) ((s.take ((shape x).srcs.map (·.o))).1.map (fun k => k.lane (s.grp.thread t) t))
    ∃ s2, exec (mk x) s = .next s2 ∧
      (∀ a, (∀ t ∈ ts, a < key t ∨ key t + n ≤ a) → Memory.get s2.mem a = Memory.get s.mem a) ∧
      (∀ t ∈ ts, ∀ i < n, (∀ u ∈ ts, t < u → key t + i < key u ∨ key u + n ≤ key t + i) →
        Memory.get s2.mem (key t + i) = (bytes t).getD i 0) ∧
      s2.groups = (s1.performed (s1.grp.stepRun ts (fun _ y => y))).groups ∧
      s2.vdevs = s.vdevs ∧ s2.copies = s.copies ∧ s2.slots = s.slots

/-- The shape of a sized store: a single register or queue port is a source after va, a pair or block is read besides. -/
def storeWord (f : LaneMem) (n : Nat) : LaneWord :=
  { blocks := blockOf f.d (regsOf n) ++ blockOf f.a 1, guard := lmGuard f.pg,
    srcs := if n ≤ 4 then [{ o := f.a }, { o := f.d }] else [{ o := f.a }],
    also := if n ≤ 4 then [] else (List.range (regsOf n)).map (fun i => regNum f.d + i), counts := true }

/-- What a sized store writes: the low bytes of vd, or the registers from vd on. -/
def storeData (n : Nat) (f : LaneMem) (x : Thread) (v : List W32) : List Byte :=
  if n ≤ 4 then leBytes n (v.getD 1 0).toNat
  else (List.range (regsOf n)).flatMap (fun i => leBytes 4 (x.reg (regNum f.d + i)).toNat)

/-- The shape of a lane atomic: CAS reads vd besides, for its new value. -/
def atomicWord (f : LaneMemIdx) (cas : Bool) : LaneWord :=
  { blocks := blockOf f.d 1 ++ blockOf f.a 1 ++ blockOf f.b 1, guard := lmGuard f.pg, srcs := [{ o := f.a }, { o := f.b }],
    also := if cas then [regNum f.d] else [], dest := .regs (regNum f.d) 1, counts := true }

/-- Atomics of threads at their addresses, one after the other: the memory they leave, and for each thread the word that it found. -/
def inTurn (key : Nat → Nat) (op : Nat → W32 → W32) (m : List Host.Cell) (ts : List Nat) : List Host.Cell × List (Nat × W32) :=
  match ts with
  | [] => (m, [])
  | t :: r =>
    let old := BitVec.ofNat 32 (leValue (Memory.getBytes m (key t) 4))
    let x := inTurn key op (Memory.setBytes m (key t) (leBytes 4 (op t old).toNat)) r
    (x.1, (t, old) :: x.2)

/-- A lane atomic, not a release at device or domain scope and with no remote load outstanding, whose acting threads address slice words:
the threads perform it in ascending order, also at one address; memory then holds what they leave, each thread will receive the word
that it found, and every byte outside the addressed words is as before. -/
def AtomicOnSlice (mk : LaneMemIdx → Instr) (cas : Bool) (op : W32 → W32 → W32 → W32) : Prop :=
  ∀ (f : LaneMemIdx) (s : State) (key : Nat → Nat), s.laneReady (atomicWord f cas) = true → noBuffers s → Memory.wf s.mem = true →
    releases f.sc (atomReleases f.st) = false → s.awaitsRemote s.cur = false → (s.vdev s.curVd).capture = [] →
    (∀ t ∈ (atomicWord f cas).acting s.grp, reachesSlice s (addressed s (atomicWord f cas) (sizedEa 0 4) t) 4 .atomic (key t)) →
    let s1 := (s.take ((atomicWord f cas).srcs.map (·.o))).2
    let ts := (atomicWord f cas).acting s.grp
    let v := fun t => (s.take ((atomicWord f cas).srcs.map (·.o))).1.map (fun k => k.lane (s.grp.thread t) t)
    let x := inTurn key (fun t old => op old ((v t).getD 1 0) ((s.grp.thread t).reg (regNum f.d))) s.mem ts
    ∃ s2, exec (mk f) s = .next s2 ∧ (∀ a, Memory.get s2.mem a = Memory.get x.1 a) ∧
      (∀ a, (∀ t ∈ ts, a < key t ∨ key t + 4 ≤ a) → Memory.get s2.mem a = Memory.get s.mem a) ∧
      (∀ t, ts = [t] → s2.load32 (key t) = op (s.load32 (key t)) ((v t).getD 1 0) ((s.grp.thread t).reg (regNum f.d))) ∧
      s2.groups = (s1.performed ((s1.grp.stepRun ts (fun _ y => y.setState (regNum f.d) .pending)).addOp
        (x.2.map (fun p => { t := p.1, regs := [(regNum f.d, p.2.zeroExtend 64)] })))).groups

/-- The shape of a group load. -/
def groupLoadWord (f : GrpMem) : GrpWord :=
  { srcs := [{ o := f.a }, { o := f.b }], dest := .regs (regNum f.d) 1, counts := true }

/-- A group load of `n` bytes from a slice: gd is PENDING and one operation is outstanding that holds the bytes, zero-extended. -/
def GroupLoadsSlice (mk : GrpMem → Instr) (n : Nat) : Prop :=
  ∀ (f : GrpMem) (s : State) (key : Nat), s.groupReady (groupLoadWord f) = true →
    let v := s.groupValues (groupLoadWord f)
    reachesSlice s (gv v 0 + gv v 1) n .load key →
    exec (mk f) s = .next (afterGroup s (groupLoadWord f) (fun g _ =>
      ((g.setState (regNum f.d) .pending).addOp
        [{ t := 32, regs := [(regNum f.d, BitVec.ofNat 64 (s.loadLe key n))] }]).advance))

/-- A group store of `n` bytes, not a release at device or domain scope and, if strong, with no remote load outstanding, to a slice: the bytes hold the low bytes of gd, every other
byte and every register is as before, and the group goes on. -/
def GroupStoresSlice (mk : GrpMem → Instr) (n : Nat) : Prop :=
  ∀ (f : GrpMem) (s : State) (key : Nat),
    let w : GrpWord := { srcs := [{ o := f.a }, { o := f.b }, { o := f.d }] }
    let v := s.groupValues w
    s.groupReady w = true → noBuffers s → Memory.wf s.mem = true → releases f.sc (f.st == .release) = false →
    (f.st ≠ .plain → s.awaitsRemote s.cur = false) → reachesSlice s (gv v 0 + gv v 1) n .store key →
    ∃ s2, exec (mk f) s = .next s2 ∧ s2.loadLe key n = (gv v 2).toNat % 2 ^ (8 * n) ∧
      (∀ a, a < key ∨ key + n ≤ a → Memory.get s2.mem a = Memory.get s.mem a) ∧
      s2.groups = (afterGroup s w (fun g _ => g.advance)).groups ∧ s2.vdevs = s.vdevs ∧ s2.copies = s.copies ∧ s2.slots = s.slots

/-- What an atomic of 64 bits leaves in memory (09_access R154, R158): `b` is the operand, for CAS the expected value, and `new` the value
of gd on entry. -/
def wideAtomic (op : AtomOp) (old b new : W64) : W64 :=
  match op with
  | .add => old + b
  | .smin => if old.toInt ≤ b.toInt then old else b
  | .smax => if b.toInt ≤ old.toInt then old else b
  | .umin => if old.toNat ≤ b.toNat then old else b
  | .umax => if b.toNat ≤ old.toNat then old else b
  | .and => old &&& b
  | .or => old ||| b
  | .xor => old ^^^ b
  | .xch => b
  | .cas => if old = b then new else old
  | .fadd => old

/-! ## Queues and barriers -/

/-- The entries pushed in order through a port of the executing group. -/
def pushAll (s : State) (q : Nat) (es : List QEntry) : State := es.foldl (fun s e => s.pushPort q e) s

/-- Affine generation when there is room for all entries (07_registers R114): N per-thread entries, then the new base in ga's low half.
`value a b e t` is what thread `t` has in entry `e`, `next a b n` the base after `n` entries. -/
def Generates (mk : GrpAgen → Instr) (value : GrpAgen → W64 → W64 → Nat → Nat → Int) (next : GrpAgen → W64 → W64 → Nat → Int) : Prop :=
  ∀ (f : GrpAgen) (q : Fin 8) (n : Fin 56) (s : State), f.d = .port q → f.a = .reg n →
    let w : GrpWord := { srcs := [{ o := f.a }, { o := f.b }], ok := s.portsOk [] (destOf f.d 1) }
    let s1 := (s.take [f.a, f.b]).2
    let a := gv (s.groupValues w) 0
    let b := gv (s.groupValues w) 1
    let entry := fun e => QEntry.perThread ((List.range 32).map (fun t =>
      let x : W32 := BitVec.ofInt 32 (value f a b e t)
      if b.toNat / 2 ^ 32 ≠ 0 ∧ b.toNat / 2 ^ 32 ≤ x.toNat then 0xFFFFFFFF else x))
    s.groupReady w = true → s.grp.agen = 0 → (s1.portQueue s.cur q.val).closed = false →
    (s1.portQueue s.cur q.val).entries.length + (f.n.val + 1) ≤ 4 →
    let s2 := pushAll s1 q.val ((List.range (f.n.val + 1)).map entry)
    exec (mk f) s = .next (s2.performed ((s2.grp.write n.val
      (BitVec.ofNat 64 (a.toNat / 2 ^ 32 * 2 ^ 32 + (BitVec.ofInt 32 (next f a b (f.n.val + 1))).toNat))).advance))

/-- The signed value of bits [31:0] and of bits [63:32]. -/
def lowS (a : W64) : Int := (BitVec.ofNat 32 a.toNat).toInt
/-- The signed value of bits [63:32]. -/
def highS (a : W64) : Int := (BitVec.ofNat 32 (a.toNat / 2 ^ 32)).toInt

end Sys2Proof.Claims

open Sys2Proof Sys2Proof.Machine Sys2Proof.Claims

/-- The two-source and three-source integer words (08_compute R124 to R126, R356), in any operand form, when they are ready: each
acting thread's result is what the rule says, in its register or as its value of the pushed entry, and nothing else changes. -/
def Sys2Proof.Claims.IntegerWords : Prop :=
  IntegerRules Performs ∧
  (∀ (a b : W32) (i : Nat), i < 32 →
    let p := b.toNat % 32
    let n := min (min (b.toNat / 2 ^ 8 % 64) 32) (32 - p)
    (bfx a b).getLsbD i =
      if i < n then a.getLsbD (i + p) else b.getLsbD 15 && decide (0 < n) && a.getLsbD (p + n - 1)) ∧
  (∀ (a b d : W32) (i : Nat), i < 32 →
    let p := b.toNat % 32
    let n := min (min (b.toNat / 2 ^ 8 % 64) 32) (32 - p)
    (bfi a b d).getLsbD i = if p ≤ i ∧ i < p + n then a.getLsbD (i - p) else d.getLsbD i)

/-- The integer words with one source or an immediate (R124, R125, R129). -/
def Sys2Proof.Claims.UnaryAndImmediateWords : Prop := ImmediateRules Performs

/-- SEL chooses by its predicate and is not guarded by it (R128); PMOV vd packs the predicates with bit 0 as 1 (07_registers R116);
GETID gives the identifier that it selects (R117). -/
def Sys2Proof.Claims.SelectPackAndIdentify : Prop :=
  SelectRules Performs ∧
  (∀ (s : State) (t : Nat),
    let l := s.launch s.curTeam.launch
    s.identifier 0 t = t ∧ s.identifier 1 t = s.grp.idx ∧ s.identifier 2 t = s.grp.roleIdx ∧ s.identifier 3 t = s.grp.role ∧
    s.identifier 4 t = s.curTeam.index ∧
    s.identifier 8 t = s.curTeam.core ∧ s.identifier 9 t = s.grp.lane ∧ s.identifier 10 t = s.grp.budget ∧
    s.identifier 11 t = s.curTeam.index / 2 ^ 32 % 2 ^ 16 ∧
    (∀ x y z, x < l.grid.1 → y < l.grid.2.1 → s.curTeam.index = x + l.grid.1 * (y + l.grid.2.1 * z) →
      s.identifier 5 t = x ∧ s.identifier 6 t = y ∧ s.identifier 7 t = z))

/-- FADD to FFMA are one rounding of the exact result (R130); the transcendental words round theirs (R134). -/
def Sys2Proof.Claims.FloatWords : Prop := FloatRules Performs

/-- Packed words compute both halves apart (R135); dual-shift and scaled words (R389 to R391). -/
def Sys2Proof.Claims.PackedAndScaledWords : Prop := PackedRules Performs

/-- Conversions (R136, R137): narrowing rounds and may saturate, widening is exact and raises nothing. -/
def Obligations.ConversionWords : Prop := ConversionRules Performs

/-- Words that write predicates (R127, R132, 07_registers R116): a write to p0 is discarded, a comparison of floats with a NaN operand
holds for NE and UN alone, one of ordered values compares them as exact values, and PMOV va keeps p0. -/
def Obligations.PredicateWords : Prop :=
  Compares .icmp (fun a => a.toInt) ∧ Compares .ucmp (fun a => a.toNat) ∧
  (∀ f : LaneFCmp, Changes (.fcmp f) (comparing f.a f.b f.ea f.eb f.pg f.ng)
    (fun _ v _ x => onward (x.setPred f.pd (fltCompare f.cc (fp32 (v.getD 0 0)) (fp32 (v.getD 1 0)))))) ∧
  (∀ (c : FltCond) (a b : W32), (fp32 a).isNan || (fp32 b).isNan →
    fltCompare c (fp32 a) (fp32 b) = (c == .ne || c == .un)) ∧
  (∀ (n n' : Bool) (m m' : Nat) (e e' : Int), fltCompare .lt (.fin n m e) (.fin n' m' e') =
    decide (signedAt n m e (min e e') < signedAt n' m' e' (min e e'))) ∧
  (∀ x : Ext, x.isNan = false → fltCompare .lt (.inf true) x = decide (x ≠ .inf true) ∧
    fltCompare .lt x (.inf false) = decide (x ≠ .inf false) ∧ fltCompare .lt (.inf false) x = false ∧
    fltCompare .lt x (.inf true) = false) ∧
  (∀ x y : Ext, x.isNan = false → y.isNan = false →
    fltCompare .gt x y = fltCompare .lt y x ∧ fltCompare .le x y = !fltCompare .lt y x ∧ fltCompare .ge x y = !fltCompare .lt x y ∧
    fltCompare .eq x y = (!fltCompare .lt x y && !fltCompare .lt y x) ∧
    fltCompare .ne x y = (fltCompare .lt x y || fltCompare .lt y x) ∧ fltCompare .un x y = false ∧ fltCompare .ord x y = true) ∧
  (∀ f : LaneSrc, Changes (.pmovUnpack f)
    { blocks := blockOf f.a 1, guard := laneGuard f.pg f.ng, srcs := [{ o := f.a, trap := f.ea }] }
    (fun _ v _ x => onward { x with preds := BitVec.ofNat 8 ((v.getD 0 0).toNat % 2 ^ 8 / 2 * 2) })) ∧
  (∀ (x : Thread) (b : Bool), x.setPred 0 b = x) ∧
  (∀ (x : Thread) (p q : Fin 8) (b : Bool), p ≠ 0 → (x.setPred p b).pred q = if q = p then b else x.pred q)

/-- Words on full and empty (07_registers R115, R118): MKEMP makes the register EMPTY; MKFUL makes an EMPTY or FAULTED one 0 and FULL
and leaves a FULL one alone; WAITE and NOP only go on; YIELD has the group passed over. -/
def Sys2Proof.Claims.RegisterStateWords : Prop :=
  (∀ (x : Thread) (n : Nat) (st : Full),
    (x.setState n st).vst = x.vst.set n st ∧ (x.setState n st).v = x.v ∧ (x.setState n st).st = x.st ∧ (x.setState n st).pc = x.pc ∧
    ((x.setState n st).fault = x.fault ∨ (x.setState n st).fault = {}) ∧
    ((x.setState n st).fault = x.fault ∨ (x.regState n = .faulted ∧ st ≠ .faulted ∧ x.st ≠ .parked ∧ x.storeFault = none ∧
      ∀ p ∈ x.vst.set n st, p.2 ≠ .faulted)) ∧
    (x.regState n = .faulted → st ≠ .faulted → x.st ≠ .parked → x.storeFault = none → (∀ p ∈ x.vst.set n st, p.2 ≠ .faulted) →
      (x.setState n st).fault = {})) ∧
  (∀ f : LaneOne, Changes (.mkemp f) (oneWord f) (fun _ _ _ x => onward (x.setState (regNum f.d) .empty))) ∧
  (∀ f : LaneOne, Changes (.mkful f) (oneWord f) (fun _ _ _ x =>
    onward (match x.regState (regNum f.d) with
      | .empty => x.write (regNum f.d) 0
      | .faulted => x.write (regNum f.d) 0
      | .full => x
      | .pending => x))) ∧
  (∀ (f : LaneOne) (s : State),
    s.laneReady { blocks := blockOf f.d 1, guard := laneGuard f.pg f.ng, ok := s.portsOk [f.d] .none } = true →
    s.waiteWaits f = false →
    exec (.waite f) s = .next (s.laneThreads { guard := laneGuard f.pg f.ng } (fun _ _ _ x => onward x))) ∧
  (∀ f : LaneGuard, Changes (.nop f) { guard := laneGuard f.pg f.ng } (fun _ _ _ x => onward x)) ∧
  (∀ (f : LaneGuard) (s : State), s.laneReady { guard := laneGuard f.pg f.ng } = true →
    exec (.yield f) s = .next (s.performed { s.grp.stepRun [] (fun _ x => x) with
      yielded := if s.grp.run.any (fun t => laneGuard f.pg f.ng (s.grp.thread t)) then some [] else s.grp.yielded }))

/-- Branches and calls (13_execution R234): a thread that branches goes to the word's address plus four times the offset, or to va in
its own 4 GiB; a computed target that is no multiple of 4 parks the thread with MISALIGNED at its word (02_encoding R17); CALL pushes the address of the next word and RET pops one; a full or empty stack parks the thread with
STACK_OVERFLOW; a thread whose guard is false goes on. -/
def Obligations.LaneBranches : Prop :=
  (∀ f : LaneBr, Changes (.br f) { guard := laneGuard f.pg f.ng, moves := true }
    (fun g _ _ x => { x with pc := BitVec.ofInt 56 (g.pc.toNat + 4 * f.off.toInt) })) ∧
  (∀ f : LaneSrc, Changes (.brx f)
    { blocks := blockOf f.a 1, guard := laneGuard f.pg f.ng, srcs := [{ o := f.a, trap := f.ea }], moves := true }
    (fun g v _ x =>
      let a := BitVec.ofNat 56 (g.pc.toNat / 2 ^ 32 * 2 ^ 32 + (v.getD 0 0).toNat)
      if a.toNat % 4 = 0 then { x with pc := a }
      else { x with st := .parked, fault := g.threadRec x { cause := .misaligned, addr := a.zeroExtend 64 } })) ∧
  (∀ f : LaneBr, Changes (.call f) { guard := laneGuard f.pg f.ng, moves := true }
    (fun g _ _ x =>
      if x.stack.length < 16 then
        { x with stack := (g.pc + 4) :: x.stack, pc := BitVec.ofInt 56 (g.pc.toNat + 4 * f.off.toInt) }
      else { x with st := .parked, fault := g.threadRec x (plainFault .stackOverflow) })) ∧
  (∀ f : LaneGuard, Changes (.ret f) { guard := laneGuard f.pg f.ng, moves := true }
    (fun g _ _ x =>
      match x.stack with
      | a :: r =>
        if a.toNat % 4 = 0 then { x with stack := r, pc := a }
        else { x with st := .parked, fault := g.threadRec x { cause := .misaligned, addr := a.zeroExtend 64 } }
      | [] => { x with st := .parked, fault := g.threadRec x (plainFault .stackOverflow) }))

/-- Two-source and one-source group integer words (R139), GLEA and GBFX, whose values are pinned bit by bit (R341, R342), in any operand form, when they are ready. -/
def Sys2Proof.Claims.GroupIntegerWords : Prop :=
  GroupBinary .gadd (fun _ a b => BitVec.ofNat 64 (a.toNat + b.toNat)) ∧
  GroupBinary .gsub (fun _ a b => BitVec.ofInt 64 (a.toInt - b.toInt)) ∧
  GroupBinary .gmul (fun _ a b => BitVec.ofNat 64 (a.toNat * b.toNat)) ∧
  GroupBinary .gmin (fun w a b => BitVec.ofInt 64 (min (signedW w a) (signedW w b))) ∧
  GroupBinary .gmax (fun w a b => BitVec.ofInt 64 (max (signedW w a) (signedW w b))) ∧
  GroupBinary .gand (fun _ a b => a &&& b) ∧
  GroupBinary .gor (fun _ a b => a ||| b) ∧
  GroupBinary .gxor (fun _ a b => a ^^^ b) ∧
  GroupBinary .gmulh (fun w a b => BitVec.ofNat 64 (a.toNat * b.toNat / 2 ^ bitsOf w)) ∧
  GroupUnary .gpopc (fun w a => BitVec.ofNat 64 ((List.range (bitsOf w)).countP (fun i => a.getLsbD i))) ∧
  GroupUnary .gclz (fun w a => BitVec.ofNat 64 ((List.range (bitsOf w)).countP (fun i => decide (a.toNat < 2 ^ i)))) ∧
  GroupBinary (fun f => .unlisted (.glea f)) glea ∧
  GroupBinary (fun f => .unlisted (.gbfx f)) gbfx ∧
  (∀ (w : Bool) (a b : W64),
    let k := bitsOf w - 4
    let x := b.toNat % 2 ^ k
    let i : Int := if 2 ^ (k - 1) ≤ x then (x : Int) - 2 ^ k else x
    fitW w (glea w a b) = fitW w (BitVec.ofInt 64 (a.toNat + i * 2 ^ (b.toNat / 2 ^ k % 16)))) ∧
  (∀ (w : Bool) (a b : W64) (i : Nat), i < 64 →
    let p := b.toNat % 64
    let n := min (min (b.toNat / 2 ^ 8 % 128) 64) (bitsOf w - p)
    (fitW w (gbfx w a b)).getLsbD i = (decide (i < bitsOf w) &&
      if i < n then a.getLsbD (i + p) else b.getLsbD 15 && decide (0 < n) && a.getLsbD (p + n - 1)))

/-- GMAD adds to its destination (R139); immediates (R143): GADDI adds to it, GMOVI replaces it, GMOVH shifts it by 18 and puts the
immediate below; GSEL chooses by its condition and is not guarded by it, GCMP writes a condition, c0 excepted (R141). -/
def Sys2Proof.Claims.GroupMoveAndCompareWords : Prop :=
  (∀ (f : GrpBin) (s : State),
    let w : GrpWord := { gbinWord s.grp f with srcs := [{ o := f.a, trap := f.ea }, { o := f.b, trap := f.eb }, { o := f.d }] }
    s.groupReady w = true →
    exec (.gmad f) s = .next (s.groupResult w f.d (fitW f.w (BitVec.ofNat 64
      ((gv (s.groupValues w) 0).toNat * (gv (s.groupValues w) 1).toNat + (gv (s.groupValues w) 2).toNat))))) ∧
  GroupImmediate .gaddi true (fun g m => BitVec.ofInt 64 (g.toInt + m.toInt)) ∧
  GroupImmediate .gmovi false (fun _ m => BitVec.ofInt 64 m.toInt) ∧
  GroupImmediate .gmovh true (fun g m => BitVec.ofNat 64 (g.toNat * 2 ^ 18 + m.toNat)) ∧
  (∀ (f : GrpBin) (s : State),
    let w : GrpWord := { gbinWord s.grp f with guard := true }
    s.groupReady w = true →
    exec (.gsel f) s = .next (s.groupResult w f.d
      (fitW f.w (if s.grp.cond f.cg = !f.ng then gv (s.groupValues w) 0 else gv (s.groupValues w) 1)))) ∧
  (∀ (f : GrpCmp) (s : State),
    let w : GrpWord :=
      { guard := s.grp.cond f.cg != f.ng, srcs := [{ o := f.a, trap := f.ea }, { o := f.b, trap := f.eb }], wide := f.w }
    s.groupReady w = true →
    ∃ b : Bool, (b = true ↔ groupHolds f.w f.cc (gv (s.groupValues w) 0) (gv (s.groupValues w) 1)) ∧
      exec (.gcmp f) s = .next (afterGroup s w (fun g _ => (g.setCond f.cd b).advance))) ∧
  (∀ (g : Group) (b : Bool), g.setCond 0 b = g) ∧
  (∀ (g : Group) (c d : Fin 4) (b : Bool), c ≠ 0 → (g.setCond c b).cond d = if d = c then b else g.cond d)

/-- Group branches (13_execution R234), outside trap context and in it: GBR goes to the word's address plus four times the offset;
GLOOP counts down and goes back unless the count is 0; GCALL pushes the next word's address in every thread of the run, where none
is full; GRET outside trap context sends every thread of the run to its own return address, where none is empty. A full stack, an empty
stack, and a return address that is no multiple of 4 (02_encoding R17) trap the group at the word. -/
def Obligations.GroupBranches : Prop :=
  (∀ (f : GrpBr) (s : State), s.groupReady { guard := s.grp.cond f.cg != f.ng } = true →
    exec (.gbr f) s = .next (s.performed (s.grp.jump (BitVec.ofInt 56 (s.grp.pc.toNat + 4 * f.off.toInt))))) ∧
  (∀ (f : GrpImm) (n : Fin 56) (s : State), f.d = .reg n → s.groupReady { srcs := [{ o := f.d }], dest := destOf f.d 1 } = true →
    exec (.gloop f) s = .next (s.performed
      (let g := s.grp.write n.val (s.grp.reg n.val - 1)
       if s.grp.reg n.val = 1 then g.advance else g.jump (BitVec.ofInt 56 (s.grp.pc.toNat + 4 * f.imm.toInt))))) ∧
  (∀ (f : GrpBr) (s : State), s.groupReady { guard := s.grp.cond f.cg != f.ng } = true →
    s.grp.callRun.all (fun t => decide ((s.grp.thread t).stack.length < 16)) = true →
    exec (.gcall f) s = .next (s.performed
      ((s.grp.mapThreads s.grp.callRun (fun _ x => { x with stack := (s.grp.pc + 4) :: x.stack })).jump
        (BitVec.ofInt 56 (s.grp.pc.toNat + 4 * f.off.toInt))))) ∧
  (∀ (f : GrpGuard) (s : State), s.groupReady { guard := s.grp.cond f.cg != f.ng } = true → s.grp.trap = false →
    s.grp.run.all (fun t => decide ((s.grp.thread t).stack ≠ [])) = true →
    s.grp.run.all (fun t => decide (((s.grp.thread t).stack.headD 0).toNat % 4 = 0)) = true →
    exec (.gret f) s = .next (s.performed
      (s.grp.mapThreads s.grp.run (fun _ x => { x with stack := x.stack.drop 1, pc := x.stack.headD 0 })))) ∧
  (∀ (f : GrpBr) (s : State), s.groupReady { guard := s.grp.cond f.cg != f.ng } = true → s.grp.trap = false →
    (∃ t ∈ s.grp.run, 16 ≤ (s.grp.thread t).stack.length) → handles s.grp (Cause.code .stackOverflow) →
    exec (.gcall f) s = .next (s.performed
      (inHandler s.grp (ownRecord s.grp { cause := .stackOverflow }) s.grp.pc (maskOf s.grp.run)))) ∧
  (∀ (f : GrpGuard) (s : State), s.groupReady { guard := s.grp.cond f.cg != f.ng } = true → s.grp.trap = false →
    (∃ t ∈ s.grp.run, (s.grp.thread t).stack = []) → handles s.grp (Cause.code .stackOverflow) →
    exec (.gret f) s = .next (s.performed
      (inHandler s.grp (ownRecord s.grp { cause := .stackOverflow }) s.grp.pc (maskOf s.grp.run)))) ∧
  (∀ (f : GrpGuard) (t : Nat) (r : List Nat) (s : State), s.groupReady { guard := s.grp.cond f.cg != f.ng } = true →
    s.grp.trap = false → s.grp.run = t :: r → s.grp.run.all (fun t => decide ((s.grp.thread t).stack ≠ [])) = true →
    ((s.grp.thread t).stack.headD 0).toNat % 4 ≠ 0 → handles s.grp (Cause.code .misaligned) →
    exec (.gret f) s = .next (s.performed
      (inHandler s.grp (ownRecord s.grp { cause := .misaligned, addr := ((s.grp.thread t).stack.headD 0).zeroExtend 64 }) s.grp.pc
        (maskOf s.grp.run))))

/-- What a source says (07_registers R103, R110, R111): FULL is read; PENDING waits, or with the trap bit faults; EMPTY faults; FAULTED
reports the record held; an empty queue waits or with the trap bit faults; a closed and empty queue faults. -/
def Sys2Proof.Claims.SourceVerdicts : Prop :=
  (∀ trap, regVerdict .full trap = .run) ∧
  regVerdict .pending false = .wait ∧ regVerdict .pending true = .fault { cause := .emptyRead } ∧
  (∀ trap, regVerdict .empty trap = .fault { cause := .emptyRead }) ∧ (∀ trap, regVerdict .faulted trap = .deferred) ∧
  (∀ e trap, popVerdict (.ready e) trap = .run) ∧ popVerdict .empty false = .wait ∧
  popVerdict .empty true = .fault { cause := .emptyRead } ∧ (∀ trap, popVerdict .closed trap = .fault { cause := .queueClosed }) ∧
  (∀ (g : Group) (x : Thread) (o p : Src), g.threadVerdict x [o] ≠ .run → g.threadVerdict x [o, p] = g.threadVerdict x [o])

/-- A lane-set word that writes one value, on registers, when some sources cannot be read (R103, 15_faults R260): arithmetic, selection,
identifier and conversion words. -/
def Sys2Proof.Claims.LaneFates : Prop :=
  IntegerRules MeetFates ∧ ImmediateRules MeetFates ∧ SelectRules MeetFates ∧ FloatRules MeetFates ∧ FloatOrderRules MeetFates ∧
  PackedRules MeetFates ∧ ConversionRules MeetFates

/-- Taking an exception (R261): the trap CSRs are written and control passes to the handler; without one the group is held; in trap
context it is held and the trap CSRs stay. -/
def Sys2Proof.Claims.TrapEntry : Prop :=
  ∀ (s : State) (k : Nat) (i : TrapInfo),
    ((s.group k).trap = false → handles (s.group k) i.cause →
      s.enterTrap k i = s.setGroup k { s.group k with
        trapcause := i.cause, trapaddr := i.addr, trappc := i.pc, trapmask := i.mask, trap := true, report := i.report,
        hpc := (s.group k).tvec, held := false }) ∧
    ((s.group k).trap = false → ¬ handles (s.group k) i.cause →
      (s.enterTrap k i).group k = { s.group k with
        trapcause := i.cause, trapaddr := i.addr, trappc := i.pc, trapmask := i.mask, trap := true, report := i.report, hpc := 0,
        held := true }) ∧
    ((s.group k).trap = true → (s.enterTrap k i).group k = { s.group k with held := true })

/-- A group word that reads an EMPTY register or a closed and empty queue traps at itself (R103, R261). -/
def Sys2Proof.Claims.GroupWordTraps : Prop :=
  TrapsAtSource .gadd ∧ TrapsAtSource .gsub ∧ TrapsAtSource .gmul ∧ TrapsAtSource .gmin ∧ TrapsAtSource .gmax ∧
  TrapsAtSource .gand ∧ TrapsAtSource .gor ∧ TrapsAtSource .gxor ∧ TrapsAtSource .gshl ∧ TrapsAtSource .gshr ∧
  TrapsAtSource .gsar ∧ TrapsAtSource .gmulh ∧ TrapsAtSource .gdivu ∧ TrapsAtSource .gremu

/-- GTRAP (R375, R261) traps with SOFTWARE_TRAP at the following word, its code in the record. -/
def Sys2Proof.Claims.SoftwareTrap : Prop :=
  ∀ (code : BitVec 18) (s : State), s.groupReady {} = true → s.grp.trap = false → handles s.grp (Cause.code .softwareTrap) →
    exec (.unlisted (.gtrap code)) s = .next (s.performed (inHandler s.grp.advance
      { cause := Cause.code .softwareTrap, fpc := s.grp.pc, entries := s.grp.entriesCount, v := true, grp := true, code := code }
      s.grp.advance.pc (maskOf s.grp.run)))

/-- TRAP and BKPT (R375) park each acting thread, with its code; RPC is the next word after TRAP and the word itself after BKPT. -/
def Sys2Proof.Claims.ThreadTraps : Prop :=
  (∀ (code : BitVec 9) (pg : Fin 8), Changes (.unlisted (.trap code pg)) { guard := laneGuard pg false } (fun g _ _ x =>
    { x with st := .parked, fault := { cause := Cause.code .softwareTrap, fpc := x.pc, rpc := x.pc + 4, entries := g.entriesCount,
                                       v := true, code := code.zeroExtend 18 } })) ∧
  (∀ (code : BitVec 9) (pg : Fin 8), Changes (.unlisted (.bkpt code pg)) { guard := laneGuard pg false } (fun g _ _ x =>
    { x with st := .parked, fault := { cause := Cause.code .breakpoint, fpc := x.pc, rpc := x.pc, entries := g.entriesCount,
                                       v := true, code := code.zeroExtend 18 } }))

/-- RTE (R376, R262): it leaves trap context; the threads of `trapmask` take `trappc`; when a report ends, each parked thread goes on at
its RPC with no record, and its FAULTED registers are EMPTY. That the group's own FAULTED registers become EMPTY with its record is the
model's reading (log entry 78). Outside trap context it traps with PRIVILEGED (02_encoding R30). Where
`trappc` is no multiple of 4 the group is held at the RTE (02_encoding R17, R261); that RTE is a computed return in the sense of R17 is
the model's reading (log entry 27). -/
def Obligations.ReturnFromTrap : Prop :=
  (∀ (f : GrpGuard) (s : State), s.groupReady { guard := s.grp.cond f.cg != f.ng } = true → s.grp.trap = true →
    s.grp.report = false → s.grp.trappc.toNat % 4 = 0 →
    exec (.unlisted (.rte f)) s = .next (s.performed { s.grp with
      trap := false, report := false, fault := {}, held := false, hpc := 0,
      gst := s.grp.gst.mapKV (fun _ f => if f = .faulted then .empty else f),
      threads := s.grp.threads.mapKV (fun t x => if s.grp.trapmask.getLsbD t then { x with pc := s.grp.trappc } else x) })) ∧
  (∀ (f : GrpGuard) (s : State), s.groupReady { guard := s.grp.cond f.cg != f.ng } = true → s.grp.trap = true →
    s.grp.report = true →
    s.grp.threads.all (fun p => decide (p.2.st = .parked → p.2.fault.rpc.toNat % 4 = 0)) = true →
    exec (.unlisted (.rte f)) s = .next (s.performed { s.grp with
      trap := false, report := false, fault := {}, held := false, hpc := 0,
      gst := s.grp.gst.mapKV (fun _ f => if f = .faulted then .empty else f),
      threads := s.grp.threads.mapKV (fun _ x =>
        if x.st = .parked then
          { x with st := .ready, pc := x.fault.rpc, fault := {}, storeFault := none, waitAt := none,
                   vst := x.vst.mapKV (fun _ f => if f = .faulted then .empty else f) }
        else x) })) ∧
  (∀ (f : GrpGuard) (s : State), s.grp.hint = none → s.grp.trap = false → handles s.grp (Cause.code .privileged) →
    exec (.unlisted (.rte f)) s = .next (s.performed
      (inHandler s.grp (ownRecord s.grp { cause := .privileged }) s.grp.pc (maskOf s.grp.run)))) ∧
  (∀ (f : GrpGuard) (s : State), s.groupReady { guard := s.grp.cond f.cg != f.ng } = true → s.grp.trap = true →
    s.grp.report = false → s.grp.trappc.toNat % 4 ≠ 0 →
    ∃ t, exec (.unlisted (.rte f)) s = .next t ∧ t.group s.cur = { s.grp.ended s.now with held := true })

/-- CSR words (R263, R373): CSRRD gives the CSR's value, a read of `fpm` once no lane word is outstanding and no collective is gathering,
and else waits (03_numbers R46); CYCLE the cycle counter; CSRWR writes `fpm`, `klen`, `abase`, `wsel`, `wpat` and in
a privileged context the trap CSRs; a value with a reserved bit traps with RESERVED_FIELD, and a privileged CSR outside such a context
traps with PRIVILEGED. -/
def Sys2Proof.Claims.CsrWords : Prop :=
  (∀ (d : Opnd) (csr : BitVec 12) (s : State), s.groupReady { ok := csrListed csr.toNat, dest := destOf d 1 } = true →
    let awaited := csr = 1 ∧ (s.grp.collGathered = true ∨ s.grp.laneOutstanding = true)
    (¬ awaited → exec (.unlisted (.csrrd d csr)) s =
      .next (s.groupResult { ok := csrListed csr.toNat, dest := destOf d 1 } d (s.csrValue csr.toNat))) ∧
    (awaited → exec (.unlisted (.csrrd d csr)) s = .next (s.stall (.unlisted (.csrrd d csr))))) ∧
  (∀ (d : Opnd) (s : State), s.groupReady { dest := destOf d 1 } = true →
    exec (.unlisted (.cycle d)) s = .next (s.groupResult { dest := destOf d 1 } d (s.cyc s.curCore))) ∧
  (∀ (d : Opnd) (csr : BitVec 12) (s : State),
    let w : GrpWord := { ok := csrWritable csr.toNat, srcs := [{ o := d }] }
    s.groupReady w = true → (csrPrivileged csr.toNat = true → s.grp.privileged = true) →
    csrValueOk csr.toNat (gv (s.groupValues w) 0) = true → (csr = 1 → s.grp.collGathered = false) →
    exec (.unlisted (.csrwr d csr)) s = .next (afterGroup s w (fun g v => (g.setCsr csr.toNat (gv v 0)).advance))) ∧
  (∀ (d : Opnd) (csr : BitVec 12) (s : State), s.grp.hint = none → csrPrivileged csr.toNat = true → s.grp.privileged = false →
    handles s.grp (Cause.code .privileged) →
    exec (.unlisted (.csrwr d csr)) s = .next (s.performed
      (inHandler s.grp (ownRecord s.grp { cause := .privileged }) s.grp.pc (maskOf s.grp.run)))) ∧
  (∀ (g : Group) (v : W64), g.setCsr 0x001 v = { g with fpm := v } ∧ g.setCsr 0x002 v = { g with klen := v } ∧
    g.setCsr 0x005 v = { g with abase := v } ∧ g.setCsr 0x006 v = { g with wsel := v } ∧
    g.setCsr 0x007 v = { g with wpat := v } ∧ g.setCsr 0x020 v = { g with trapcause := v.truncate 8 } ∧
    g.setCsr 0x021 v = { g with trapaddr := v } ∧ g.setCsr 0x022 v = { g with trappc := v.truncate 56 })

/-- Memory (04_memory R54; 05_slices R68; 00_scope R4): a byte written is read back, no other byte changes, and a list of bytes is written
at rising addresses; every write keeps the one canonical form in which equal memories are equal lists. -/
def Sys2Proof.Claims.MemoryReadsBackWhatWasWritten : Prop :=
  ∀ (m : List Host.Cell) (k : Nat) (bs : List Byte), Memory.wf m = true →
    Memory.wf (Memory.setBytes m k bs) = true ∧
    (∀ i < bs.length, Memory.get (Memory.setBytes m k bs) (k + i) = bs.getD i 0) ∧
    (∀ a, a < k ∨ k + bs.length ≤ a → Memory.get (Memory.setBytes m k bs) a = Memory.get m a)

/-- Two canonical memories that read alike everywhere are the same list. -/
def Sys2Proof.Claims.CanonicalMemoriesAreEqual : Prop :=
  ∀ m n : List Host.Cell, Memory.wf m = true → Memory.wf n = true → (∀ a, Memory.get m a = Memory.get n a) → m = n

/-- Lane loads from slices (R145, R152, R153, 07_registers R102). -/
def Sys2Proof.Claims.LaneLoads : Prop :=
  LoadsSlices .ld8 (fun f : LaneMem => loadWord f.d [f.a] f.pg 1) (·.d) 1 (fun f => sizedEa f.off 1) ∧
  LoadsSlices .ld16 (fun f : LaneMem => loadWord f.d [f.a] f.pg 2) (·.d) 2 (fun f => sizedEa f.off 2) ∧
  LoadsSlices .ld32 (fun f : LaneMem => loadWord f.d [f.a] f.pg 4) (·.d) 4 (fun f => sizedEa f.off 4) ∧
  LoadsSlices .ld64 (fun f : LaneMem => loadWord f.d [f.a] f.pg 8) (·.d) 8 (fun f => sizedEa f.off 8) ∧
  LoadsSlices .ld128 (fun f : LaneMem => loadWord f.d [f.a] f.pg 16) (·.d) 16 (fun f => sizedEa f.off 16) ∧
  LoadsSlices .ldx (fun f : LaneMemIdx => loadWord f.d [f.a, f.b] f.pg 4) (·.d) 4 (fun _ => indexedEa)

/-- Lane stores to slices (R145, R152, R153). -/
def Obligations.LaneStores : Prop :=
  StoresSlices .st8 (storeWord · 1) (·.sc) (·.st) 1 (fun f => sizedEa f.off 1) (storeData 1) ∧
  StoresSlices .st16 (storeWord · 2) (·.sc) (·.st) 2 (fun f => sizedEa f.off 2) (storeData 2) ∧
  StoresSlices .st32 (storeWord · 4) (·.sc) (·.st) 4 (fun f => sizedEa f.off 4) (storeData 4) ∧
  StoresSlices .st64 (storeWord · 8) (·.sc) (·.st) 8 (fun f => sizedEa f.off 8) (storeData 8) ∧
  StoresSlices .st128 (storeWord · 16) (·.sc) (·.st) 16 (fun f => sizedEa f.off 16) (storeData 16) ∧
  StoresSlices .stx (fun f : LaneMemIdx =>
      { blocks := blockOf f.d 1 ++ blockOf f.a 1 ++ blockOf f.b 1, guard := lmGuard f.pg,
        srcs := [{ o := f.a }, { o := f.b }, { o := f.d }], counts := true }) (·.sc) (·.st) 4 (fun _ => indexedEa)
    (fun _ _ v => leBytes 4 (v.getD 2 0).toNat)

/-- Lane atomics on slices (R154). AFADD rounds to nearest and raises nothing. -/
def Obligations.LaneAtomics : Prop :=
  AtomicOnSlice .aadd false (fun old b _ => old + b) ∧
  AtomicOnSlice .amin false (fun old b _ => if old.toInt ≤ b.toInt then old else b) ∧
  AtomicOnSlice .amax false (fun old b _ => if b.toInt ≤ old.toInt then old else b) ∧
  AtomicOnSlice .aumin false (fun old b _ => if old.toNat ≤ b.toNat then old else b) ∧
  AtomicOnSlice .aumax false (fun old b _ => if b.toNat ≤ old.toNat then old else b) ∧
  AtomicOnSlice .aand false (fun old b _ => old &&& b) ∧
  AtomicOnSlice .aor false (fun old b _ => old ||| b) ∧
  AtomicOnSlice .axor false (fun old b _ => old ^^^ b) ∧
  AtomicOnSlice .axch false (fun _ b _ => b) ∧
  AtomicOnSlice .acas true (fun old b new => if old = b then new else old) ∧
  AtomicOnSlice .afadd false (fun old b _ => (roundFp32 .rn ((fp32 old).add .rn (fp32 b)).1).1)

/-- Group loads, stores and atomics on slices (R157, R158). -/
def Obligations.GroupMemoryWords : Prop :=
  GroupLoadsSlice .gld32 4 ∧ GroupLoadsSlice .gld64 8 ∧ GroupStoresSlice .gst32 4 ∧ GroupStoresSlice .gst64 8 ∧
  (∀ (f : GrpAtom) (s : State) (key : Nat),
    let w : GrpWord :=
      { srcs := [{ o := f.a }, { o := f.b }], also := if f.op = .cas then [regNum f.d] else [], dest := .regs (regNum f.d) 1,
        counts := true }
    let v := s.groupValues w
    s.groupReady w = true → noBuffers s → Memory.wf s.mem = true → releases .device (atomReleases f.st) = false → s.awaitsRemote s.cur = false → f.op ≠ .fadd →
    (s.vdev s.curVd).capture = [] → reachesSlice s (gv v 0) 8 .atomic key →
    ∃ s2, exec (.gatom f) s = .next s2 ∧ s2.load64 key = wideAtomic f.op (s.load64 key) (gv v 1) (s.grp.reg (regNum f.d)) ∧
      (∀ a, a < key ∨ key + 8 ≤ a → Memory.get s2.mem a = Memory.get s.mem a) ∧
      s2.groups = (afterGroup s w (fun g _ => ((g.setState (regNum f.d) .pending).addOp
        [{ t := 32, regs := [(regNum f.d, s.load64 key)] }]).advance)).groups)

/-- One access of a thread or group wherever it goes (R146, R149, R150, 04_memory R56): a strong load at device or domain scope reads the
home after the core's own line has been written back and dropped; another load reads the line's bytes where the L1 holds them, faults
where they are uncorrectable there (R66, R67), and otherwise brings the line in; a strong store writes the home; another store writes
the line alone and marks its bytes dirty. An L1 holds 512 lines: a full one writes back and drops a line before it takes another. -/
def Sys2Proof.Claims.DeviceAccesses : Prop :=
  ∀ (s : State) (core vd n : Nat) (ea : W64) (bs : List Byte) (pa at_ : Nat) (e : W64),
    (s.check core vd ea n .load = .ok (.device pa e at_) →
      let s1 := s.touch core vd ea (.device pa e at_) false
      let s2 := s1.flushLine core (lineOf pa)
      (s2.poisoned pa n = false → s.performLoad core vd ea n true = (s2, .ok (s2.bytes pa n))) ∧
      (s2.poisoned pa n = true → (s.performLoad core vd ea n true).2 = .error { cause := .uncorrectable, addr := ea }) ∧
      (∀ l, (s1.core core).line (lineOf pa) = some l → l.bad &&& byteMask (pa % 128) n = 0 → l.has (pa % 128) n = true →
        s.performLoad core vd ea n false = (s1, .ok (l.take (pa % 128) n))) ∧
      ((s1.core core).line (lineOf pa) = none → (L1Line.has { line := lineOf pa } (pa % 128) n) = false →
        s1.poisoned pa n = false →
        (s.performLoad core vd ea n false).1 = s1.setLine core (s1.filled { line := lineOf pa })) ∧
      (∀ l, (s1.core core).line (lineOf pa) = some l → l.bad &&& byteMask (pa % 128) n ≠ 0 →
        s.performLoad core vd ea n false = (s1, .error { cause := .uncorrectable, addr := ea }))) ∧
    (s.check core vd ea bs.length .store = .ok (.device pa e at_) →
      let s1 := s.touch core vd ea (.device pa e at_) true
      let s2 := s1.flushLine core (lineOf pa)
      (s2.poisonPartial pa bs.length = false → s.performStore core vd ea bs true = (s2.writeHome pa bs, .stored)) ∧
      (let l0 := s1.lineOrNew core (lineOf pa)
       let l := l0.putAll (pa % 128) bs
       l0.badPartial (pa % 128) bs.length = false →
       s.performStore core vd ea bs false =
         (s1.setLine core { l with
           dirty := l.dirty ||| byteMask (pa % 128) bs.length, bad := l.bad &&& ~~~byteMask (pa % 128) bs.length }, .stored))) ∧
    (∀ l : L1Line, ((s.core core).l1.length < 512 ∨ ((s.core core).line l.line).isSome = true) →
      s.setLine core l = s.setCore core { s.core core with l1 := l :: (s.core core).l1.filter (fun x => x.line != l.line) }) ∧
    (∀ l : L1Line, 512 ≤ (s.core core).l1.length → (s.core core).line l.line = none → s.evictable core ≠ [] →
      ∃ ln ∈ s.evictable core, s.setLine core l = (((s.flushLine core ln).draw).replaceLine core l))

/-- The order of checks of one access (R59, 04_memory R53, R54): an address of 57 bits or more, a fetch from a slice, a slice of another
virtual device, a misaligned address, a missing translation, a leaf or key that forbids the access. -/
def Sys2Proof.Claims.AccessChecks : Prop :=
  ∀ (s : State) (core vd n : Nat) (ea : W64) (k : AccKind),
    (2 ^ 56 ≤ ea.toNat → s.check core vd ea n k = .error { cause := .pageNotPresent, addr := ea, wr := k.writes, ex := k == .fetch }) ∧
    (sliceBase ≤ ea.toNat → ea.toNat < 2 ^ 56 → k ≠ .fetch → s.sliceAt core vd ea.toNat = none →
      s.check core vd ea n k = .error { cause := .sliceRange, addr := ea, wr := k.writes }) ∧
    (sliceBase ≤ ea.toNat → ea.toNat < 2 ^ 56 → s.check core vd ea n .fetch =
      .error { cause := .pageProtection, addr := ea, ex := true }) ∧
    (∀ key, sliceBase ≤ ea.toNat → ea.toNat < 2 ^ 56 → k ≠ .fetch → s.sliceAt core vd ea.toNat = some key →
      s.check core vd ea n k =
        if ea.toNat % n = 0 then .ok (.slice key) else .error { cause := .misaligned, addr := ea, wr := k.writes }) ∧
    (ea.toNat < sliceBase → ea.toNat % n ≠ 0 →
      s.check core vd ea n k = .error { cause := .misaligned, addr := ea, wr := k.writes, ex := k == .fetch }) ∧
    (∀ malf, ea.toNat < sliceBase → ea.toNat % n = 0 → s.translate core vd ea.toNat = .missing malf →
      s.check core vd ea n k =
        .error { cause := .pageNotPresent, addr := ea, wr := k.writes, ex := k == .fetch, malf := malf }) ∧
    (∀ e at_ sz, ea.toNat < sliceBase → ea.toNat % n = 0 → s.translate core vd ea.toNat = .leaf e at_ sz →
      (permOk e k = false ∨ keyOk (s.vdev vd).keys e k = false) →
      s.check core vd ea n k = .error { cause := .pageProtection, addr := ea, wr := k.writes, ex := k == .fetch, host := e.field 62 2 == 1 })

/-- PREF and GPREF (R156, R159) bring a readable, unclaimed device line into the L1 and do nothing at any other address; they change no
register, and the run goes on. -/
def Sys2Proof.Claims.Prefetches : Prop :=
  (∀ (f : LanePref) (s : State),
    let w : LaneWord := { blocks := blockOf f.a 1, guard := lmGuard f.pg, srcs := [{ o := f.a }] }
    s.laneReady w = true →
    let s2 := (w.acting s.grp).foldl (fun x t => x.prefetch s.curCore s.curVd (addressed s w (sizedEa f.off 128) t)) (s.take [f.a]).2
    exec (.pref f) s = .next (s2.performed (s2.grp.stepRun (w.acting s.grp) (fun _ y => y))) ∧
      s2.groups = (s.take [f.a]).2.groups) ∧
  (∀ (f : GrpTwo) (s : State),
    let w : GrpWord := { srcs := [{ o := f.a }, { o := f.b }] }
    s.groupReady w = true →
    let ea := gv (s.groupValues w) 0 + gv (s.groupValues w) 1
    let s2 := ((s.take [f.a, f.b]).2).prefetch s.curCore s.curVd ea
    exec (.gpref f) s = .next (s2.performed s2.grp.advance) ∧ s2.groups = (s.take [f.a, f.b]).2.groups) ∧
  (∀ (s : State) (core vd pa at_ : Nat) (ea e : W64), ea.toNat < sliceBase → s.check core vd ea 1 .load = .ok (.device pa e at_) →
    s.claimed (lineOf pa * 128) 128 = false → s.l1Room core = true → s.walkFull core vd ea = false →
    let s1 := s.touch core vd ea (.device pa e at_) false
    s.prefetch core vd ea = s1.setLine core (s1.filled (s1.lineOrNew core (lineOf pa)))) ∧
  (∀ (s : State) (core vd : Nat) (ea : W64), (2 ^ 56 ≤ ea.toNat ∨ sliceBase ≤ ea.toNat) → s.prefetch core vd ea = s)

/-- LONG_LATENCY_COMPLETE (07_registers R101, R102): the last piece of an operation of one thread, or of the group, makes its register FULL
with its value, or FAULTED with the record that the owner keeps if it has none, and the operation is no longer outstanding. -/
def Sys2Proof.Claims.LongLatencyCompletes : Prop :=
  ∀ (s : State) (k op r : Nat) (v : W64) (rest : List OutOp) (acq : Bool) (mask : BitVec 32),
    (∀ o ∈ rest, o.id ≠ op) →
    (∀ t : Nat, t < 32 → mask.getLsbD t = true →
      (s.group k).ops = { id := op, pieces := [{ t := t, regs := [(r, v)] }], acq := acq } :: rest →
      exec (.longLatencyComplete k op mask) s = .next (s.setGroup k (({ s.group k with ops := rest } : Group).setThread t
        (((s.group k).thread t).write r (v.truncate 32)))).fire) ∧
    ((s.group k).ops = { id := op, pieces := [{ t := 32, regs := [(r, v)] }], acq := acq } :: rest →
      exec (.longLatencyComplete k op mask) s = .next (s.setGroup k (({ s.group k with ops := rest } : Group).write r v)).fire) ∧
    (∀ (t : Nat) (e : FaultRec), t < 32 → mask.getLsbD t = true →
      (s.group k).ops = { id := op, pieces := [{ t := t, regs := [(r, v)], fault := some e }], acq := acq } :: rest →
      exec (.longLatencyComplete k op mask) s = .next (s.setGroup k (({ s.group k with ops := rest } : Group).setThread t
        { (s.group k).thread t with
          vst := ((s.group k).thread t).vst.set r .faulted,
          fault := if ((s.group k).thread t).fault.v then ((s.group k).thread t).fault else e })).fire)

/-- Queue words (07_registers R108 to R111, R113): QPUT pushes ga as a uniform entry; QGET leaves gd PENDING and takes an entry later,
when QGET_FILL pops the oldest entry for the oldest QGET; QCLOSE closes the queue behind the port; QSTAT returns the
count of the entries that pending QGETs leave, CLOSED, the kind of the first of them, whether the port is linked and on which side. -/
def Sys2Proof.Claims.QueueWords : Prop :=
  (∀ (f : GrpUn) (s : State), s.groupReady (gunWord s.grp f) = true →
    exec (.qput f) s = .next (s.groupResult (gunWord s.grp f) f.d (gv (s.groupValues (gunWord s.grp f)) 0))) ∧
  (∀ (f : GrpUn) (n : Fin 56) (q : Fin 8) (s : State), f.d = .reg n → f.a = .port q →
    let w : GrpWord :=
      { guard := s.grp.cond f.cg != f.ng, ok := s.portsOk [f.a] .none, dest := .regs n.val 1, counts := true }
    let x := s.portQueue s.cur q.val
    let y := s.grp.queue q.val
    s.groupReady w = true → (x.entries.length ≤ x.gets.length → x.closed = false ∧ f.ea = false) → x.gets.length < 4 →
    exec (.qget f) s = .next (afterGroup s w (fun g _ =>
      ((g.setQueue q.val { y with gets := y.gets ++ [(n.val, f.w, g.pc)] }).setState n.val .pending).advance))) ∧
  (∀ (s : State) (e : QEntry) (es : List QEntry) (r : Nat) (w : Bool) (pc : VA) (rest : List (Nat × Bool × VA)),
    ((s.group s.on.a).queue s.on.b).gets = (r, w, pc) :: rest → ((s.group s.on.a).queue s.on.b).entries = e :: es →
    exec .qgetFill s = .next (s.setGroup s.on.a (((s.group s.on.a).setQueue s.on.b
      { (s.group s.on.a).queue s.on.b with entries := es, gets := rest }).write r (e.group w))).fire) ∧
  (∀ (f : GrpQclose) (q : Fin 8) (s : State), f.d = .port q → s.groupReady { guard := s.grp.cond f.cg != f.ng } = true →
    let h := s.portHome s.cur q.val
    let s1 := s.setGroup h.1 ((s.group h.1).setQueue h.2 { (s.group h.1).queue h.2 with closed := true })
    exec (.qclose f) s = .next (s1.performed s1.grp.advance)) ∧
  (∀ (f : GrpQstat) (q : Fin 8) (s : State), f.a = .port q →
    let w : GrpWord := { guard := s.grp.cond f.cg != f.ng, dest := destOf f.d 1 }
    s.groupReady w = true →
    exec (.qstat f) s = .next (s.groupResult w f.d (s.queueStatus q.val))) ∧
  (∀ (s : State) (q : Nat), (s.portQueue s.cur q).entries.length ≤ 4 →
    let v := s.queueStatus q
    let l := (s.portQueue s.cur q).entries.drop (s.portQueue s.cur q).gets.length
    v.toNat % 8 = l.length ∧ v.getLsbD 3 = (s.portQueue s.cur q).closed ∧
    (v.getLsbD 4 = true ↔ ∃ x, l.head? = some (.uniform x)) ∧
    v.getLsbD 5 = decide (s.portUse s.cur q ≠ .unlinked) ∧ v.getLsbD 6 = decide (s.portUse s.cur q = .consumer) ∧ v.toNat < 128)

/-- AGEN and AGENX (R114). -/
def Sys2Proof.Claims.AffineGeneration : Prop :=
  Generates .agen (fun _ a b e t => lowS a + t * highS a + e * lowS b) (fun _ a b n => lowS a + n * lowS b) ∧
  Generates .agenx
    (fun f a b e t => lowS a + (t % 2 ^ f.w.val : Nat) * highS a + (t / 2 ^ f.w.val : Nat) * lowS b +
      e * (32 / 2 ^ f.w.val : Nat) * lowS b)
    (fun f a b n => lowS a + n * (32 / 2 ^ f.w.val : Nat) * lowS b)

/-- An arrival (06_copy R95, R96): the count goes up, whole phases are counted off, the error record is the first since CBINIT, and the
last phase counts as an error phase if it alone completed and an arrival of it carried an error. -/
def Sys2Proof.Claims.BarrierArrivals : Prop :=
  (∀ (b : Barrier) (n : Nat) (e : Option ArrErr), b.expect ≠ 0 →
    let c := b.arrive n e
    c.arrived = (b.arrived + n) % b.expect ∧ c.phase = b.phase + BitVec.ofNat 8 ((b.arrived + n) / b.expect) ∧
    c.expect = b.expect ∧ c.ew = (b.ew || e.isSome) ∧
    (∀ x, e = some x → b.ew = false → c.cause = x.cause ∧ c.addr = x.addr ∧ c.errIdx = BitVec.ofNat 16 (min x.idx 0xFFFF)) ∧
    (b.ew = true ∨ e = none → c.cause = b.cause ∧ c.addr = b.addr ∧ c.errIdx = b.errIdx) ∧
    ((b.arrived + n) / b.expect = 0 → c.curErr = (b.curErr || e.isSome) ∧ c.lastErr = b.lastErr) ∧
    ((b.arrived + n) / b.expect = 1 → c.curErr = false ∧ c.lastErr = (b.curErr || e.isSome)) ∧
    (1 < (b.arrived + n) / b.expect → c.curErr = false ∧ c.lastErr = false)) ∧
  (∀ (b : Barrier) (p : BitVec 8), b.passed p = true ↔ 1 ≤ (b.phase - p).toNat ∧ (b.phase - p).toNat ≤ 128)

/-- Barrier words (R98): CBINIT sets the expected count and clears the rest, once every command and sequence issued before it that names the barrier has delivered its arrival;
CBARV arrives; CBWAIT returns the barrier's word once the phase has passed; CBTEST returns it at once with the answer in a condition.
A count of 0 or above 262,143 traps with RESERVED_FIELD. -/
def Sys2Proof.Claims.BarrierWords : Prop :=
  (∀ (f : GrpCbinit) (s : State),
    let w : GrpWord := { srcs := [{ o := f.a }] }
    let n := (gv (s.groupValues w) 0).toNat
    let s1 := (s.take [f.a]).2
    s.groupReady w = true → 1 ≤ n → n ≤ 262143 → s.cbAwaited s.cur f.cb.val = ([], []) →
    exec (.cbinit f) s = .next ((s1.setTeam s.grp.team
      { s.curTeam with cbs := s.curTeam.cbs.set f.cb.val { expect := n } }).performed s1.grp.advance)) ∧
  (∀ (f : GrpCbarv) (s : State) (tm : Team),
    let w : GrpWord := { srcs := if f.err then [{ o := f.a }, { o := f.b }] else [{ o := f.a }] }
    let v := s.groupValues w
    let s1 := (s.take (w.srcs.map (·.o))).2
    let e := if f.err then some { cause := BitVec.ofNat 8 ((gv v 1).toNat / 2 ^ 56), addr := (gv v 1).truncate 56, idx := 0 : ArrErr }
      else none
    s.groupReady w = true → 1 ≤ (gv v 0).toNat → (gv v 0).toNat ≤ 262143 → s.teams.find s.grp.team = some tm →
    exec (.cbarv f) s = .next ((s1.setTeam s.grp.team
      { tm with cbs := tm.cbs.set f.cb.val ((tm.cb f.cb.val).arrive (gv v 0).toNat e) }).performed s1.grp.advance)) ∧
  (∀ (f : GrpCbwait) (s : State),
    let w : GrpWord := { srcs := [{ o := f.a }], dest := destOf f.b 1 }
    let b := s.curTeam.cb f.cb.val
    s.groupReady w = true → b.passed ((gv (s.groupValues w) 0).truncate 8) = true →
    (f.te = false ∨ b.ew = false ∨ b.cause = 0) →
    exec (.cbwait f) s = .next (s.groupResult w f.b (if f.ew then b.word1 else b.word0))) ∧
  (∀ (f : GrpCbwait) (s : State),
    let w : GrpWord := { srcs := [{ o := f.a }], dest := destOf f.b 1 }
    s.groupReady w = true → (s.curTeam.cb f.cb.val).passed ((gv (s.groupValues w) 0).truncate 8) = false →
    exec (.cbwait f) s = .next (s.stall (.cbwait f))) ∧
  (∀ (f : GrpCbtest) (s : State),
    let w : GrpWord := { srcs := [{ o := f.a }], dest := destOf f.b 1 }
    let b := s.curTeam.cb f.cb.val
    let s2 := ((s.take [f.a]).2).writeGroup f.b (if f.ew then b.word1 else b.word0)
    s.groupReady w = true →
    exec (.cbtest f) s = .next (s2.performed
      ((s2.grp.setCond f.c (b.passed ((gv (s.groupValues w) 0).truncate 8))).advance))) ∧
  (∀ (f : GrpCbinit) (s : State),
    let w : GrpWord := { srcs := [{ o := f.a }] }
    s.groupReady w = true → (gv (s.groupValues w) 0 = 0 ∨ 262143 < (gv (s.groupValues w) 0).toNat) → s.grp.trap = false →
    handles s.grp (Cause.code .reservedField) →
    exec (.cbinit f) s = .next (s.performed
      (inHandler s.grp (ownRecord s.grp { cause := .reservedField }) s.grp.pc (maskOf s.grp.run)))) ∧
  (∀ (f : GrpCbwait) (s : State),
    let x : State := { s with cur := s.on.a }
    let w : GrpWord := { srcs := [{ o := f.a }], dest := destOf f.b 1 }
    let b := x.curTeam.cb f.cb.val
    (s.group s.on.a).waitWord = some (.cbwait f) → s.mayResume s.on.a = true → x.groupReady w = true →
    b.passed ((gv (x.groupValues w) 0).truncate 8) = true → (f.te = false ∨ b.ew = false ∨ b.cause = 0) →
    exec .barrierWaitEnd s = .next (x.groupResult w f.b (if f.ew then b.word1 else b.word0)))

namespace Sys2Proof.Claims

open Sys2Proof.Machine

/-- Order of two magnitudes `a.1 * 2^a.2` and `b.1 * 2^b.2`. -/
abbrev magLe (a b : Nat × Int) : Prop := a.1 * 2 ^ (a.2 - min a.2 b.2).toNat ≤ b.1 * 2 ^ (b.2 - min a.2 b.2).toNat
/-- Strict order of two magnitudes. -/
abbrev magLt (a b : Nat × Int) : Prop := ¬ magLe b a

/-- The value is `v * 2^k`. -/
def standsFor (x : Ext) (v k : Int) : Prop :=
  ∃ n m e, x = .fin n m e ∧ signedAt n m e (min e k) = v * 2 ^ (k - min e k).toNat

/-- The magnitude of the code `c` of a format as R38 gives it, the exponent range unbounded above. -/
def codeMag (f : Fmt) (c : Nat) : Nat × Int :=
  if c / 2 ^ f.mant = 0 then (c, 1 - (f.bias : Int) - f.mant)
  else (2 ^ f.mant + c % 2 ^ f.mant, ((c / 2 ^ f.mant : Nat) : Int) - f.bias - f.mant)

/-- `c` is the code to which a magnitude rounds (R44): of the greatest code at or below it and the next one, the nearer, a tie to the even
one; toward zero the first; upward or downward the one on that side. -/
def roundsTo (f : Fmt) (r : Rnd) (neg : Bool) (x : Nat × Int) (c : Nat) : Prop :=
  ∃ k, magLe (codeMag f k) x ∧ magLt x (codeMag f (k + 1)) ∧
    (magLe x (codeMag f k) → c = k) ∧
    (magLt (codeMag f k) x →
      let mid := (2 * (codeMag f k).1 + 1, (codeMag f k).2 - 1)
      match r with
      | .rn => (magLt x mid → c = k) ∧ (magLt mid x → c = k + 1) ∧ (magLe x mid → magLe mid x → c = if k % 2 = 0 then k else k + 1)
      | .rz => c = k
      | .rp => c = if neg then k else k + 1
      | .rm => c = if neg then k + 1 else k)

/-- The sign bit on a magnitude code. -/
def withSign (f : Fmt) (neg : Bool) (c : Nat) : Nat := if neg then 2 ^ (f.bits - 1) + c else c

/-- `fp8_encode` and `round_fp32` of a finite magnitude (R44, R45, R47): the code to which it rounds, unless that exceeds the largest finite
one; NX says that the result differs, UF that it is inexact and tiny after rounding (twice the value rounds below twice the smallest
normal), OF that it overflowed. -/
def EncodesFinite (f : Fmt) : Prop :=
  ∀ (r : Rnd) (sat neg : Bool) (m : Nat) (e : Int), m ≠ 0 →
    ∃ c c2, roundsTo f r neg (m, e) c ∧ roundsTo f r neg (m, e + 1) c2 ∧
      (c ≤ f.maxCode →
        f.encode r sat (.fin neg m e) = (withSign f neg c,
          { nx := !decide (magLe (codeMag f c) (m, e) ∧ magLe (m, e) (codeMag f c)),
            uf := !decide (magLe (codeMag f c) (m, e) ∧ magLe (m, e) (codeMag f c)) && decide (c2 < 2 ^ (f.mant + 1)) })) ∧
      (f.maxCode < c →
        (f.encode r sat (.fin neg m e)).2 = { of_ := true, nx := true } ∧
        let toInf := match r with
          | .rn => true
          | .rz => false
          | .rp => !neg
          | .rm => neg
        (f.encode r sat (.fin neg m e)).1 =
          if f.hasNan = false ∨ sat = true ∨ toInf = false then withSign f neg f.maxCode
          else if f.hasInf then withSign f neg (f.maxCode + 1)
          else f.nanCode)

end Sys2Proof.Claims

open Sys2Proof Sys2Proof.Machine Sys2Proof.Claims

/-- What the exact operations and the one rounding of every floating result are (03_numbers R38, R40, R44, R47, R48): codes, sums, products
and their special cases, rounding into each format, reciprocals and square roots that round as the true ones do (08_compute R134), and
the nearest canonical DS8 code (R42, R389). -/
def Sys2Proof.Claims.ExactNumbers : Prop :=
  (∀ (f : Fmt) (x : Nat),
    let c := x % 2 ^ (f.bits - 1)
    let neg := x.testBit (f.bits - 1)
    (c ≤ f.maxCode → exact f x = .fin neg (codeMag f c).1 (codeMag f c).2) ∧
    (f.maxCode < c → f.hasInf = true → c = f.maxCode + 1 → exact f x = .inf neg) ∧
    (f.maxCode < c → (f.hasInf = true → c ≠ f.maxCode + 1) → exact f x = .nan)) ∧
  (∀ f : Fmt, EncodesFinite f) ∧
  (∀ (f : Fmt) (r : Rnd) (sat neg : Bool) (e : Int),
    f.encode r sat .nan = (if f.hasNan then f.nanCode else 0, { nv := !f.hasNan }) ∧
    f.encode r sat (.fin neg 0 e) = (withSign f neg 0, {}) ∧
    f.encode r sat (.inf neg) =
      (if f.hasInf then (withSign f neg (f.maxCode + 1), {})
       else if f.hasNan then (if sat then withSign f neg f.maxCode else f.nanCode, {})
       else (withSign f neg f.maxCode, { nv := true }))) ∧
  (∀ (r : Rnd) (x : Ext),
    roundFp32 r x = (BitVec.ofNat 32 (Fmt.encode .fp32 r false x).1, (Fmt.encode .fp32 r false x).2)) ∧
  [Fmt.fp32, .fp16, .bf16, .e4m3, .e5m2, .e2m3, .e3m2, .e2m1].map (fun f => (f.bits, f.mant, f.bias, f.maxCode, f.nanCode)) =
    [(32, 23, 127, 0x7F7FFFFF, 0x7FC00000), (16, 10, 15, 0x7BFF, 0x7E00), (16, 7, 127, 0x7F7F, 0x7FC0), (8, 3, 7, 0x7E, 0x7F),
     (8, 2, 15, 0x7B, 0x7F), (6, 3, 1, 0x1F, 0), (6, 2, 3, 0x1F, 0), (4, 1, 1, 7, 0)] ∧
  [Fmt.fp32, .fp16, .bf16, .e4m3, .e5m2, .e2m3, .e3m2, .e2m1].map (fun f => (f.hasInf, f.hasNan)) =
    [(true, true), (true, true), (true, true), (false, true), (true, true), (false, false), (false, false), (false, false)] ∧
  (∀ (r : Rnd) (n n' : Bool) (m m' : Nat) (e e' : Int),
    let z := signedAt n m e (min e e') + signedAt n' m' e' (min e e')
    standsFor (Ext.add r (.fin n m e) (.fin n' m' e')).1 z (min e e') ∧ (Ext.add r (.fin n m e) (.fin n' m' e')).2 = false ∧
    (z = 0 → (Ext.add r (.fin n m e) (.fin n' m' e')).1 = .fin (if m = 0 ∧ n = n' then n else r == .rm) 0 0)) ∧
  (∀ (r : Rnd) (x y : Ext), (x.isNan || y.isNan) = true → x.add r y = (.nan, false) ∧ x.mul y = (.nan, false)) ∧
  (∀ (r : Rnd) (n n' : Bool) (m : Nat) (e : Int),
    Ext.add r (.inf n) (.inf n') = (if n = n' then (.inf n, false) else (.nan, true)) ∧
    Ext.add r (.inf n) (.fin n' m e) = (.inf n, false) ∧ Ext.add r (.fin n' m e) (.inf n) = (.inf n, false) ∧
    Ext.mul (.inf n) (.inf n') = (.inf (n != n'), false) ∧
    Ext.mul (.inf n) (.fin n' m e) = (if m = 0 then (.nan, true) else (.inf (n != n'), false)) ∧
    Ext.mul (.fin n' m e) (.inf n) = (if m = 0 then (.nan, true) else (.inf (n != n'), false))) ∧
  (∀ (n n' : Bool) (m m' : Nat) (e e' : Int), Ext.mul (.fin n m e) (.fin n' m' e') = (.fin (n != n') (m * m') (e + e'), false)) ∧
  (∀ (r : Rnd) (x y z : Ext), x.fma r y z = if (x.mul y).2 = true then (.nan, true) else (x.mul y).1.add r z) ∧
  (∀ (n : Bool) (m : Nat) (e : Int), (Ext.fin n m e).neg = .fin (!n) m e ∧ (Ext.inf n).neg = .inf (!n) ∧ Ext.nan.neg = .nan) ∧
  (∀ (r : Rnd) (n : Bool) (m a : Nat) (e i : Int), m % 2 = 1 → 2 ^ 40 ≤ m → magLt (m - 1, e) (a, i) → magLt (a, i) (m + 1, e) →
    roundFp32 r (.fin n a i) = roundFp32 r (.fin n m e)) ∧
  (∀ (n : Bool) (m : Nat) (e : Int), m ≠ 0 →
    (∃ q k, recipExt (.fin n m e) = .fin n q k ∧ 2 ^ 40 ≤ q ∧
      (magLe (q * m, k + e) (1, 0) ∧ magLe (1, 0) (q * m, k + e) ∨
       q % 2 = 1 ∧ magLt ((q - 1) * m, k + e) (1, 0) ∧ magLt (1, 0) ((q + 1) * m, k + e))) ∧
    (∃ q k, sqrtExt (.fin false m e) = (.fin false q k, false) ∧ 2 ^ 40 ≤ q ∧
      (magLe (q * q, 2 * k) (m, e) ∧ magLe (m, e) (q * q, 2 * k) ∨
       q % 2 = 1 ∧ magLt ((q - 1) * (q - 1), 2 * k) (m, e) ∧ magLt (m, e) ((q + 1) * (q + 1), 2 * k))) ∧
    (m < 2 ^ 24 → ∃ q k, rsqrtExt (.fin false m e) = (.fin false q k, false) ∧ 2 ^ 40 ≤ q ∧
      (magLe (q * q * m, 2 * k + e) (1, 0) ∧ magLe (1, 0) (q * q * m, 2 * k + e) ∨
       q % 2 = 1 ∧ magLt ((q - 1) * (q - 1) * m, 2 * k + e) (1, 0) ∧ magLt (1, 0) ((q + 1) * (q + 1) * m, 2 * k + e))) ∧
    sqrtExt (.fin true m e) = (.nan, true) ∧ rsqrtExt (.fin true m e) = (.nan, true)) ∧
  (∀ (n : Bool) (e : Int),
    recipExt (.fin n 0 e) = .inf n ∧ (∃ k, recipExt (.inf n) = .fin n 0 k) ∧ recipExt .nan = .nan ∧
    sqrtExt (.fin n 0 e) = (.fin n 0 0, false) ∧ sqrtExt (.inf false) = (.inf false, false) ∧ sqrtExt (.inf true) = (.nan, true) ∧
    sqrtExt .nan = (.nan, false) ∧ rsqrtExt (.fin n 0 e) = (.inf n, false) ∧ rsqrtExt (.inf false) = (.fin false 0 0, false) ∧
    rsqrtExt (.inf true) = (.nan, true) ∧ rsqrtExt .nan = (.nan, false)) ∧
  (∀ c : Nat, ds8Value c =
    (if c.testBit 7 then -1 else 1) * 2 ^ (7 - c / 16 % 8) + (if c.testBit 3 then -1 else 1) * 2 ^ (7 - c % 8)) ∧
  (∀ (neg : Bool) (m : Nat) (e : Int),
    let c := (ds8Encode (.fin neg m e)).1
    let k := min e (-7)
    let d := fun b : Nat => (signedAt neg m e k - ds8Value b * 2 ^ (-7 - k).toNat).natAbs
    c < 256 ∧ (∀ b < 256, d c ≤ d b ∧ (d b = d c → (ds8Value c).natAbs ≤ (ds8Value b).natAbs) ∧
      (ds8Value b = ds8Value c → c ≤ b)) ∧
    (ds8Encode (.fin neg m e)).2 = { nx := decide (d c ≠ 0), of_ := decide (2 ^ (1 - k).toNat < m * 2 ^ (e - k).toNat) }) ∧
  ds8Encode .nan = (0x08, { nv := true }) ∧ ds8Encode (.inf false) = (0x00, { nv := true }) ∧ ds8Encode (.inf true) = (0x88, { nv := true })

/-- FEXP2 and FLOG2 (R134): the special values and the exact cases; and of every FP32 operand otherwise the value that is rounded lies within
one part in 2^100 of the true function, which the bounds state without reals: 2 to the power x is compared through its 2^q-th power. -/
def Sys2Proof.Claims.Transcendentals : Prop :=
  exp2Ext .nan = .nan ∧ exp2Ext (.inf false) = .inf false ∧ (∃ k, exp2Ext (.inf true) = .fin false 0 k) ∧
  (∀ (n : Bool) (e : Int), exp2Ext (.fin n 0 e) = .fin false 1 0) ∧
  log2Ext .nan = (.nan, false) ∧ log2Ext (.inf false) = (.inf false, false) ∧ log2Ext (.inf true) = (.nan, true) ∧
  (∀ (n : Bool) (e : Int), log2Ext (.fin n 0 e) = (.inf true, false)) ∧
  (∀ (m : Nat) (e : Int), m ≠ 0 → log2Ext (.fin true m e) = (.nan, true)) ∧
  (∀ (n : Bool) (m : Nat) (e : Int), 0 ≤ e → m ≠ 0 → m * 2 ^ e.toNat ≤ 200 →
    exp2Ext (.fin n m e) = .fin false 1 (if n then -((m * 2 ^ e.toNat : Nat) : Int) else (m * 2 ^ e.toNat : Nat))) ∧
  (∀ (t : Nat) (e : Int), standsFor (log2Ext (.fin false (2 ^ t) e)).1 (e + t) 0 ∧ (log2Ext (.fin false (2 ^ t) e)).2 = false) ∧
  (∀ (n : Bool) (m q : Nat), 0 < q → q ≤ 149 → m ≠ 0 → m < 256 * 2 ^ q → ¬ 2 ^ q ∣ m →
    ∃ y k, exp2Ext (.fin n m (-(q : Int))) = .fin false y k ∧ 2 ^ 300 ≤ y ∧
      (let lo := ((y - y / 2 ^ 100) ^ 2 ^ q, k * 2 ^ q)
       let hi := ((y + y / 2 ^ 100) ^ 2 ^ q, k * 2 ^ q)
       let x := (1, if n then -(m : Int) else m)
       magLt lo x ∧ magLt x hi)) ∧
  (∀ (m : Nat) (e : Int), m ≠ 0 → (∀ t, m ≠ 2 ^ t) → m < 2 ^ 24 → -149 ≤ e → e ≤ 104 →
    ∃ n y, log2Ext (.fin false m e) = (.fin n y (-181), false) ∧
      (let v : Int := if n then -(y : Int) else y
       magLt (1, v - 2) (m ^ 2 ^ 181, e * 2 ^ 181) ∧ magLt (m ^ 2 ^ 181, e * 2 ^ 181) (1, v + 2)))

namespace Sys2Proof.Claims

/-! ## Collectives and regions -/

/-- What a thread becomes that reaches a collective (R231): it waits there, or with a reserved bit in its control word it parks. -/
def reaches (i : Instr) (b : Nat) (g : Group) (x : Thread) : Thread :=
  if (x.reg (b + 1)).toNat / 2 ^ 5 % 2 ^ 3 = 0 then { x with st := .wait, waitAt := some i }
  else { x with st := .parked, fault := g.threadRec x { cause := .reservedField } }

/-- The shape of a collective: the register pair at `b` is read, and `also`. -/
def collShape (blocks : List (Nat × Nat)) (b : Nat) (also : List Nat) (dest : Dest) : LaneWord :=
  { blocks := (b, 2) :: blocks, also := [b, b + 1] ++ also, dest := dest }

/-- A collective with a value and a destination. -/
def Reaches (mk : LaneColl → Instr) (also : LaneColl → List Nat) : Prop :=
  ∀ f, Changes (mk f) (collShape (blockOf f.d 1 ++ blockOf f.a 1) (regNum f.b) (also f) (destOf f.d 1))
    (fun g _ _ x => reaches (mk f) (regNum f.b) g x)

/-- The threads that exchange, and go on past the word. -/
def exchanged (g : Group) (c : CollWord) (ts : List Nat) : Group :=
  (g.exchange c ts).mapThreads ts (fun _ x => { x with st := .ready, waitAt := none, pc := x.pc + 4 })

/-- The threads listed are threads of the group. -/
def present (g : Group) (ts : List Nat) : Prop := ∀ t ∈ ts, (g.threads.find t).isSome = true

/-- The mask of the threads listed that pass a test. -/
def maskSays (m : W32) (ts : List Nat) (p : Nat → Prop) : Prop := ∀ u, u < 32 → (m.getLsbD u = true ↔ u ∈ ts ∧ p u)

/-- Thread `u` is the source of a shuffle of thread `t` with control word `c`, where the destination holds `vd` (R233). -/
def comesFrom (kind t c vd u : Nat) : Prop :=
  match kind with
  | 0 => u = vd % 32
  | 1 => u + c % 32 = t
  | 2 => u = t + c % 32
  | _ => u = t ^^^ c % 32

/-- A thread goes on past a collective. -/
def leaves (x : Thread) : Thread := { x with st := .ready, waitAt := none, pc := x.pc + 4 }

/-- What FMIN and FMAX say of the result over a list (08_compute R131): a NaN is missing; `best` holds of every other value. A single NaN
stays as it is, several give the canonical one. -/
def extremeOf (vals : List W32) (r : W32) (best : W32 → Prop) : Prop :=
  ((∃ v ∈ vals, (fp32 v).isNan = false) → r ∈ vals ∧ (fp32 r).isNan = false ∧ ∀ v ∈ vals, (fp32 v).isNan = false → best v) ∧
  ((∀ v ∈ vals, (fp32 v).isNan = true) → (∀ v, vals = [v] → r = v) ∧ (2 ≤ vals.length → r = 0x7FC00000))

/-- What GRED says of the result of an operation over the values of the threads listed (R233). -/
def reduces (op : RedOp) (vals : List W32) (r : W32) : Prop :=
  match op with
  | .iadd => r = BitVec.ofNat 32 ((vals.map (·.toNat)).sum)
  | .imin => r ∈ vals ∧ ∀ v ∈ vals, r.toInt ≤ v.toInt
  | .imax => r ∈ vals ∧ ∀ v ∈ vals, v.toInt ≤ r.toInt
  | .umin => r ∈ vals ∧ ∀ v ∈ vals, r.toNat ≤ v.toNat
  | .umax => r ∈ vals ∧ ∀ v ∈ vals, v.toNat ≤ r.toNat
  | .fadd => True
  | .fmin => extremeOf vals r (fun v => (fp32 v).lt (fp32 r) = false ∧ ((fp32 r).lt (fp32 v) = false → v.msb = true → r.msb = true))
  | .fmax => extremeOf vals r (fun v => (fp32 r).lt (fp32 v) = false ∧ ((fp32 v).lt (fp32 r) = false → r.msb = true → v.msb = true))

/-- A tree of neighbours over the threads `lo` to `lo + 2^n - 1` (03_numbers R51): those that do not take part are passed over. -/
def treeOver {α : Type} (op : α → α → α) (v : Nat → α) (ts : List Nat) (n lo : Nat) : Option α :=
  match n with
  | 0 => if lo ∈ ts then some (v lo) else none
  | k + 1 =>
    match treeOver op v ts k lo, treeOver op v ts k (lo + 2 ^ k) with
    | none, z => z
    | some a, none => some a
    | some a, some b => some (op a b)

end Sys2Proof.Claims

open Sys2Proof Sys2Proof.Machine Sys2Proof.Claims

/-- Threads that reach a collective, BAR or REGN wait there (13_execution R231, R232, R236): a reserved bit in a control word parks the
thread with RESERVED_FIELD; a thread that reaches REGN with a recorded store error parks with that record (09_access R150). -/
def Sys2Proof.Claims.CollectiveArrivals : Prop :=
  Reaches .shfi (fun f => [regNum f.d]) ∧ Reaches .shfu (fun _ => []) ∧ Reaches .shfd (fun _ => []) ∧ Reaches .shfx (fun _ => []) ∧
  Reaches .matchv (fun _ => []) ∧
  (∀ f : LaneGred, Changes (.gred f) (collShape (blockOf f.d 1 ++ blockOf f.a 1) (regNum f.b) [] (destOf f.d 1))
    (fun g _ _ x => reaches (.gred f) (regNum f.b) g x)) ∧
  (∀ f : LaneVote, Changes (.vote f) (collShape [] (regNum f.b) [] .none) (fun g _ _ x => reaches (.vote f) (regNum f.b) g x)) ∧
  (∀ f : LaneBallot, Changes (.ballot f) (collShape (blockOf f.d 1) (regNum f.b) [] (destOf f.d 1))
    (fun g _ _ x => reaches (.ballot f) (regNum f.b) g x)) ∧
  (∀ f : LaneBar, Changes (.barv f) (collShape [] (regNum f.b) [] .none) (fun g _ _ x => reaches (.barv f) (regNum f.b) g x)) ∧
  (∀ n : BitVec 9, Changes (.regn n) {} (fun _ _ _ x =>
    match x.storeFault with
    | some r => { x with st := .parked, fault := r, storeFault := none }
    | none => { x with st := .wait, waitAt := some (.regn n) }))

/-- COLLECTIVE_FORMATION (R231, R232): threads that wait at one word with one mask that names them, and no live thread besides, exchange
and go on; where their masks differ they park with MASK_MISMATCH, as all that wait at collectives do once no collective can form. -/
def Sys2Proof.Claims.CollectivesForm : Prop :=
  (∀ (s : State) (c : CollWord) (ts : List Nat), (s.group s.on.a).live = true → (s.team (s.group s.on.a).team).runs = true →
    (s.group s.on.a).formable = some (c, ts) → (s.group s.on.a).instances c 32 ts = [ts] →
    ((s.group s.on.a).masksAgree c ts = true → c.tg = false →
      ts.all (fun t => (s.group s.on.a).valueVerdict c t == .run) = true →
      exec .collectiveFormation s = .next (s.setGroup s.on.a (exchanged (s.group s.on.a) c ts)).fire) ∧
    ((s.group s.on.a).masksAgree c ts = false →
      exec .collectiveFormation s = .next (s.setGroup s.on.a ((s.group s.on.a).mapThreads ts (fun _ x =>
        { x with st := .parked, waitAt := none, fault := (s.group s.on.a).threadRec x { cause := .maskMismatch } }))).fire)) ∧
  (∀ (g : Group) (c : CollWord) (ts : List Nat), g.formable = some (c, ts) →
    (∃ t x pc, (t, x) ∈ g.threads ∧ x.coll = some c ∧ x.pc = pc ∧ ts = g.waitersAt pc) ∧
    (∀ t ∈ ts, ∀ u < 32, (g.collMask c t).getLsbD u = true → (g.thread u).st = .ready ∨ (g.thread u).st = .wait → u ∈ ts)) ∧
  (∀ s : State, (s.group s.on.a).live = true → (s.team (s.group s.on.a).team).runs = true → (s.group s.on.a).formable = none →
    (s.group s.on.a).stuck = true →
    exec .collectiveFormation s = .next (s.setGroup s.on.a { s.group s.on.a with
      threads := (s.group s.on.a).threads.mapKV (fun t x =>
        if ((s.group s.on.a).threads.keysWhere (fun _ y => y.coll.isSome)).contains t then
          { x with st := .parked, waitAt := none, fault := (s.group s.on.a).threadRec x { cause := .maskMismatch } }
        else x) }).fire)

/-- What the threads of an exchange receive (R233): of a shuffle, the value of the thread named, if it takes part, and a valid predicate,
else its own value and an invalid one (0 where its mask names a thread that is no longer live); of VOTE and BALLOT the predicates of
all; of MATCH the threads with its own value, and whether that is all; of BAR nothing. Other threads stay as they are. -/
def Sys2Proof.Claims.Exchanges : Prop :=
  ∀ (g : Group) (b a d t : Nat) (ea tg : Bool) (v : Fin 8) (ts : List Nat), present g ts → t ∈ ts →
    (∀ kind u : Nat, kind < 4 → u < 32 → comesFrom kind t ((g.thread t).reg (b + 1)).toNat ((g.thread t).reg d).toNat u →
      let after := (exchanged g ⟨b, some (a, ea), tg, .shuffle kind d v⟩ ts).thread t
      (u ∈ ts → after = leaves (((g.thread t).write d ((g.thread u).reg a)).setPred v true)) ∧
      (u ∉ ts → ((g.thread t).reg b).getLsbD u = true → (g.thread u).isLive = false →
        after = leaves (((g.thread t).write d 0).setPred v false)) ∧
      (u ∉ ts → ((g.thread t).reg b).getLsbD u = false ∨ (g.thread u).isLive = true →
        after = leaves (((g.thread t).write d ((g.thread t).reg a)).setPred v false))) ∧
    (∀ kind : Nat, kind < 4 →
      (∀ u < 32, ¬ comesFrom kind t ((g.thread t).reg (b + 1)).toNat ((g.thread t).reg d).toNat u) →
      (exchanged g ⟨b, some (a, ea), tg, .shuffle kind d v⟩ ts).thread t =
        leaves (((g.thread t).write d ((g.thread t).reg a)).setPred v false)) ∧
    (∀ (pd ps : Fin 8) (mode : VoteMode), ∃ r : Bool,
      (r = true ↔ match mode with
        | .all => ∀ u ∈ ts, (g.thread u).pred ps = true
        | .any => ∃ u ∈ ts, (g.thread u).pred ps = true
        | .uni => (∀ u ∈ ts, (g.thread u).pred ps = true) ∨ (∀ u ∈ ts, (g.thread u).pred ps = false)) ∧
      (exchanged g ⟨b, none, tg, .vote mode pd ps⟩ ts).thread t = leaves ((g.thread t).setPred pd r)) ∧
    (∀ ps : Fin 8, ∃ m, maskSays m ts (fun u => (g.thread u).pred ps = true) ∧
      (exchanged g ⟨b, none, tg, .ballot d ps⟩ ts).thread t = leaves ((g.thread t).write d m)) ∧
    (∃ m, maskSays m ts (fun u => (g.thread u).reg a = (g.thread t).reg a) ∧ ∃ r : Bool,
      (r = true ↔ ∀ u ∈ ts, (g.thread u).reg a = (g.thread t).reg a) ∧
      (exchanged g ⟨b, some (a, ea), tg, .matching d v⟩ ts).thread t = leaves (((g.thread t).write d m).setPred v r)) ∧
    (exchanged g ⟨b, none, tg, .barrier⟩ ts).thread t = leaves (g.thread t) ∧
    (∀ (c : CollWord) (u : Nat), u ∉ ts → (exchanged g c ts).thread u = g.thread u)

/-- GRED (R233, 03_numbers R51): every thread receives the sum of all values, or their signed, unsigned or floating-point extreme; a sum of
floats is rounded at each node of the tree of neighbours over the 32 threads, those that do not take part passed over, and the
conditions of all nodes are raised. -/
def Sys2Proof.Claims.Reductions : Prop :=
  ∀ (g : Group) (b a d t : Nat) (ea tg : Bool) (ts : List Nat), present g ts → t ∈ ts → ts.Nodup → (∀ u ∈ ts, u < 32) →
    (∀ op : RedOp, op ≠ .fadd → ∃ r, reduces op (ts.map (fun u => (g.thread u).reg a)) r ∧
      (exchanged g ⟨b, some (a, ea), tg, .reduce op d⟩ ts).thread t = leaves ((g.thread t).write d r)) ∧
    (let add := fun x y : W32 × FFlags =>
       let z := toFp32 g.rm ((fp32 x.1).add g.rm (fp32 y.1))
       (z.1, (x.2.or y.2).or z.2)
     ∃ r, treeOver add (fun u => ((g.thread u).reg a, {})) ts 5 0 = some r ∧
       (exchanged g ⟨b, some (a, ea), tg, .reduce .fadd d⟩ ts).thread t = leaves ((g.thread t).write d r.1) ∧
       (exchanged g ⟨b, some (a, ea), tg, .reduce .fadd d⟩ ts).fpm = (g.raise r.2).fpm)

/-- REGN_PERFORM (R236): once every thread of a group is exited, parked or at a REGN, the threads at the lowest REGN go on past it
together, their entry address the next word, and `regctr` counts the entry and holds the number; but a parked thread is reported
first. AGE_CAP (14_scheduling R252): a group that is ready and 125 cycles old is the next to issue. -/
def Obligations.RegionsAndAge : Prop :=
  (∀ (s : State) (pc : VA) (n : BitVec 9),
    let g := s.group s.on.a
    g.live = true → (s.team g.team).runs = true → g.trap = false → g.held = false →
    (∀ p ∈ g.threads, p.2.st = .exited ∨ p.2.st = .absent ∨
      (p.2.st = .wait ∧ ∃ m, p.2.waitAt = some (.regn m) ∧ pc.toNat ≤ p.2.pc.toNat ∧ (p.2.pc = pc → m = n))) →
    (∃ p ∈ g.threads, p.2.st = .wait ∧ p.2.pc = pc) →
    exec .regnPerform s = .next (s.setGroup s.on.a { g with
      regctr := BitVec.ofNat 64 ((g.regctr.toNat / 2 ^ 32 + 1) % 2 ^ 32 * 2 ^ 32 + n.toNat),
      threads := g.threads.mapKV (fun _ x =>
        if x.st = .wait ∧ x.pc = pc then { x with entry := pc + 4, pc := pc + 4, st := .ready, waitAt := none } else x) }).fire) ∧
  (∀ (s : State) (t : Nat),
    let g := s.group s.on.a
    g.live = true → (s.team g.team).runs = true → g.trap = false → g.held = false → g.settled = true → g.firstParked = some t →
    FMap.rising g.threads = true → handles g (g.thread t).fault.cause →
    ∃ s2, exec .regnPerform s = .next s2 ∧ (s2.group s.on.a).trap = true ∧ (s2.group s.on.a).report = true ∧
      (s2.group s.on.a).trapcause = (g.thread t).fault.cause ∧ (s2.group s.on.a).trapaddr = (g.thread t).fault.addr ∧
      maskSays (s2.group s.on.a).trapmask (g.threads.map (·.1)) (fun u => (g.thread u).st = .parked) ∧
      (s2.group s.on.a).hpc = g.tvec ∧ (s2.group s.on.a).threads = g.threads) ∧
  (∀ s : State, s.ready s.on.a = true → 125 ≤ s.age s.on.a →
    exec .ageCap s = .next { s with agenda := .issue s.on.a :: s.agenda, fired := s.fired + 1 })

namespace Sys2Proof.Claims

open Sys2Proof.Machine

/-! ## All lane-set words, by their shapes -/

/-- What is claimed of a lane-set word and its shape, which may depend on the state. -/
abbrev ShapeClaim := Instr → (State → LaneWord) → Prop

/-- Every lane-set word that writes one value per thread. -/
def ValueShapes (P : ShapeClaim) : Prop :=
  let Q : RuleClaim := fun i r => P i (fun _ => r.word)
  IntegerRules Q ∧ ImmediateRules Q ∧ SelectRules Q ∧ FloatRules Q ∧ FloatOrderRules Q ∧ PackedRules Q ∧ ConversionRules Q ∧
  (∀ d a idx e pg, P (.unlisted (.kext d a idx e pg)) (fun s =>
    { blocks := [(regNum a, 2 * s.grp.klenN)] ++ blockOf d 1, guard := laneGuard pg false, ok := decide (e.val < s.grp.klenN),
      srcs := [{ o := regOpnd (regNum a + 2 * e.val + bitNat idx) }], dest := destOf d 1 }))

/-- Every lane-set word that changes predicates, register states, the list of KINS, or control. -/
def ControlShapes (P : ShapeClaim) : Prop :=
  (∀ f, P (.icmp f) (fun _ => comparing f.a f.b f.ea f.eb f.pg f.ng)) ∧
  (∀ f, P (.ucmp f) (fun _ => comparing f.a f.b f.ea f.eb f.pg f.ng)) ∧
  (∀ f, P (.fcmp f) (fun _ => comparing f.a f.b f.ea f.eb f.pg f.ng)) ∧
  (∀ f, P (.pmovUnpack f) (fun _ =>
    { blocks := blockOf f.a 1, guard := laneGuard f.pg f.ng, srcs := [{ o := f.a, trap := f.ea }] })) ∧
  (∀ f, P (.mkemp f) (fun _ => oneWord f)) ∧ (∀ f, P (.mkful f) (fun _ => oneWord f)) ∧
  (∀ f, P (.br f) (fun _ => { guard := laneGuard f.pg f.ng, moves := true })) ∧
  (∀ f, P (.brx f) (fun _ =>
    { blocks := blockOf f.a 1, guard := laneGuard f.pg f.ng, srcs := [{ o := f.a, trap := f.ea }], moves := true })) ∧
  (∀ f, P (.call f) (fun _ => { guard := laneGuard f.pg f.ng, moves := true })) ∧
  (∀ f, P (.ret f) (fun _ => { guard := laneGuard f.pg f.ng, moves := true })) ∧
  (∀ f, P (.yield f) (fun _ => { guard := laneGuard f.pg f.ng })) ∧ (∀ f, P (.nop f) (fun _ => { guard := laneGuard f.pg f.ng })) ∧
  (∀ c pg, P (.unlisted (.trap c pg)) (fun _ => { guard := laneGuard pg false })) ∧
  (∀ c pg, P (.unlisted (.bkpt c pg)) (fun _ => { guard := laneGuard pg false })) ∧
  (∀ k pg, P (.unlisted (.kinit k pg)) (fun _ => { guard := laneGuard pg false })) ∧
  (∀ f, P (.unlisted (.kins f)) (fun s =>
    { blocks := [(regNum f.d, 2 * s.grp.klenN)] ++ blockOf f.a 1 ++ blockOf f.b 1, guard := laneGuard f.pg f.ng,
      srcs := [{ o := f.a, trap := f.ea }, { o := f.b, trap := f.eb }],
      also := (List.range (2 * s.grp.klenN)).map (fun j => regNum f.d + j), dest := .regs (regNum f.d) (2 * s.grp.klenN) })) ∧
  (∀ f, P (.exitv f) (fun _ => { guard := fun x => x.pred (Fin.ofNat 8 f.pg.val) })) ∧ (∀ n, P (.regn n) (fun _ => {}))

/-- Every lane load, store, atomic and prefetch, the remote words and SPAWN. -/
def MemoryShapes (P : ShapeClaim) : Prop :=
  (∀ f : LaneMem, P (.ld8 f) (fun _ => loadWord f.d [f.a] f.pg 1) ∧ P (.ld16 f) (fun _ => loadWord f.d [f.a] f.pg 2) ∧
    P (.ld32 f) (fun _ => loadWord f.d [f.a] f.pg 4) ∧ P (.ld64 f) (fun _ => loadWord f.d [f.a] f.pg 8) ∧
    P (.ld128 f) (fun _ => loadWord f.d [f.a] f.pg 16) ∧
    P (.st8 f) (fun _ => storeWord f 1) ∧ P (.st16 f) (fun _ => storeWord f 2) ∧ P (.st32 f) (fun _ => storeWord f 4) ∧
    P (.st64 f) (fun _ => storeWord f 8) ∧ P (.st128 f) (fun _ => storeWord f 16)) ∧
  (∀ f : LaneMemIdx, P (.ldx f) (fun _ => loadWord f.d [f.a, f.b] f.pg 4) ∧
    P (.stx f) (fun _ =>
      { blocks := blockOf f.d 1 ++ blockOf f.a 1 ++ blockOf f.b 1, guard := lmGuard f.pg,
        srcs := [{ o := f.a }, { o := f.b }, { o := f.d }], counts := true }) ∧
    P (.aadd f) (fun _ => atomicWord f false) ∧ P (.amin f) (fun _ => atomicWord f false) ∧ P (.amax f) (fun _ => atomicWord f false) ∧
    P (.aumin f) (fun _ => atomicWord f false) ∧ P (.aumax f) (fun _ => atomicWord f false) ∧
    P (.aand f) (fun _ => atomicWord f false) ∧ P (.aor f) (fun _ => atomicWord f false) ∧ P (.axor f) (fun _ => atomicWord f false) ∧
    P (.axch f) (fun _ => atomicWord f false) ∧ P (.acas f) (fun _ => atomicWord f true) ∧ P (.afadd f) (fun _ => atomicWord f false)) ∧
  (∀ f, P (.pref f) (fun _ => { blocks := blockOf f.a 1, guard := lmGuard f.pg, srcs := [{ o := f.a }] })) ∧
  (∀ f : LaneRemote, P (.rld32 f) (fun _ => loadWord f.d [f.a] f.pg 4) ∧ P (.rld64 f) (fun _ => loadWord f.d [f.a] f.pg 8) ∧
    P (.rst32 f) (fun _ =>
      { blocks := blockOf f.d 1 ++ blockOf f.a 1, guard := lmGuard f.pg, srcs := [{ o := f.a }, { o := f.d }], counts := true }) ∧
    P (.rst64 f) (fun _ =>
      { blocks := blockOf f.d 2 ++ blockOf f.a 1, guard := lmGuard f.pg, srcs := [{ o := f.a }],
        also := [regNum f.d, regNum f.d + 1], counts := true })) ∧
  (∀ f, P (.ratom f) (fun _ =>
    { blocks := blockOf f.d 1 ++ blockOf f.a 1 ++ blockOf f.b 1, srcs := [{ o := f.a }, { o := f.b }],
      also := if f.op = .cas then [regNum f.d] else [], dest := .regs (regNum f.d) 1, counts := true })) ∧
  (∀ f, P (.spawn f) (fun _ =>
    { blocks := blockOf f.a ((recBytes f.size - 8) / 4) ++ blockOf f.b 1, guard := laneGuard f.pg f.ng, moves := true,
      srcs := [{ o := f.a, trap := f.ea }, { o := f.b }],
      also := (List.range ((recBytes f.size - 8) / 4 - 1)).map (fun i => regNum f.a + 1 + i) }))

/-- Every collective word. -/
def CollectiveShapes (P : ShapeClaim) : Prop :=
  (∀ f : LaneColl,
    P (.shfi f) (fun _ => collShape (blockOf f.d 1 ++ blockOf f.a 1) (regNum f.b) [regNum f.d] (destOf f.d 1)) ∧
    P (.shfu f) (fun _ => collShape (blockOf f.d 1 ++ blockOf f.a 1) (regNum f.b) [] (destOf f.d 1)) ∧
    P (.shfd f) (fun _ => collShape (blockOf f.d 1 ++ blockOf f.a 1) (regNum f.b) [] (destOf f.d 1)) ∧
    P (.shfx f) (fun _ => collShape (blockOf f.d 1 ++ blockOf f.a 1) (regNum f.b) [] (destOf f.d 1)) ∧
    P (.matchv f) (fun _ => collShape (blockOf f.d 1 ++ blockOf f.a 1) (regNum f.b) [] (destOf f.d 1))) ∧
  (∀ f, P (.vote f) (fun _ => collShape [] (regNum f.b) [] .none)) ∧
  (∀ f, P (.ballot f) (fun _ => collShape (blockOf f.d 1) (regNum f.b) [] (destOf f.d 1))) ∧
  (∀ f, P (.gred f) (fun _ => collShape (blockOf f.d 1 ++ blockOf f.a 1) (regNum f.b) [] (destOf f.d 1))) ∧
  (∀ f, P (.barv f) (fun _ => collShape [] (regNum f.b) [] .none))

/-- The word waits, and leaves everything as it is but for the wait (R103, R104, 14_scheduling R254): a source of an acting thread is
awaited, a destination register is PENDING in some thread of the run, or the word counts and the counter stands at its maximum. -/
def LaneWaiting : ShapeClaim := fun i w =>
  ∀ s : State, s.grp.trap = false → s.grp.run ≠ [] → s.laneStatic (w s) = true →
    ((∃ t ∈ (w s).acting s.grp, s.grp.threadVerdict (s.grp.thread t) (w s).allSrcs = .wait) ∨
      s.grp.destPending s.grp.run (w s).dest = true ∨ ((w s).counts = true ∧ 63 ≤ s.outstanding s.cur)) →
    exec i s = .next (s.stall i)

/-- The word fails a check that is made before any source is read: every thread of the run parks with RESERVED_FIELD, and `trappc` holds
the word's address; in trap context the group is held, and its trap CSRs keep the first trap. -/
def LaneRejected : ShapeClaim := fun i w =>
  (∀ s : State, s.inOrder = true → s.grp.trap = false → s.grp.run ≠ [] → s.laneStatic (w s) = false →
    exec i s = .next (s.performed { s.grp with
      trappc := s.grp.pc
      threads := s.grp.threads.mapKV (fun t x =>
        if s.grp.run.contains t then { x with st := .parked, fault := s.grp.threadRec x { cause := .reservedField } } else x) })) ∧
  (∀ s : State, s.grp.trap = true → s.grp.hint = none →
    ∃ t, exec i s = .next t ∧ t.group s.cur = { s.grp.ended s.now with held := true })

/-- A group-set word whose guard is false only goes on: it reads nothing, pops nothing and writes nothing. -/
def PassedOver (i : Instr) (w : State → GrpWord) : Prop :=
  ∀ s : State, s.inOrder = true → s.grp.issuePc ≠ none → (w s).ok = true → s.portsOk ((w s).srcs.map (·.o)) (w s).dest = true →
    (w s).guard = false → exec i s = .next (s.performed s.grp.advance)

end Sys2Proof.Claims

open Sys2Proof Sys2Proof.Machine Sys2Proof.Claims

/-- Every lane-set word, WAITE apart, at an awaited source, a PENDING destination register or a full counter (R103, R104, R254): it leaves
everything as it is but for the wait. -/
def Sys2Proof.Claims.LaneWaits : Prop :=
  ValueShapes LaneWaiting ∧ ControlShapes LaneWaiting ∧ MemoryShapes LaneWaiting ∧ CollectiveShapes LaneWaiting

/-- Every lane-set word, WAITE apart, whose registers lie beyond the group's budget or whose ports are linked otherwise, and in trap context
(02_encoding R21, R24; 15_faults R261). -/
def Sys2Proof.Claims.LaneWordRejected : Prop :=
  ValueShapes LaneRejected ∧ ControlShapes LaneRejected ∧ MemoryShapes LaneRejected ∧ CollectiveShapes LaneRejected

/-- Every guarded group-set word whose guard is false only goes on (02_encoding R19). -/
def Sys2Proof.Claims.UnguardedGroupWords : Prop :=
  (∀ f : GrpBin,
    let w := fun s : State => gbinWord s.grp f
    PassedOver (.gadd f) w ∧ PassedOver (.gsub f) w ∧ PassedOver (.gmul f) w ∧ PassedOver (.gmin f) w ∧ PassedOver (.gmax f) w ∧
    PassedOver (.gand f) w ∧ PassedOver (.gor f) w ∧ PassedOver (.gxor f) w ∧ PassedOver (.gshl f) w ∧ PassedOver (.gshr f) w ∧
    PassedOver (.gsar f) w ∧ PassedOver (.gmulh f) w ∧ PassedOver (.gdivu f) w ∧ PassedOver (.gremu f) w ∧
    PassedOver (.unlisted (.glea f)) w ∧ PassedOver (.unlisted (.gbfx f)) w ∧
    PassedOver (.gmad f) (fun s =>
      { gbinWord s.grp f with srcs := [{ o := f.a, trap := f.ea }, { o := f.b, trap := f.eb }, { o := f.d }] })) ∧
  (∀ f : GrpUn,
    PassedOver (.gpopc f) (fun s => gunWord s.grp f) ∧ PassedOver (.gclz f) (fun s => gunWord s.grp f) ∧
    PassedOver (.qput f) (fun s => gunWord s.grp f) ∧
    PassedOver (.qget f) (fun s =>
      { guard := s.grp.cond f.cg != f.ng, ok := s.portsOk [f.a] .none, dest := destOf f.d 1, counts := true })) ∧
  (∀ f : GrpCmp, PassedOver (.gcmp f) (fun s =>
    { guard := s.grp.cond f.cg != f.ng, srcs := [{ o := f.a, trap := f.ea }, { o := f.b, trap := f.eb }], wide := f.w })) ∧
  (∀ f : GrpQclose, PassedOver (.qclose f) (fun s => { guard := s.grp.cond f.cg != f.ng })) ∧
  (∀ f : GrpQstat, PassedOver (.qstat f) (fun s => { guard := s.grp.cond f.cg != f.ng, dest := destOf f.d 1 })) ∧
  (∀ f : GrpBr, PassedOver (.gbr f) (fun s => { guard := s.grp.cond f.cg != f.ng }) ∧
    PassedOver (.gcall f) (fun s => { guard := s.grp.cond f.cg != f.ng })) ∧
  (∀ f : GrpGuard, PassedOver (.gret f) (fun s => { guard := s.grp.cond f.cg != f.ng }) ∧
    PassedOver (.unlisted (.gnop f)) (fun s => { guard := s.grp.cond f.cg != f.ng })) ∧
  (∀ (a : Opnd) (f : GrpGuard), PassedOver (.unlisted (.teamend a f)) (fun s =>
    { guard := s.grp.cond f.cg != f.ng, srcs := [{ o := a }] })) ∧
  (∀ (f : GrpGuard) (s : State), s.inOrder = true → s.grp.issuePc ≠ none → s.grp.trap = true → (s.grp.cond f.cg != f.ng) = false →
    exec (.unlisted (.rte f)) s = .next (s.performed s.grp.advance))

namespace Sys2Proof.Claims

/-! ## Remote words -/

/-- What the fabric sees of a packet, its tag and port apart: channel, KIND, generation tag, the words and the data that it carries. -/
def seen (p : SentPkt) : Nat × Nat × BitVec 16 × List W64 × List Byte := (p.vc, p.kind, p.gentag, p.words, p.data)

/-- What a word's request to a target looks like (11_fabric R198): the pattern; GRID and OFFSET; KEY, the device's own index, operation,
size and strength. -/
def requestTo (s : State) (t : Target) (vc kind op size strength : Nat) (data : List Byte) :
    Nat × Nat × BitVec 16 × List W64 × List Byte :=
  (vc, kind, s.grp.gentag,
    [t.pat, BitVec.ofNat 64 ((entryWord t.ws 1).toNat / 2 ^ 48 % 2 ^ 16 * 2 ^ 48 + t.off % 2 ^ 48),
     BitVec.ofNat 64 ((entryWord t.ws 0).toNat % 2 ^ 32 * 2 ^ 32 + (s.vdev s.curVd).ownIndex * 2 ^ 20 + op * 2 ^ 16 +
       size % 2 ^ 8 * 2 ^ 8 + strength * 2 ^ 6)], data)

/-- The strength field of a request (02_encoding R20). -/
def strengthField (st : Strength) : Nat :=
  match st with
  | .plain => 0
  | .relaxed => 1
  | .acquire => 2
  | .release => 3

/-- The sent packets grew by these, in order. -/
def sends (s s2 : State) (l : List (Nat × Nat × BitVec 16 × List W64 × List Byte)) : Prop :=
  s2.sent.map seen = s.sent.map seen ++ l ∧ s2.sends = s.sends + l.length

/-- The group with one more operation of these pieces, if there are any, each awaiting its reply. -/
def awaiting (g : Group) (acq : Bool) (ps : List Piece) : Group :=
  if ps = [] then g else { g with ops := g.ops ++ [{ id := g.freshOp, pieces := ps, acq := acq }] }

/-- A remote lane load of `n` registers whose acting threads all pass their source checks (R205): one READ goes out for each, in thread
order, their registers are PENDING, and no byte of memory changes. -/
def RemoteLoads (mk : LaneRemote → Instr) (n : Nat) : Prop :=
  ∀ (f : LaneRemote) (s : State) (tgt : Nat → Target),
    let w : LaneWord :=
      { blocks := blockOf f.d n ++ blockOf f.a 1, guard := lmGuard f.pg, srcs := [{ o := f.a }], dest := .regs (regNum f.d) n,
        counts := true }
    let s1 := (s.take [f.a]).2
    let va := fun t => ((s.take [f.a]).1.headD .nothing).lane (s.grp.thread t) t
    let ts := w.acting s.grp
    let regs := (List.range n).map (fun i => regNum f.d + i)
    s.laneReady w = true → s.contained = [] →
    (∀ t ∈ ts, s1.laneCheck ((s.grp.wsel.toNat % 2 ^ 48 : Nat) + (va t).toNat + f.off.toInt * (4 * n))
      { perm := 59, single := true, size := 4 * n } = .ok (tgt t)) →
    s1.canSend s1.curVd 0 (ts.map tgt) = true →
    ∃ s2, exec (mk f) s = .next s2 ∧ s2.mem = s.mem ∧
      sends s s2 (ts.map (fun t => requestTo s (tgt t) 0 0 0 (4 * n) (strengthField f.st) [])) ∧
      s2.groups = (s1.performed (awaiting
        (s1.grp.stepRun ts (fun _ y => regs.foldl (fun y r => y.setState r .pending) y)) (f.st == .acquire)
        (ts.map (fun t => s1.remotePiece t (regNum f.d) n)))).groups

/-- A remote lane store of `n` registers whose acting threads all pass (R205): one WRITE, or MULTICAST_WRITE for several targets, goes
out for each, and the word is posted: its requests are outstanding, its registers as before. -/
def RemoteStores (mk : LaneRemote → Instr) (n : Nat) : Prop :=
  ∀ (f : LaneRemote) (s : State) (tgt : Nat → Target),
    let regs := (List.range n).map (fun i => regNum f.d + i)
    let w : LaneWord :=
      { blocks := blockOf f.d n ++ blockOf f.a 1, guard := lmGuard f.pg,
        srcs := if n = 1 then [{ o := f.a }, { o := f.d }] else [{ o := f.a }], also := if n = 1 then [] else regs, counts := true }
    let ks := (s.take (w.srcs.map (·.o))).1
    let s1 := (s.take (w.srcs.map (·.o))).2
    let val := fun i t => (ks.getD i .nothing).lane (s.grp.thread t) t
    let ts := w.acting s.grp
    s.laneReady w = true → s.contained = [] →
    (∀ t ∈ ts, s1.laneCheck ((s.grp.wsel.toNat % 2 ^ 48 : Nat) + (val 0 t).toNat + f.off.toInt * (4 * n))
      { perm := 58, size := 4 * n, wr := true } = .ok (tgt t)) →
    s1.remoteWaits (f.st == .release) (f.st != .plain) = false → s1.canSend s1.curVd 0 (ts.map tgt) = true →
    ∃ s2, exec (mk f) s = .next s2 ∧ (f.st ≠ .release → s2.mem = s.mem) ∧
      sends s s2 (ts.map (fun t => requestTo s (tgt t) 0 (if 1 < (tgt t).coords.length then 2 else 1) 0 (4 * n) (strengthField f.st)
        (if n = 1 then leBytes 4 (val 1 t).toNat
         else regs.flatMap (fun r => leBytes 4 ((s.grp.thread t).reg r).toNat)))) ∧
      s2.groups = (s1.performed { s1.grp.stepRun ts (fun _ y => y) with
        posted := if ts = [] then s1.grp.posted else s1.grp.posted ++ [(List.range ts.length).map (fun i => s.sends + i)] }).groups

/-- The shape of a group remote word: the window address, the pattern unless the entry's is taken, and `more`. -/
def remoteShape (f : GrpRemote) (more : List Src) (dest : Dest) : GrpWord :=
  { srcs := (if f.dp then [{ o := f.a }] else [{ o := f.a }, { o := f.b }]) ++ more, dest := dest, counts := true }

/-- The port at which a reply has arrived is in no session and awaits no replay. -/
def quietPort (s : State) : Prop := (s.port s.on.b).session = false ∧ (s.port s.on.b).failed = false

/-- Nothing stands in the way of a word that looks at a slice: no buffer, a canonical memory, nothing dirty in the core's L1. -/
def plainSlices (s : State) : Prop := noBuffers s ∧ Memory.wf s.mem = true ∧ (s.core s.curCore).l1 = []

/-- A wait on a signal in a slice (11_fabric R395, R396): it ends at once where the value passes the test or the signal records an error, and
`result` is what gd receives of words 0 and 1; else the group waits, counted by the signal's HINT. -/
def SignalWaits (i : Instr) (d a b : Opnd) (te : Bool) (ends : W64 → W64 → Prop) (result : W64 → W64 → W64) : Prop :=
  ∀ (s : State) (key : Nat),
    let w : GrpWord := { srcs := [{ o := a }, { o := b }], dest := destOf d 1 }
    let v := s.groupValues w
    let err := (s.load64 (key + 8)).getLsbD 32
    s.groupReady w = true → plainSlices s → reachesSlice s (gv v 0) 16 .load key →
    (ends (s.load64 key) (gv v 1) ∨ err = true → (te = false ∨ err = false) →
      ∃ s2, exec i s = .next s2 ∧ s2.mem = s.mem ∧
        s2.groups = (s.groupResult w d (result (s.load64 key) (s.load64 (key + 8)))).groups) ∧
    (¬ ends (s.load64 key) (gv v 1) → err = false →
      ∃ s2, exec i s = .next s2 ∧ (s2.group s.cur).waitWord = some i ∧ (s2.group s.cur).hint = some (key + 8) ∧
        s2.load32 (key + 8) = BitVec.ofNat 32 (min ((s.load32 (key + 8)).toNat + 1) 0xFFFFFFFF) ∧
        (∀ x, x < key + 8 ∨ key + 12 ≤ x → Memory.get s2.mem x = Memory.get s.mem x))

/-- A group remote store that passes its checks (R208). -/
def RemoteGroupStores (mk : GrpRemote → Instr) (single : Bool) : Prop :=
  ∀ (f : GrpRemote) (s : State) (t : Target),
    let n := if f.n32 then 4 else 8
    let w := remoteShape f [{ o := f.d }] .none
    let s1 := (s.take (w.srcs.map (·.o))).2
    let v := s.groupValues w
    s.groupReady w = true → s.contained = [] →
    s1.grpCheck (gv v 0) (if f.dp then none else some (gv v 1)) { perm := 58, single := single, size := n, wr := true } = .ok t →
    s1.remoteWaits (f.st == .release) (f.st != .plain) = false → s1.canSend s1.curVd 0 [t] = true →
    ∃ s2, exec (mk f) s = .next s2 ∧ (f.st ≠ .release → s2.mem = s.mem) ∧
      sends s s2 [requestTo s t 0 (if 1 < t.coords.length then 2 else 1) 0 n (strengthField f.st)
        (leBytes n (gv v (if f.dp then 1 else 2)).toNat)] ∧
      s2.groups = (s1.performed { s1.grp.advance with posted := s1.grp.posted ++ [[s.sends]] }).groups

end Sys2Proof.Claims

open Sys2Proof Sys2Proof.Machine Sys2Proof.Claims

/-- Remote lane words (11_fabric R205, R206). RATOM's request carries the operand, and for a compare-and-swap the new value after it. -/
def Obligations.RemoteLaneWords : Prop :=
  RemoteLoads .rld32 1 ∧ RemoteLoads .rld64 2 ∧ RemoteStores .rst32 1 ∧ RemoteStores .rst64 2 ∧
  (∀ (f : LaneRatom) (s : State) (tgt : Nat → Target),
    let w : LaneWord :=
      { blocks := blockOf f.d 1 ++ blockOf f.a 1 ++ blockOf f.b 1, srcs := [{ o := f.a }, { o := f.b }],
        also := if f.op = .cas then [regNum f.d] else [], dest := .regs (regNum f.d) 1, counts := true }
    let s1 := (s.take [f.a, f.b]).2
    let val := fun i t => ((s.take [f.a, f.b]).1.getD i .nothing).lane (s.grp.thread t) t
    let ts := w.acting s.grp
    s.laneReady w = true → s.contained = [] →
    (∀ t ∈ ts, s1.laneCheck ((s.grp.wsel.toNat % 2 ^ 48 : Nat) + (val 0 t).toNat) { perm := 57, single := true, size := 4, wr := true } =
      .ok (tgt t)) →
    s1.remoteWaits (atomReleases f.st) true = false → s1.canSend s1.curVd 2 (ts.map tgt) = true →
    ∃ s2, exec (.ratom f) s = .next s2 ∧ (atomReleases f.st = false → s2.mem = s.mem) ∧
      sends s s2 (ts.map (fun t => requestTo s (tgt t) 2 4 (atomCode f.op) 4 (strengthField f.st)
        (leBytes 4 (val 1 t).toNat ++ (if f.op = .cas then leBytes 4 ((s.grp.thread t).reg (regNum f.d)).toNat else [])))) ∧
      s2.groups = (s1.performed (awaiting
        (s1.grp.stepRun ts (fun _ y => y.setState (regNum f.d) .pending)) (f.st == .acquire || f.st == .plain)
        (ts.map (fun t => s1.remotePiece t (regNum f.d) 1)))).groups)

/-- Remote group words (R208, R354): RGLD and RGATM leave gd PENDING until the reply; RGST and RMST are posted. RGATM is a release and an
acquire, its operand gd on entry, for a compare-and-swap gd + 1 the expected value and gd the new one. -/
def Sys2Proof.Claims.RemoteGroupForms : Prop :=
  (∀ (f : GrpRemote) (s : State) (t : Target),
    let n := if f.n32 then 4 else 8
    let w := remoteShape f [] (.regs (regNum f.d) 1)
    let s1 := (s.take (w.srcs.map (·.o))).2
    let v := s.groupValues w
    s.groupReady w = true → s.contained = [] →
    s1.grpCheck (gv v 0) (if f.dp then none else some (gv v 1)) { perm := 59, single := true, size := n } = .ok t →
    s1.canSend s1.curVd 0 [t] = true →
    ∃ s2 p, exec (.rgld f) s = .next s2 ∧ s2.mem = s.mem ∧ p.t = 32 ∧ p.regs = [(regNum f.d, 0)] ∧ p.ready = false ∧
      sends s s2 [requestTo s t 0 0 0 n (strengthField f.st) []] ∧
      s2.groups = (s1.performed (awaiting (s1.grp.setState (regNum f.d) .pending) (f.st == .acquire) [p]).advance).groups) ∧
  RemoteGroupStores .rgst true ∧ RemoteGroupStores .rmst false ∧
  (∀ (f : GrpRgatm) (s : State) (t : Target),
    let n := if f.n32 then 4 else 8
    let d := regNum f.d
    let w : GrpWord :=
      { srcs := if f.dp then [{ o := f.a }] else [{ o := f.a }, { o := f.b }], also := if f.op = .cas then [d, d + 1] else [d],
        dest := .regs d 1, counts := true }
    let s1 := (s.take (w.srcs.map (·.o))).2
    let v := s.groupValues w
    s.groupReady w = true → s.contained = [] →
    s1.grpCheck (gv v 0) (if f.dp then none else some (gv v 1)) { perm := 57, single := true, size := n, wr := true } = .ok t →
    s1.remoteWaits true true = false → s1.canSend s1.curVd 2 [t] = true →
    ∃ s2 p, exec (.rgatm f) s = .next s2 ∧ p.t = 32 ∧ p.regs = [(d, 0)] ∧ p.ready = false ∧
      sends s s2 [requestTo s t 2 4 (atomCode f.op) n 0
        (if f.op = .cas then leBytes n (s.grp.reg (d + 1)).toNat ++ leBytes n (s.grp.reg d).toNat
         else leBytes n (s.grp.reg d).toNat)] ∧
      s2.groups = (s1.performed (awaiting (s1.grp.setState d .pending) true [p]).advance).groups)

/-- WSEL takes a window and a pattern for the lane words (11_fabric R393); RRST sends one contribution of 8 to 64 bytes with its pattern to a
destination (R394); RGET asks for 64 bytes, which go to a slice (R398); SIGADD adds to a signal of a slice or sends the addition, a release
(R395); SIGWT and RWAIT wait on a signal (R395, R396). -/
def Sys2Proof.Claims.SignalWords : Prop :=
  (∀ (a b : Opnd) (dp : Bool) (s : State) (ws : List W64),
    let w : GrpWord := { srcs := if dp then [{ o := a }] else [{ o := a }, { o := b }] }
    let s1 := (s.take (w.srcs.map (·.o))).2
    let v := s.groupValues w
    let vd := s.vdev s.curVd
    let h := (gv v 0).toNat / 2 ^ 48
    let p := if dp then entryWord ws 3 else gv v 1
    s.groupReady w = true → vd.fabricOn = true → h ≤ vd.fabWtab.toNat % 2 ^ 16 → s1.windowEntry s.curCore s.curVd h = some ws →
    windowOk ws = true → (entryKind ws = 1 ∨ patOk vd.axes p = true) →
    ∃ s2, exec (.unlisted (.wsel a b dp)) s = .next s2 ∧ s2.mem = s.mem ∧
      s2.groups = (s1.performed ({ s1.grp with wsel := gv v 0, wpat := p } : Group).advance).groups) ∧
  (∀ (d a b : Opnd) (dp : Bool) (op : Fin 8) (size : Fin 4) (s : State) (t : Target) (key : Nat),
    let n := 8 * 2 ^ size.val
    let w : GrpWord := { srcs := remoteSrcs a b dp, also := [regNum d, regNum d + 1], counts := true }
    let s1 := (s.take (w.srcs.map (·.o))).2
    let v := s.groupValues w
    s.groupReady w = true → s.contained = [] →
    s1.grpCheck (gv v 0) (if dp then none else some (gv v 1))
      { perm := 55, kinds := [0], size := n, wr := true, dest := some (s.grp.reg (regNum d + 1)) } = .ok t →
    reachesSlice s (s.grp.reg (regNum d)) n .load key → s1.canSend s1.curVd 0 [t] = true →
    ∃ s2, exec (.unlisted (.rrst d a b dp op size)) s = .next s2 ∧ s2.mem = s.mem ∧
      sends s s2 [requestTo s t 0 3 op.val n 0
        (leBytes 8 (if dp then entryWord t.ws 3 else gv v 1).toNat ++ Memory.getBytes s.mem key n)] ∧
      s2.groups = (s1.performed { s1.grp.advance with posted := s1.grp.posted ++ [[s.sends]] }).groups) ∧
  (∀ (d a b : Opnd) (dp : Bool) (cb : Fin 16) (s : State) (t : Target) (key : Nat),
    let w : GrpWord := { srcs := remoteSrcs a b dp ++ [{ o := d }], counts := true }
    let s1 := (s.take (w.srcs.map (·.o))).2
    let v := s.groupValues w
    let dst := gv v (if dp then 1 else 2)
    s.groupReady w = true → s.contained = [] →
    s1.grpCheck (gv v 0) (if dp then none else some (gv v 1)) { perm := 59, single := true, size := 64 } = .ok t →
    sliceBase ≤ dst.toNat → dst.toNat < 2 ^ 56 → dst.toNat % 64 = 0 → s.sliceAt s.curCore s.curVd dst.toNat = some key →
    s.claimed key 64 = false → s1.canSend s1.curVd 0 [t] = true →
    ∃ s2, exec (.unlisted (.rget d a b dp cb)) s = .next s2 ∧ s2.mem = s.mem ∧ sends s s2 [requestTo s t 0 0 0 64 0 []] ∧
      (s2.slot s.nextSlot).kind = .rget key s.grp.team cb.val (BitVec.ofNat 56 ((gv v 0).toNat % 2 ^ 48)) ∧
      s2.groups = (s1.performed s1.grp.advance).groups) ∧
  (∀ (d a b : Opnd) (dp : Bool) (s : State) (key : Nat),
    let w : GrpWord := { srcs := [{ o := a }, { o := d }] }
    let v := s.groupValues w
    s.groupReady w = true → plainSlices s → (s.vdev s.curVd).capture = [] → s.awaitsRemote s.cur = false →
    s.check s.curCore s.curVd (gv v 0) 16 .atomic = .ok (.slice key) → s.claimed key 8 = false → s.poisoned key 8 = false →
    ∃ s2, exec (.unlisted (.sigadd d a b dp true)) s = .next s2 ∧ s2.load64 key = s.load64 key + gv v 1 ∧
      (∀ x, x < key ∨ key + 8 ≤ x → Memory.get s2.mem x = Memory.get s.mem x) ∧
      s2.groups = (afterGroup s w (fun g _ => g.advance)).groups) ∧
  (∀ (d a b : Opnd) (dp : Bool) (s : State) (t : Target),
    let w : GrpWord := { srcs := remoteSrcs a b dp ++ [{ o := d }], counts := true }
    let s1 := (s.take (w.srcs.map (·.o))).2
    let v := s.groupValues w
    s.groupReady w = true → s.contained = [] → (s.core s.curCore).l1 = [] →
    s1.grpCheck (gv v 0) (if dp then none else some (gv v 1)) { perm := 57, kinds := [3], size := 8, wr := true } = .ok t →
    s.awaitsRemote s.cur = false → s.grp.posted = [] → s.writesAcked = true → s1.canSend s1.curVd 3 [t] = true →
    ∃ s2, exec (.unlisted (.sigadd d a b dp false)) s = .next s2 ∧ s2.mem = s.mem ∧
      sends s s2 [requestTo s t 3 5 0 8 3 (leBytes 8 (gv v (if dp then 1 else 2)).toNat)] ∧
      s2.groups = (s1.performed { s1.grp.advance with posted := s1.grp.posted ++ [[s.sends]] }).groups) ∧
  (∀ (d a b : Opnd) (c : IntCond) (te : Bool), SignalWaits (.unlisted (.sigwt d a b c te)) d a b te
    (fun v x => holdsFor c v.toInt x.toInt) (fun v _ => v)) ∧
  (∀ (d a b : Opnd) (te : Bool), SignalWaits (.unlisted (.rwait d a b te)) d a b te
    (fun v x => x.toInt ≤ v.toInt) (fun _ w => BitVec.ofNat 64 (w.toNat / 2 ^ 32 * 2 ^ 32)))

/-- The checks of a remote word at its source, in order (R187, R188): the fabric off or a handle beyond the table, an entry that is not in
order, the pattern, the permission, the alignment, the bounds; what passes goes to the pattern's targets at the entry's base plus
the offset. -/
def Obligations.SourceChecks : Prop :=
  ∀ (s : State) (core vd h : Nat) (pat : Option W64) (off : Int) (addr : W64) (u : WinUse),
    let v := s.vdev vd
    let f : AccFault := { addr := addr, wr := u.wr, rmt := true }
    let r := s.sourceCheck core vd h pat off addr u
    (v.fabricOn = false ∨ v.fabWtab.toNat % 2 ^ 16 < h → r = .error { f with cause := .windowInvalid }) ∧
    (∀ ws, v.fabricOn = true → h ≤ v.fabWtab.toNat % 2 ^ 16 → s.windowEntry core vd h = some ws →
      let p := pat.getD (entryWord ws 3)
      (windowOk ws = false → r = .error { f with cause := .windowInvalid }) ∧
      (windowOk ws = true → patternsOk v ws p u = false → r = .error { f with cause := .patternInvalid }) ∧
      (windowOk ws = true → patternsOk v ws p u = true → (entryPerm ws u.perm = false ∨ u.kinds.contains (entryKind ws) = false) →
        r = .error { f with cause := .windowPerm }) ∧
      (windowOk ws = true → patternsOk v ws p u = true → entryPerm ws u.perm = true → u.kinds.contains (entryKind ws) = true →
        (entryPerm ws 56 = true ∨ u.dest.isSome ∨ patCount v.axes p ≤ 1 ∨ entryKind ws = 1) →
        let base : Int := (entryWord ws 1).toNat % 2 ^ 48
        (off % u.size ≠ 0 → r = .error { f with cause := .misaligned }) ∧
        (off % u.size = 0 → (off < 0 ∨ (((entryWord ws 2).toNat % 2 ^ 48 : Nat) : Int) < off + u.size ∨ 2 ^ 48 < base + off + u.size) →
          r = .error { f with cause := .windowBounds }) ∧
        (off % u.size = 0 → 0 ≤ off → off + u.size ≤ ((entryWord ws 2).toNat % 2 ^ 48 : Nat) → base + off + u.size ≤ 2 ^ 48 →
          ∃ t, r = .ok t ∧ t.off = base.toNat + off.toNat ∧ t.pat = u.dest.getD p ∧ t.ws = ws ∧
            (u.dest = none → entryKind ws ≠ 1 → t.coords = patCoords v.axes p))))

/-- Tags (R196): a request takes the lowest free slot while one is left; its slot is busy until its targets have replied, with a deadline
of the window's TMO (20 microseconds where that is 0); a target that is contained answers at once (R197). -/
def Sys2Proof.Claims.RequestTags : Prop :=
  (∀ s : State, 0 < s.freeSlots → s.nextSlot < 2048 ∧ (s.slot s.nextSlot).busy = false ∧ (s.slot s.nextSlot).quarantine = none ∧
    ∀ i < s.nextSlot, (s.slot i).isFree = false) ∧
  (∀ (s : State) (q : Request), s.contained = [] →
    let s2 := s.sendReq q
    let x := s2.slot s.nextSlot
    x.busy = true ∧ x.serial = s.sends ∧ x.group = q.group ∧ x.kind = q.rk ∧ x.targets = q.t.coords ∧
    x.incarnation = (s.slot s.nextSlot).incarnation ∧
    x.deadline = s.portNow + 1250 * (let m := (entryWord q.t.ws 0).toNat / 2 ^ 47 % 2 ^ 8
                                     if m = 0 then 20 else m) ∧
    s2.sends = s.sends + 1 ∧ s2.mem = s.mem ∧ s2.groups = s.groups ∧
    (∀ i, i ≠ s.nextSlot → s2.slot i = s.slot i)) ∧
  (∀ (s : State) (q : Request) (c : Nat), q.rk = .posted → q.t.coords = [c] → (s.groups.find q.group).isSome = true →
    s.contained.contains ((entryWord q.t.ws 1).toNat / 2 ^ 48 % 2 ^ 16, c) = true →
    ((s.sendReq q).slot s.nextSlot).busy = false ∧ ((s.group q.group).rerrCause = 0 →
      ((s.sendReq q).group q.group).rerrCause = Cause.code .remoteContained)) ∧
  (∀ (s : State) (tag : BitVec 16) (i : Nat), s.slotOf tag = some i ↔
    i = tag.toNat / 32 ∧ (s.slot i).busy = true ∧ (s.slot i).incarnation.toNat = tag.toNat % 32)

/-- Replies (R196, R202): a tag that matches no outstanding request is discarded and counted at the port where
it arrived; read data fills the register that awaits it, a thread's or the group's, or for RGET the slice, its barrier then counting an
arrival; and an error makes it FAULTED with the cause; the last acknowledgement of a posted request ends it, and an error enters
the group's remote error record. -/
def Sys2Proof.Claims.Replies : Prop :=
  (∀ (s : State) (tag : BitVec 16) (data : List Byte) (c : BitVec 8), s.slotOf tag = none → quietPort s →
    (Instr.readData tag data, s.on) ∉ s.arrivals →
    let t := (s.setPort s.on.b { s.port s.on.b with discarded := (s.port s.on.b).discarded + 1 }).fire
    exec (.readData tag data) s = .next t ∧ exec (.acknowledgement tag) s = .next t ∧ exec (.errorReply tag c) s = .next t) ∧
  (∀ (s : State) (tag : BitVec 16) (i k op t r n u : Nat) (acq : Bool) (rest : List OutOp) (rec : FaultRec) (data : List Byte)
      (c : BitVec 8),
    let x := s.slot i
    let g := s.group k
    let s1 := s.setSlot i { x with busy := false, targets := [] }
    s.slotOf tag = some i → x.kind = .load op t n → x.targets = [u] → x.group = k → (s.groups.find k).isSome = true →
    g.ops = { id := op, pieces := [{ t := t, regs := [(r, 0)], ready := false, fault := some rec }], acq := acq } :: rest →
    (∀ o ∈ rest, o.id ≠ op) → quietPort s → (Instr.readData tag data, s.on) ∉ s.arrivals →
    (t < 32 → data.length = 4 → exec (.readData tag data) s = .next (s1.setGroup k (({ g with ops := rest } : Group).setThread t
      ((g.thread t).write r (BitVec.ofNat 32 (leValue data))))).fire) ∧
    (t = 32 → exec (.readData tag data) s =
      .next (s1.setGroup k (({ g with ops := rest } : Group).write r (BitVec.ofNat 64 (leValue data)))).fire) ∧
    (t < 32 → exec (.errorReply tag c) s = .next (s1.setGroup k (({ g with ops := rest } : Group).setThread t
      { g.thread t with
        vst := (g.thread t).vst.set r .faulted,
        fault := if (g.thread t).fault.v then (g.thread t).fault else { rec with cause := c, v := true } })).fire)) ∧
  (∀ (s : State) (tag : BitVec 16) (i k u : Nat) (l : List (List Nat)) (c : BitVec 8),
    let x := s.slot i
    let g := s.group k
    let s1 := s.setSlot i { x with busy := false, targets := [] }
    s.slotOf tag = some i → x.kind = .posted → x.targets = [u] → x.group = k → (s.groups.find k).isSome = true →
    g.posted = [x.serial] :: l → (∀ m ∈ l, m ≠ [] ∧ x.serial ∉ m) → quietPort s →
    exec (.acknowledgement tag) s = .next (s1.setGroup k { g with posted := l }).fire ∧
    exec (.errorReply tag c) s = .next (s1.setGroup k { g with
      posted := l, rerrCause := if g.rerrCause = 0 then c else g.rerrCause,
      rerrCount := BitVec.ofNat 16 (min (g.rerrCount.toNat + 1) 0xFFFF) }).fire) ∧
  (∀ (s : State) (tag : BitVec 16) (i u w : Nat) (us : List Nat),
    let x := s.slot i
    s.slotOf tag = some i → x.kind = .posted → x.targets = u :: w :: us → (s.groups.find x.group).isSome = true →
    quietPort s → exec (.acknowledgement tag) s =
      .next ((s.setSlot i { x with targets := w :: us }).setGroup x.group (s.group x.group)).fire) ∧
  (∀ (s : State) (tag : BitVec 16) (i key team cb u : Nat) (addr : VA) (data : List Byte) (tm : Team),
    let x := s.slot i
    s.slotOf tag = some i → x.kind = .rget key team cb addr → x.targets = [u] → quietPort s →
    (Instr.readData tag data, s.on) ∉ s.arrivals → s.claimed key 64 = false → s.sliceStays x.vd key = true → noBuffers s →
    Memory.wf s.mem = true → s.teams.find team = some tm →
    ∃ t, exec (.readData tag data) s = .next t ∧ (∀ j < data.length, Memory.get t.mem (key + j) = data.getD j 0) ∧
      (∀ a, a < key ∨ key + data.length ≤ a → Memory.get t.mem a = Memory.get s.mem a) ∧
      (t.team team).cbs = tm.cbs.set cb ((tm.cb cb).arrive 1 none))

/-- REQUEST_TIMEOUT (R196): a request whose deadline has passed ends with REMOTE_TIMEOUT, its slot has a new incarnation and is in
quarantine for 524 microseconds; SLOT_QUARANTINE_END frees it; PACKET_LIFE_EXPIRY drops a packet whose
LIFE of 4,095 units of 64 ns has run out. -/
def Sys2Proof.Claims.TagTimers : Prop :=
  (∀ (s : State) (k : Nat) (l : List (List Nat)),
    let x := s.slot s.on.a
    let g := s.group k
    x.busy = true → x.deadline ≤ s.portNow → x.kind = .posted → x.group = k → (s.groups.find k).isSome = true →
    g.posted = [x.serial] :: l → (∀ m ∈ l, m ≠ [] ∧ x.serial ∉ m) → s.replyHeld s.on.a = false →
    exec .requestTimeout s = .next ((s.setSlot s.on.a { x with
        busy := false, targets := [], incarnation := x.incarnation + 1, quarantine := some (s.portNow + 655000) }).setGroup k { g with
      posted := l, rerrCause := if g.rerrCause = 0 then Cause.code .remoteTimeout else g.rerrCause,
      rerrCount := BitVec.ofNat 16 (min (g.rerrCount.toNat + 1) 0xFFFF) }).fire) ∧
  (∀ (s : State) (e : Nat), (s.slot s.on.a).quarantine = some e → e ≤ s.portNow →
    exec .slotQuarantineEnd s = .next (s.setSlot s.on.a { s.slot s.on.a with quarantine := none }).fire) ∧
  (∀ (s : State) (p : SentPkt), s.sent[s.on.a]? = some p →
    (p.sentAt + 80 * 4095 ≤ s.portNow → exec .packetLifeExpiry s = .next { s with sent := s.sent.eraseIdx s.on.a }.fire) ∧
    (s.portNow < p.sentAt + 80 * 4095 → exec .packetLifeExpiry s = .next s))

namespace Sys2Proof.Claims

/-! ## Copy commands -/

/-- The shape of a copy word with a descriptor and a count. -/
def copyShape (f : GrpCpy) : GrpWord := { srcs := [{ o := f.a }, { o := f.b }], dest := destOf f.d 1 }

/-- The descriptor at `ga` can be read, 64 bytes `bs`, and passes the checks of the command (06_copy R87); `r` is the state that the read leaves. -/
def readsDescriptor (s1 r : State) (k : CopyKind) (ga gb : W64) (bs : List Byte) : Prop :=
  ga.toNat % 64 = 0 ∧ s1.blocked s1.curCore s1.curVd ga 64 .load false = false ∧
    s1.performLoad s1.curCore s1.curVd ga 64 false = (r, .ok bs) ∧ s1.copyChecks k (wordsOf64 bs) gb = none

/-- The group's counter and the cluster's engine have room for a command, and no dirty line of the core awaits a claim (R85, R97). -/
def roomToCopy (s1 : State) : Prop :=
  s1.counterFull s1.cur = false ∧ s1.engineLoad (clusterOf s1.curCore) < 64 ∧ s1.dirtyClaimed s1.curCore = false

/-- A copy word that passes its checks (06_copy R85 to R93). With count 0 the barrier has its arrival at once and gd is 0 or, with a promise,
the next cycle. Otherwise a command is queued with its claim granted, last in claim order: its fields are the descriptor's, own-slice
addresses resolved, and gd holds the promise, or 0 where there is none. One whose claim cannot be granted waits at issue, and once it is
granted the word ends. One that fails at its destination's first row ends at once: the barrier has the error (R88, R92). -/
def IssuesCopies (mk : GrpCpy → Instr) (k : CopyKind) : Prop :=
  ∀ (f : GrpCpy) (s r : State) (bs : List Byte),
    let w := copyShape f
    let s1 := (s.take [f.a, f.b]).2
    let ga := gv (s.groupValues w) 0
    let gb := gv (s.groupValues w) 1
    let d := (CopyDesc.ofWords (wordsOf64 bs)).resolve s.curCore k
    let c := s1.newCopy k d ga gb.toNat f.cb.val (regNum f.d) f.np
    let promised := s1.hasPromise s.curCore s.curVd k f.np d
    s.groupReady w = true →
    (s.grp.copyWait = none → readsDescriptor s1 r k ga gb bs →
      (gb = 0 →
        let s2 := (r.arrive s.grp.team f.cb.val 1 none).writeGroup f.d (if promised then s.cyc s.curCore + 1 else 0)
        exec (mk f) s = .next (s2.performed s2.grp.advance)) ∧
      (gb ≠ 0 → roomToCopy s1 → c.err = none → s1.canGrant s1.copyKey c = true →
        ∃ s2 n p, exec (mk f) s = .next s2 ∧ s.copies.find n = none ∧
          s2.copies = s.copies.set n { c with granted := true, phase := .queued, promise := p } ∧ s2.claims = s.claims ++ [n] ∧
          (p.isSome = promised) ∧ c.kind = k ∧ c.desc = d ∧ c.count = gb.toNat ∧ c.cb = f.cb.val ∧ c.team = s.grp.team ∧
          c.group = s.cur ∧ c.core = s.curCore ∧
          (∀ x : Fin 56, f.d = .reg x → s2.groups = (s1.performed (s1.grp.write x.val (p.getD 0)).advance).groups)) ∧
      (gb ≠ 0 → roomToCopy s1 → c.err = none → k.claims = true → s1.canGrant s1.copyKey c = false →
        ∃ s2 n, exec (mk f) s = .next s2 ∧ s.copies.find n = none ∧ s2.copies = s.copies.set n c ∧ s2.claims = s.claims ∧
          (s2.group s.cur).copyWait = some n ∧ (s2.group s.cur).waitWord = some (mk f)) ∧
      (∀ (cause : Cause) (at_ : W64) (tm : Team), gb ≠ 0 → roomToCopy s1 → c.err = some (cause, at_, 0) → s.teams.find s.grp.team = some tm →
        ∃ s2, exec (mk f) s = .next s2 ∧ s2.copies = s.copies ∧ s2.claims = s.claims ∧
          (s2.team s.grp.team).cb f.cb.val = (tm.cb f.cb.val).arrive 1
            (some { cause := cause.code, addr := at_.truncate 56, idx := 0 }))) ∧
    (∀ (n : Nat) (c : CopyCmd), s.grp.copyWait = some n → s.copies.find n = some c → c.phase ≠ .claiming →
      s1.hasPromise s.curCore s.curVd k f.np c.desc = false →
      let s2 := (s1.setGrp { s1.grp with copyWait := none }).writeGroup f.d 0
      exec (mk f) s = .next (s2.performed s2.grp.advance))

/-- A copy word whose descriptor is not aligned traps with MISALIGNED, and one whose descriptor breaks R87 with RESERVED_FIELD. -/
def RefusesDescriptors (i : Instr) (w : GrpWord) (a b : Opnd) (k : CopyKind) : Prop :=
  ∀ (s r : State) (bs : List Byte),
    let s1 := (s.take [a, b]).2
    let ga := gv (s.groupValues w) 0
    s.groupReady w = true → s.grp.copyWait = none →
    (ga.toNat % 64 ≠ 0 → canTrap s .misaligned → exec i s = .next (afterTrap s { cause := .misaligned, addr := ga })) ∧
    (ga.toNat % 64 = 0 → s1.blocked s.curCore s.curVd ga 64 .load false = false →
      s1.performLoad s.curCore s.curVd ga 64 false = (r, .ok bs) → descOk k (wordsOf64 bs) (gv (s.groupValues w) 1) = false →
      canTrap s .reservedField → exec i s = .next (afterTrap s { cause := .reservedField }))

/-- A copy word of the kind, with a destination. -/
def CopyWord (mk : GrpCpy → Instr) (k : CopyKind) : Prop :=
  IssuesCopies mk k ∧ ∀ f, RefusesDescriptors (mk f) (copyShape f) f.a f.b k

/-- CPYW as it issues (R360): the same without gd and promise; the command holds the window's entry as the issue read it. -/
def WindowCopies : Prop :=
  ∀ (a b : Opnd) (get : Bool) (cb : Fin 16) (s r : State) (bs : List Byte),
    let w : GrpWord := { srcs := [{ o := a }, { o := b }] }
    let k : CopyKind := if get then .cpywGet else .cpywPut
    let s1 := (s.take [a, b]).2
    let ga := gv (s.groupValues w) 0
    let gb := gv (s.groupValues w) 1
    let d := (CopyDesc.ofWords (wordsOf64 bs)).resolve s.curCore k
    let c := s1.newCopy k d ga gb.toNat cb.val 0 true
    s.groupReady w = true → s.grp.copyWait = none → readsDescriptor s1 r k ga gb bs →
    (gb = 0 →
      let s2 := r.arrive s.grp.team cb.val 1 none
      exec (.unlisted (.cpyw a b get cb)) s = .next (s2.performed s2.grp.advance)) ∧
    (gb ≠ 0 → roomToCopy s1 → c.err = none → (k.claims = true → s1.canGrant s1.copyKey c = true) →
      ∃ s2 n, exec (.unlisted (.cpyw a b get cb)) s = .next s2 ∧ s.copies.find n = none ∧
        s2.copies = s.copies.set n { c with granted := true, phase := .queued } ∧ s2.claims = s.claims ++ [n] ∧
        s2.groups = (s1.performed s1.grp.advance).groups ∧ c.kind = k ∧ c.desc = d ∧ c.count = gb.toNat ∧ c.team = s.grp.team ∧
        c.window = (s1.windowEntry s.curCore s.curVd (d.aux.toNat / 2 ^ 48)).getD [])

/-- One command ends cancelled (R361): its barrier has an error arrival with CAUSE NONE and ADDRESS 0. -/
def cancelledAt (s t : State) (n : Nat) (done : Nat) : Prop :=
  ∀ tm, s.teams.find (s.copies.get n {}).team = some tm → (t.team (s.copies.get n {}).team).cb (s.copies.get n {}).cb =
    (tm.cb (s.copies.get n {}).cb).arrive 1 (some { cause := 0, addr := 0, idx := done })

end Sys2Proof.Claims

open Sys2Proof Sys2Proof.Machine Sys2Proof.Claims

/-- The copy words CPY, CPYS, CPYG, CPYX, CPYQ and CPYW as they issue. -/
def Obligations.CopyWords : Prop :=
  CopyWord .cpy .cpy ∧ CopyWord .cpys .cpys ∧ CopyWord .cpyg .cpyg ∧ CopyWord .cpyx .cpyx ∧
  CopyWord (fun f => .unlisted (.cpyq f)) .cpyq ∧ WindowCopies ∧
  (∀ (a b : Opnd) (get : Bool) (cb : Fin 16), RefusesDescriptors (.unlisted (.cpyw a b get cb))
    { srcs := [{ o := a }, { o := b }] } a b (if get then .cpywGet else .cpywPut))

/-- CPYC and CPYST (R361, R362). CPYC cancels the issuing team's commands on the barrier that have the tag, or all of them: those that have no
request outstanding end at once, and gd has their number. CPYST gives the counts and the latest promise; with WT gd is PENDING until
none is outstanding. -/
def Sys2Proof.Claims.CopyControlWords : Prop :=
  (∀ (f : GrpDA) (all : Bool) (cb : Fin 16) (s : State),
    let w : GrpWord := { srcs := [{ o := f.a }], dest := destOf f.d 1 }
    let s1 := (s.take [f.a]).2
    let hit := fun n c => c.team = s.grp.team ∧ c.cb = cb.val ∧ c.kind.isImage = false ∧ s1.issuing n = false ∧
      (all = true ∨ c.desc.tag = (gv (s.groupValues w) 0).truncate 32)
    s.groupReady w = true → s.grp.cancelWait = none → FMap.rising s.copies = true →
    (∀ n c, s.copies.find n = some c → hit n c → c.tags = []) →
    ∃ t ks, exec (.unlisted (.cpyc f all cb)) s = .next t ∧ ks.Nodup ∧ (∀ n, n ∈ ks ↔ ∃ c, s.copies.find n = some c ∧ hit n c) ∧
      (∀ n, t.copies.find n = if n ∈ ks then none else s.copies.find n) ∧
      (∀ x : Fin 56, f.d = .reg x → (t.group s.cur).reg x.val = BitVec.ofNat 64 ks.length) ∧
      (∀ n, ks = [n] → (s.copies.get n {}).kind.isWindow = false → cancelledAt s t n (s.copies.get n {}).rowsDone)) ∧
  (∀ c : CopyCmd, c.phase = .running → c.err = none → (∀ r ∈ c.rows, r.cells = []) → c.rowsDone = rowCount c.kind c.count) ∧
  (∀ (c : CopyCmd) (l rest : List CopyRow) (r : CopyRow), c.rows = l ++ r :: rest → (∀ x ∈ l, x.cells = []) → r.cells ≠ [] →
    c.rowsDone = if c.phase = .running then r.i else 0) ∧
  (∀ (d : Opnd) (cb : Fin 16) (s : State),
    let w : GrpWord := { dest := destOf d 1 }
    s.groupReady w = true →
    exec (.unlisted (.cpyst d false cb)) s = .next (s.groupResult w d (s.copyStatus s.grp.team cb.val))) ∧
  (∀ (n : Fin 56) (cb : Fin 16) (s : State),
    let w : GrpWord := { dest := destOf (.reg n) 1, counts := true }
    s.groupReady w = true → s.grp.waits.length < 7 →
    exec (.unlisted (.cpyst (.reg n) true cb)) s = .next (s.performed
      ({ s.grp.setState n.val .pending with waits := s.grp.waits ++ [(n.val, .cpyst cb.val)] } : Group).advance)) ∧
  (∀ (q : Fin 8) (cb : Fin 16) (s : State), s.inOrder = true → s.grp.issuePc ≠ none → canTrap s .reservedField →
    exec (.unlisted (.cpyst (.port q) true cb)) s = .next (afterTrap s { cause := .reservedField })) ∧
  (∀ (s : State) (team cb : Nat),
    let v := (s.copyStatus team cb).toNat
    let own := s.copies.filter (fun p => p.2.team == team && p.2.cb == cb && !p.2.kind.isImage && !s.issuing p.1)
    let queued := s.copies.filter (fun p => clusterOf p.2.core == clusterOf (s.team team).core && !p.2.kind.isImage && !s.issuing p.1)
    v % 2 ^ 16 = min 0xFFFF own.length ∧ v / 2 ^ 16 % 2 ^ 16 = min 0xFFFF queued.length ∧
    ((∀ p ∈ own, p.2.promise = none) → v / 2 ^ 32 = 0) ∧
    (∀ q ∈ own, ∀ p, q.2.promise = some p → (∀ x ∈ own, ∀ y, x.2.promise = some y → y.toNat ≤ p.toNat) →
      v / 2 ^ 32 = p.toNat % 2 ^ 32))

/-- Claims (R88, R89): a command whose extent overlaps a granted claim is not granted; once none does, COPY_CLAIM_GRANT queues it, last in
claim order; a unit is released once its bytes are written, in ascending order but for one that is recalled. -/
def Sys2Proof.Claims.CopyClaims : Prop :=
  (∀ (s : State) (k n a b la lb : Nat) (c o : CopyCmd), (n, o) ∈ s.copies → n ≠ k → o.granted = true → (a, la) ∈ c.extents →
    (b, lb) ∈ o.extents → a < b + lb → b < a + la → s.canGrant k c = false) ∧
  (∀ (s : State) (c : CopyCmd), s.copies.find s.on.a = some c → c.phase = .claiming →
    (s.canGrant s.on.a c = true → ∃ t, exec .copyClaimGrant s = .next t ∧ t.claims = s.claims ++ [s.on.a] ∧
      t.copies = s.copies.set s.on.a { c with granted := true, phase := .queued } ∧ t.groups = s.groups) ∧
    (s.canGrant s.on.a c = false → exec .copyClaimGrant s = .next s)) ∧
  (∀ (s : State) (c : CopyCmd) (i n : Nat) (bs : List Byte) (rg : List (W64 × Nat)) (ps : List (Nat × Nat)),
    s.copies.find s.on.a = some c → c.phase = .running → c.recallable = true →
    c.err = none → c.held.contains s.on.b = true → noBuffers s → s.poison = [] → isSliceKey s.on.b = true → s.on.b % 64 = 0 →
    n = 64 → bs.length = n → Memory.wf s.mem = true →
    c.rows = [{ i := i, cells := (List.range n).zipWith (fun j b => (s.on.b + j, b)) bs, ranges := rg, pieces := ps }] →
    ∃ t, exec .copyUnitRelease s = .next t ∧ Memory.getBytes t.mem s.on.b 64 = bs ∧
      (∀ a, a < s.on.b ∨ s.on.b + 64 ≤ a → Memory.get t.mem a = Memory.get s.mem a) ∧
      t.copies = s.copies.set s.on.a { c with
        held := c.held.filter (· != s.on.b), rows := [{ i := i, cells := [], ranges := rg, pieces := ps }] } ∧
      t.groups = s.groups) ∧
  (∀ (s : State) (c : CopyCmd), s.copies.find s.on.a = some c → c.nextUnit ≠ some s.on.b → s.recalled s.on.b = false →
    exec .copyUnitRelease s = .next s)

/-- The rows of a command as they will be written (R94, R359): CPYG reads the row that its index names, or zeros; CPYX writes the row that its
index names, or none; CPYQ writes the codes and the scales of its blocks. A block of zeros has scale 0 and zero codes; one with a NaN or
an infinity scale FFH and codes 7FH; another the scale of its greatest magnitude, and each element divided by it, rounded in RN and saturated. -/
def Sys2Proof.Claims.CopyRows : Prop :=
  (∀ (s : State) (c : CopyCmd) (i : Nat) (ps ts : List (Nat × Nat)), c.kind = .cpy →
    s.rowPieces c.core c.vd .load c.desc.src (c.desc.src.toNat + 4096 * i : Nat) (min 4096 (c.count - 4096 * i)) = .ok ps →
    s.badOffset ps = none → c.places.getD i [] = ts →
    ∃ r, s.copyRow c i = .ok (r, false, false) ∧ r.i = i ∧ r.cells = cellsOf ts (s.readPieces ps)) ∧
  (∀ (s : State) (c : CopyCmd) (i x : Nat) (ps ts : List (Nat × Nat)), c.kind = .cpyg → s.indexAt c i = .ok x → c.places.getD i [] = ts →
    (x = 0xFFFFFFFF → ∃ r, s.copyRow c i = .ok (r, false, false) ∧ r.i = i ∧
      r.cells = cellsOf ts (List.replicate c.desc.len.toNat 0)) ∧
    (x ≠ 0xFFFFFFFF →
      s.rowPieces c.core c.vd .load c.desc.src (c.desc.src.toNat + x * c.desc.sstride.toInt) c.desc.len.toNat = .ok ps →
      s.badOffset ps = none →
      ∃ r, s.copyRow c i = .ok (r, false, false) ∧ r.i = i ∧ r.cells = cellsOf ts (s.readPieces ps))) ∧
  (∀ (s : State) (c : CopyCmd) (i x : Nat) (ps ts : List (Nat × Nat)), c.kind = .cpyx → s.indexAt c i = .ok x →
    (x = 0xFFFFFFFF → ∃ r, s.copyRow c i = .ok (r, false, false) ∧ r.i = i ∧ r.cells = []) ∧
    (x ≠ 0xFFFFFFFF →
      s.rowPieces c.core c.vd .load c.desc.src (c.desc.src.toNat + i * c.desc.sstride.toInt) c.desc.len.toNat = .ok ps →
      s.badOffset ps = none →
      s.rowPieces c.core c.vd .store c.desc.dst (c.desc.dst.toNat + x * c.desc.dstride.toInt) c.desc.len.toNat = .ok ts →
      ∃ r, s.copyRow c i = .ok (r, false, false) ∧ r.i = i ∧ r.cells = cellsOf ts (s.readPieces ps))) ∧
  (∀ (s : State) (c : CopyCmd) (i : Nat) (ps ts as : List (Nat × Nat)), c.kind = .cpyq →
    s.rowPieces c.core c.vd .load c.desc.src (c.desc.src.toNat + i * c.desc.sstride.toInt) c.desc.len.toNat = .ok ps →
    s.badOffset ps = none → c.places.getD i [] = ts →
    (let m := c.desc.len.toNat / (if c.desc.qin then 2 else 4)
     s.rowPieces c.core c.vd .store c.desc.aux (c.desc.aux.toNat + i * (m / 32) : Nat) (m / 32) = .ok as) →
    ∃ r, s.copyRow c i = .ok (r, (quantRow c.desc (s.readPieces ps)).2) ∧ r.i = i ∧
      r.cells = cellsOf (ts ++ as) (quantRow c.desc (s.readPieces ps)).1) ∧
  (∀ (d : CopyDesc) (bs : List Byte) (n j e : Nat), bs.length = (if d.qin then 2 else 4) * (32 * n) → j < n → e < 32 →
    let x := fun k => exact (if d.qin then .bf16 else .fp32)
      (leValue ((bs.drop ((if d.qin then 2 else 4) * k)).take (if d.qin then 2 else 4)))
    let b := quantBlock (if d.qfmt = 0 then .e4m3 else .e5m2) ((List.range 32).map (fun e => x (32 * j + e)))
    (quantRow d bs).1[32 * j + e]? = some (BitVec.ofNat 8 (b.2.1.getD e 0)) ∧
    (quantRow d bs).1[32 * n + j]? = some (BitVec.ofNat 8 b.1)) ∧
  (∀ (f : Fmt) (xs : List Ext),
    ((∀ x ∈ xs, ∃ n e, x = .fin n 0 e) → quantBlock f xs = (0, xs.map (fun _ => 0), false, false)) ∧
    ((∃ x ∈ xs, ∀ n m e, x ≠ .fin n m e) → quantBlock f xs = (0xFF, xs.map (fun _ => 0x7F), false, false)) ∧
    (∀ (n : Bool) (m : Nat) (e : Int), (∀ x ∈ xs, ∃ n m e, x = .fin n m e) → Ext.fin n m e ∈ xs → m ≠ 0 →
      (∀ n' m' e', Ext.fin n' m' e' ∈ xs → magLe (m', e') (m, e)) →
      let sc := e8m0Of (.fin false m e) f
      quantBlock f xs = (sc.1, xs.map (fun x => (f.encode .rn true (x.scale (127 - (sc.1 : Int)))).1), sc.2.1, sc.2.2))) ∧
  (∀ (n : Bool) (m t : Nat) (e : Int), 2 ^ t ≤ m → m < 2 ^ (t + 1) →
    (∀ f k, (f = Fmt.e4m3 ∧ k = e + t - 8) ∨ (f = .e5m2 ∧ k = e + t - 15) →
      e8m0Of (.fin n m e) f = if k < -127 then (0, true, false) else if 127 < k then (0xFE, false, true)
        else ((k + 127).toNat, false, false))) ∧
  (∀ (n : Bool) (m : Nat) (e k : Int), (Ext.fin n m e).scale k = .fin n m (e + k))

/-- A command runs (R90, R92 to R94): the first in claim order of its engine starts, four at most at a time; a CPYS reads its rows as
they then stand, writes each to its place, and at its end its claim is released and its barrier has one arrival. -/
def Sys2Proof.Claims.CopiesRun : Prop :=
  (∀ (s : State) (c : CopyCmd) (src dst : Nat → Nat), s.copies.find s.on.a = some c → c.kind = .cpys → c.phase = .queued → c.err = none →
    c.rows = [] → s.firstQueued (clusterOf c.core) = some s.on.a → s.engineRunning (clusterOf c.core) < 4 →
    (s.group c.group).copyWait ≠ some s.on.a →
    (∀ i < c.count, s.rowPieces c.core c.vd .load c.desc.src (c.desc.src.toNat + i * c.desc.sstride.toInt) c.desc.len.toNat =
      .ok [(src i, c.desc.len.toNat)] ∧ s.poisoned (src i) c.desc.len.toNat = false ∧
      c.places.getD i [] = [(dst i, c.desc.len.toNat)]) →
    s.sourceHeld s.on.a (s.copySources c) = false →
    ∃ t, exec .copyCommandStart s = .next t ∧ t.groups = s.groups ∧
      t.copies = s.copies.set s.on.a { c with
        phase := .running,
        rows := (List.range c.count).map (fun i =>
          { i := i,
            cells := (List.range c.desc.len.toNat).map (fun j => (dst i + j, Memory.get s.mem (src i + j))),
            ranges := [(BitVec.ofInt 64 (c.desc.dst.toNat + i * c.desc.dstride.toInt), c.desc.len.toNat)],
            pieces := [(dst i, c.desc.len.toNat)] }) }) ∧
  (∀ (s : State) (c : CopyCmd), s.copies.find s.on.a = some c → c.phase = .queued →
    (4 ≤ s.engineRunning (clusterOf c.core) ∨ s.firstQueued (clusterOf c.core) ≠ some s.on.a) →
    exec .copyCommandStart s = .next s) ∧
  (∀ (s : State) (c : CopyCmd) (tm : Team) (dst n : Nat) (bs : Nat → List Byte) (rg : Nat → List (W64 × Nat)) (ps : Nat → List (Nat × Nat)),
    s.copies.find s.on.a = some c → c.kind = .cpys →
    c.phase = .running → c.err = none → c.promise = none → c.qunder = false → c.qover = false → noBuffers s → s.poison = [] → Memory.wf s.mem = true →
    sliceBase ≤ dst → dst + c.count * n ≤ aliasBase → 0 < n → (∀ i < c.count, (bs i).length = n) →
    c.rows = (List.range c.count).map (fun i =>
      { i := i, cells := (List.range n).zipWith (fun j b => (dst + i * n + j, b)) (bs i), ranges := rg i, pieces := ps i }) →
    s.teams.find c.team = some tm →
    ∃ t, exec .copyCommandComplete s = .next t ∧
      (∀ i < c.count, ∀ j < n, Memory.get t.mem (dst + i * n + j) = (bs i).getD j 0) ∧
      (∀ a, a < dst ∨ dst + c.count * n ≤ a → Memory.get t.mem a = Memory.get s.mem a) ∧
      t.copies = s.copies.erase s.on.a ∧ t.claims = s.claims.filter (· != s.on.a) ∧ t.groups = s.groups ∧
      (t.team c.team).cb c.cb = (tm.cb c.cb).arrive 1 none) ∧
  (∀ (s : State) (c : CopyCmd) (tm : Team) (cause : Cause) (at_ : W64) (i : Nat), s.copies.find s.on.a = some c → c.phase = .running →
    c.kind ≠ .stow → c.kind ≠ .restore → c.rows = [] → c.pieces = [] → c.tags = [] → c.cancelled = false → c.promise = none →
    c.qunder = false → c.qover = false → c.err = some (cause, at_, i) → s.teams.find c.team = some tm →
    ∃ t, exec .copyCommandComplete s = .next t ∧ t.mem = s.mem ∧ t.copies = s.copies.erase s.on.a ∧
      t.claims = s.claims.filter (· != s.on.a) ∧ t.groups = s.groups ∧
      (t.team c.team).cb c.cb = (tm.cb c.cb).arrive 1 (some { cause := cause.code, addr := at_.truncate 56, idx := i }))

/-- MISSED_PROMISE (R91): a group that reaches its command's promised cycle before the command has completed traps before its next word,
once for each command, even if it has completed since; the address is the descriptor's. -/
def Sys2Proof.Claims.MissedPromises : Prop :=
  (∀ (s : State) (a : W64) (pc : VA), s.promiseDue s.on.a = some a → (s.group s.on.a).issuePc = some pc →
    (s.group s.on.a).live = true → (s.group s.on.a).held = false → (s.group s.on.a).hint = none →
    (s.group s.on.a).copyWait = none → handles (s.group s.on.a) (Cause.code .missedPromise) →
    let g := s.group s.on.a
    ∃ t, exec .missedPromise s = .next t ∧
      t.group s.on.a = { inHandler g
        { ownRecord g { cause := .missedPromise, addr := a } with fpc := pc } pc (maskOf g.run) with
        waitWord := none, sleepLeft := none, inPipe := false, late := g.late.tail } ∧
      (∀ n, g.late = [] → s.overdue s.on.a = some n →
        a = (s.copies.get n {}).descAt ∧ t.copies = s.copies.set n { s.copies.get n {} with missed := true }) ∧
      (∀ l, g.late = a :: l → t.copies = s.copies)) ∧
  (∀ (s : State) (k n : Nat), FMap.rising s.copies = true → s.overdue k = some n → (s.copies.get n {}).group = k ∧
    (s.copies.get n {}).missed = false ∧ ∃ p, (s.copies.get n {}).promise = some p ∧
      p.toNat ≤ (s.cyc (s.team (s.group k).team).core).toNat) ∧
  (∀ (s : State) (k : Nat) (c : CopyCmd) (e : Option ArrErr), c.qunder = false → c.qover = false → (s.groups.find c.group).isSome = true →
    c.missed = false → (∃ p, c.promise = some p ∧ p.toNat ≤ (s.cyc c.core).toNat) →
    ((s.endCopy k c e).group c.group).late = (s.group c.group).late ++ [c.descAt])

/-- STOW_COMPLETE and RESTORE_COMPLETE (05_slices R80, R81): the image of a segment in one slice holds its bytes, its granules are free and
it is STOWED; restored, the slice holds the image and the segment is RESIDENT. -/
def Obligations.SegmentsMove : Prop :=
  ∀ (s : State) (n : Nat),
    let g := s.seg s.on.a s.on.b
    let v := s.vdev s.on.a
    s.segWork s.on.a s.on.b = some n → (s.copies.get n {}).phase = .running → g.cluster = false → s.poison = [] →
    Memory.wf s.mem = true → (∀ x ∈ s.vdevs, x.2.track = false) →
    (g.state = .stowing → isDeviceKey g.stowPa = true → isDeviceKey (g.stowPa + g.ng * 65536) = true →
      ∃ t, exec .stowComplete s = .next t ∧
        (∀ i < g.ng * 65536, Memory.get t.mem (g.stowPa + i) = Memory.get s.mem (g.base + i)) ∧
        (∀ a, a < g.stowPa ∨ g.stowPa + g.ng * 65536 ≤ a → Memory.get t.mem a = Memory.get s.mem a) ∧
        (∀ i < g.ng, t.granuleFree g.core (g.gran + i) = true) ∧ t.copies = s.copies.erase n ∧
        t.vdevs = s.vdevs.set s.on.a { v with segs := v.segs.set s.on.b { g with state := .stowed } }) ∧
    (g.state = .restoring → isSliceKey g.base = true → g.gran + g.ng ≤ 40 →
      ∃ t, exec .restoreComplete s = .next t ∧
        (∀ i < g.ng * 65536, Memory.get t.mem (g.base + i) = Memory.get s.mem (g.stowPa + i)) ∧
        (∀ a, a < g.base ∨ g.base + g.ng * 65536 ≤ a → Memory.get t.mem a = Memory.get s.mem a) ∧
        t.copies = s.copies.erase n ∧
        t.vdevs = s.vdevs.set s.on.a { v with segs := v.segs.set s.on.b { g with state := .resident, stowPa := 0 } })

namespace Sys2Proof.Claims

/-- The register of a group destination holds a value. -/
def gives (s t : State) (d : Opnd) (v : W64) : Prop := ∀ x : Fin 56, d = .reg x → (t.group s.cur).reg x.val = v

/-- The word waits: nothing is written to its destination. -/
def waitsAt (s t : State) (i : Instr) : Prop :=
  (t.group s.cur).waitWord = some i ∧ (t.group s.cur).g = s.grp.g ∧ (t.group s.cur).threads = s.grp.threads

/-- The granules of a segment are free. -/
def granulesFree (t : State) (g : Seg) : Prop := ∀ c ∈ g.cores, ∀ j < g.ng, t.granuleFree c (g.gran + j) = true

/-- Some other team holds an attach. -/
def heldElsewhere (g : Seg) (team : Nat) : Prop := (∃ u, g.writer = some u ∧ u ≠ team) ∨ (∃ u ∈ g.readers, u ≠ team)

/-- The segment with a team's attach released. -/
def released (g : Seg) (team : Nat) : Seg :=
  { g with writer := if g.writer = some team then none else g.writer, readers := g.readers.filter (· != team) }

/-- SGNEW (05_slices R330). -/
def MakesSegments : Prop :=
  ∀ (d b : Opnd) (pin clu : Bool) (s : State),
    let w : GrpWord := { srcs := [{ o := b }], dest := destOf d 1 }
    let i := Instr.unlisted (.sgnew d b pin clu)
    let s1 := (s.take [b]).2
    let size := (gv (s.groupValues w) 0).toNat
    let most := if clu then 20 * 2 ^ 20 else 5 * 2 ^ 19
    let unit := if clu then 8 * 2 ^ 16 else 2 ^ 16
    let ng := (size + unit - 1) / unit
    let cores := if clu then (List.range 8).map (fun i => s.curCore / 8 * 8 + i) else [s.curCore]
    let v := s.vdev s.curVd
    s.groupReady w = true →
    ((size = 0 ∨ most < size) → canTrap s .sliceRange → exec i s = .next (afterTrap s { cause := .sliceRange })) ∧
    (size ≠ 0 → size ≤ most →
      (4096 ≤ v.segs.length → exec i s = .next (s.groupResult w d 0)) ∧
      (v.segs.length < 4096 → s1.stowsFor (.sgnew s.cur) = false → s1.freeRun cores ng = none → s1.candidatesFor s.curVd cores = [] →
        s1.stowing cores = false → exec i s = .next (s.groupResult w d 0)) ∧
      (∀ r n, v.segs.length < 4096 → s1.stowsFor (.sgnew s.cur) = false → s1.freeRun cores ng = some r →
        n < 4096 → v.segs.find n = none → (∀ m < n, v.segs.find m ≠ none) →
        let g : Seg :=
          { cluster := clu, state := .local_, pin := pin, writer := some s.grp.team, core := if clu then s.curCore / 8 * 8 else s.curCore,
            gran := r, ng := ng, lseq := BitVec.ofNat 32 s.curTeam.launch }
        ∃ t, exec i s = .next t ∧ t.seg s.curVd n = g ∧ gives s t d (BitVec.ofNat 64 (sliceKey g.core (r * 65536))) ∧
          (t.team s.grp.team).attaches = (n, true) :: s.curTeam.attaches ∧
          (∀ c ∈ cores, ∀ j < ng, s.granules.find (granuleOf c (r + j)) = none ∧
            t.granules.find (granuleOf c (r + j)) = some (s.curVd + 1)) ∧
          (∀ c ∈ cores, ∀ j < ng * 65536, Memory.get t.mem (sliceKey c (r * 65536) + j) = 0) ∧
          (∀ a, (∀ c ∈ cores, a < sliceKey c (r * 65536) ∨ sliceKey c (r * 65536) + ng * 65536 ≤ a) →
            Memory.get t.mem a = Memory.get s.mem a)))

/-- SGNAME (R331): its four statuses, the lowest that applies but that a name of 0 goes before and a named segment next. -/
def NamesSegments : Prop :=
  ∀ (f : GrpThree) (s : State),
    let w : GrpWord := { srcs := [{ o := f.a }, { o := f.b }], dest := destOf f.d 1 }
    let i := Instr.unlisted (.sgname f)
    let base := gv (s.groupValues w) 0
    let name := gv (s.groupValues w) 1
    let s1 := (s.take [f.a, f.b]).2
    s.groupReady w = true →
    (s1.segHeld s.curVd s.grp.team base = none → canTrap s .attachMiss →
      exec i s = .next (afterTrap s { cause := .attachMiss, addr := base })) ∧
    (∀ n, s1.segHeld s.curVd s.grp.team base = some n →
      let g := s.seg s.curVd n
      (name = 0 → exec i s = .next (s.groupResult w f.d 3)) ∧
      (name ≠ 0 → g.state ≠ .local_ → exec i s = .next (s.groupResult w f.d 2)) ∧
      (name ≠ 0 → g.state = .local_ → (s1.segNamed s.curVd name).isSome = true → exec i s = .next (s.groupResult w f.d 1)) ∧
      (name ≠ 0 → g.state = .local_ → s1.segNamed s.curVd name = none →
        ∃ t, exec i s = .next t ∧ gives s t f.d 0 ∧
          t.seg s.curVd n = { g with state := .resident, name := name, dseq := (s.vdev s.curVd).dseq } ∧ t.mem = s.mem))

/-- SGATT (R332, R77, R81): an unknown name, or a stowed segment that may not be restored, traps with ATTACH_MISS; an attach that another's
write attach, or for write any other attach, forbids with SEGMENT_CONFLICT; a RESIDENT segment, or one whose stow is cut short, is attached,
gd has its base and the core's L1 is empty; a STOWED one is to be restored, and the word waits. -/
def AttachesSegments : Prop :=
  ∀ (f : GrpDA) (nr wr : Bool) (s : State),
    let w : GrpWord := { srcs := [{ o := f.a }], dest := destOf f.d 1 }
    let i := Instr.unlisted (.sgatt f nr wr)
    let name := gv (s.groupValues w) 0
    let s1 := (s.take [f.a]).2
    let team := s.grp.team
    s.groupReady w = true → s1.dirtyClaimed s.curCore = false →
    (s1.segNamed s.curVd name = none → canTrap s .attachMiss → exec i s = .next (afterTrap s { cause := .attachMiss, addr := name })) ∧
    (∀ n, s1.segNamed s.curVd name = some n → s1.turnAt s.curVd n (.group s.cur) = true →
      let g := s.seg s.curVd n
      ((g.state = .resident ∨ g.state = .stowing) →
        (((∃ u, g.writer = some u ∧ u ≠ team) ∨ (wr = true ∧ g.writer ≠ some team ∧ ∃ u ∈ g.readers, u ≠ team)) →
          ¬ (wr = false ∧ team ∈ g.readers) → canTrap s .segmentConflict → exec i s = .next (afterTrap s { cause := .segmentConflict, addr := name })) ∧
        (g.writer = none → ¬ (wr = false ∧ team ∈ g.readers) → (wr = true → ∀ u ∈ g.readers, u = team) →
          ∃ t, exec i s = .next t ∧ (t.seg s.curVd n).state = .resident ∧ gives s t f.d (BitVec.ofNat 64 g.base) ∧
            (t.seg s.curVd n).writer = (if wr then some team else none) ∧
            (t.seg s.curVd n).readers = (if wr then [] else g.readers ++ [team]) ∧
            (t.team team).attaches = (n, wr) :: s.curTeam.attaches.filter (fun a => a.1 != n) ∧ (t.core s.curCore).l1 = []) ∧
        ((g.writer = some team ∨ (g.writer = none ∧ wr = false ∧ team ∈ g.readers)) →
          ∃ t, exec i s = .next t ∧ (t.seg s.curVd n).state = .resident ∧ gives s t f.d (BitVec.ofNat 64 g.base) ∧
            (t.seg s.curVd n).writer = g.writer ∧ (t.seg s.curVd n).readers = g.readers ∧ (t.core s.curCore).l1 = [])) ∧
      (g.state = .stowed → nr = true → canTrap s .attachMiss → exec i s = .next (afterTrap s { cause := .attachMiss, addr := name })) ∧
      (g.state = .stowed → nr = false → ∃ t, exec i s = .next t ∧ waitsAt s t i ∧ (t.seg s.curVd n).state = .restoring ∧
        (t.seg s.curVd n).core = (if g.cluster then s.curCore / 8 * 8 else s.curCore)))

/-- SGDET (R333, R78): once nothing that the detach awaits is left, the attach ends, DSEQ is noted and counted on; a LOCAL segment, or a
dropped one with no attach left, goes and its granules are free. -/
def DetachesSegments : Prop :=
  ∀ (a : Opnd) (s : State),
    let w : GrpWord := { srcs := [{ o := a }] }
    let i := Instr.unlisted (.sgdet a)
    let base := gv (s.groupValues w) 0
    let s1 := (s.take [a]).2
    let team := s.grp.team
    s.groupReady w = true →
    (s1.segHeld s.curVd team base = none → canTrap s .attachMiss → exec i s = .next (afterTrap s { cause := .attachMiss, addr := base })) ∧
    (∀ n, s1.segHeld s.curVd team base = some n → s1.releaseWaits .device true = false →
      s1.detachWaits team (s.seg s.curVd n) = false → s1.turnAt s.curVd n (.group s.cur) = true →
      let g := s.seg s.curVd n
      ∃ t, exec i s = .next t ∧ (t.vdev s.curVd).dseq = (s.vdev s.curVd).dseq + 1 ∧
        (t.team team).attaches = s.curTeam.attaches.filter (fun x => x.1 != n) ∧
        (g.state ≠ .local_ → (g.dropped = false ∨ heldElsewhere g team) →
          t.seg s.curVd n = { released g team with dseq := (s.vdev s.curVd).dseq }) ∧
        ((g.state = .local_ ∨ (g.dropped = true ∧ ¬ heldElsewhere g team)) →
          (t.vdev s.curVd).segs.find n = none ∧ (g.resident = true → granulesFree t g)))

/-- SGDROP and SGSTOW (R334, R335): their statuses, and what each leaves. -/
def EndsSegments : Prop :=
  (∀ (f : GrpDA) (byName : Bool) (s : State),
    let w : GrpWord := { srcs := [{ o := f.a }], dest := destOf f.d 1 }
    let i := Instr.unlisted (.sgdrop f byName)
    let a := gv (s.groupValues w) 0
    let s1 := (s.take [f.a]).2
    let team := s.grp.team
    let found := if byName then s1.segNamed s.curVd a else s1.segHeld s.curVd team a
    s.groupReady w = true →
    (found = none → byName = true → exec i s = .next (s.groupResult w f.d 2)) ∧
    (found = none → byName = false → canTrap s .attachMiss → exec i s = .next (afterTrap s { cause := .attachMiss, addr := a })) ∧
    (∀ n, found = some n →
      let g := s.seg s.curVd n
      ((g.state = .stowing ∨ g.state = .restoring) → ∃ t, exec i s = .next t ∧ waitsAt s t i) ∧
      (g.state ≠ .stowing → g.state ≠ .restoring → s1.turnAt s.curVd n (.group s.cur) = true →
        (¬ heldElsewhere g team → ∃ t, exec i s = .next t ∧ gives s t f.d 0 ∧ (t.vdev s.curVd).segs.find n = none ∧
          (g.resident = true → granulesFree t g)) ∧
        (heldElsewhere g team → g.state ≠ .free → ∃ t, exec i s = .next t ∧ gives s t f.d 1 ∧
          t.seg s.curVd n = { released g team with name := 0, dropped := true })))) ∧
  (∀ (f : GrpDA) (s : State),
    let w : GrpWord := { srcs := [{ o := f.a }], dest := destOf f.d 1 }
    let i := Instr.unlisted (.sgstow f)
    let name := gv (s.groupValues w) 0
    let s1 := (s.take [f.a]).2
    s.groupReady w = true →
    (s1.segNamed s.curVd name = none → exec i s = .next (s.groupResult w f.d 5)) ∧
    (∀ n, s1.segNamed s.curVd name = some n → s.segNamed s.curVd name = some n →
      let g := s.seg s.curVd n
      (g.state = .restoring → ∃ t, exec i s = .next t ∧ waitsAt s t i) ∧
      (g.state ≠ .restoring → s1.turnAt s.curVd n (.group s.cur) = true →
        ((g.attached = true ∨ s1.imported s.curVd g = true) → exec i s = .next (s.groupResult w f.d 1)) ∧
        (g.attached = false → s1.imported s.curVd g = false → g.buffer = false →
          (g.pin = true → exec i s = .next (s.groupResult w f.d 2)) ∧
          (g.pin = false → s1.poolPlace s.curVd g.units = none → exec i s = .next (s.groupResult w f.d 3)) ∧
          (g.pin = false → s1.poolPlace s.curVd g.units ≠ none → g.state ≠ .resident → exec i s = .next (s.groupResult w f.d 4)) ∧
          (∀ pa, g.pin = false → s1.poolPlace s.curVd g.units = some pa → g.state = .resident →
            ∃ t k c, exec i s = .next t ∧ gives s t f.d 0 ∧ (t.seg s.curVd n).state = .stowing ∧ (t.seg s.curVd n).stowPa = pa ∧
              s.copies.find k = none ∧ t.copies = s.copies.set k c ∧ c.kind = .stow ∧ c.phase = .claiming ∧ c.vd = s.curVd ∧
              c.seg = n ∧ c.extents = [(pa, g.units * 65536)] ∧ t.mem = s.mem)))))

end Sys2Proof.Claims

open Sys2Proof Sys2Proof.Machine Sys2Proof.Claims

/-- The segment words SGNEW, SGNAME, SGATT, SGDET, SGDROP and SGSTOW (05_slices R330 to R335). -/
def Obligations.SegmentWords : Prop :=
  MakesSegments ∧ NamesSegments ∧ AttachesSegments ∧ DetachesSegments ∧ EndsSegments

namespace Sys2Proof.Claims

open Sys2Proof.Machine

/-- The shape of a group word with the sources given. -/
def groupReads (os : List Opnd) : GrpWord := { srcs := os.map (fun o => { o := o }) }

/-- The state after a group word that was ready and changed its team. -/
def afterTeam (s : State) (w : GrpWord) (t : Team) : State :=
  let s1 := (s.take (w.srcs.map (·.o))).2
  (s1.setTeam s.grp.team t).performed s1.grp.advance

end Sys2Proof.Claims

open Sys2Proof Sys2Proof.Machine Sys2Proof.Claims

/-- Words of the opcode maps beside the table (log entry 6): GNOP only goes on (15_faults R376); FENCE goes on once no remote load, and at domain
scope no posted request, is outstanding (12_consistency R351); SLEEP waits until the cycle counter reaches ga (15_faults R374); KINIT sets
`klen` where a thread acts (08_compute R392); KEXT reads one half of an entry of the list (R358). -/
def Sys2Proof.Claims.PlainWords : Prop :=
  (∀ (f : GrpGuard) (s : State),
    let w : GrpWord := { guard := grpGuard s.grp f.cg f.ng }
    s.groupReady w = true → exec (.unlisted (.gnop f)) s = .next (s.performed s.grp.advance)) ∧
  (∀ (sc : Scope) (s : State), s.groupReady {} = true →
    (sc = .group ∨ sc = .team ∨ (s.awaitsRemote s.cur = false ∧ (sc = .device ∨ s.grp.posted = []))) →
    exec (.unlisted (.fence sc)) s = .next (s.performed s.grp.advance)) ∧
  (∀ (a : Opnd) (s : State), s.groupReady (groupReads [a]) = true → s.grp.sleepLeft = none →
    exec (.unlisted (.sleep a)) s = .next
      (if (gv (s.groupValues (groupReads [a])) 0).toNat ≤ (s.cyc s.curCore).toNat then afterGroup s (groupReads [a]) (fun g _ => g.advance)
       else s.stall (.unlisted (.sleep a)))) ∧
  (∀ (k : BitVec 9) (pg : Fin 8) (s : State),
    let w : LaneWord := { guard := laneGuard pg false }
    s.laneReady w = true → w.acting s.grp ≠ [] →
    exec (.unlisted (.kinit k pg)) s = .next (s.performed (({ s.grp with klen := k.zeroExtend 64 } : Group).stepRun [] (fun _ x => x)))) ∧
  (∀ (d a : Opnd) (idx : Bool) (e : Fin 16) (pg : Fin 8) (s : State),
    let r : LaneRule :=
      { word := { blocks := [(regNum a, 2 * s.grp.klenN)] ++ blockOf d 1, guard := laneGuard pg false, ok := decide (e.val < s.grp.klenN),
                  srcs := [{ o := regOpnd (regNum a + 2 * e.val + bitNat idx) }], dest := destOf d 1 },
        d := d, op := fun _ _ v => (v.getD 0 0, {}) }
    s.laneReady r.word = true → exec (.unlisted (.kext d a idx e pg)) s = .next (s.laneResult r))

/-- Words on bindings, the grid, segments, tiles, accumulators and remote errors, whenever ready: BIND with gb 0 has no effect, and of a word
that is no bound pair takes the lowest free entry, or sets OVF where none is free; UNBIND empties the table and OVF, or removes the
object's entries, an object that is no multiple of 8 raising MISALIGNED (12_consistency R212, R215, R217, R352); COORD with SEL 0 gives FAB_COORD (11_fabric R348); SGSTAT of an unknown name gives 0
(05_slices R336); TINV joins the sequencer's queue (10_table R365); AZERO, its turn come and the accumulator not held, makes it zero and FULL,
or EMPTY (R370); RFENCE with nothing outstanding gives the group's remote error record and clears it (11_fabric R397). -/
def Sys2Proof.Claims.TeamWords : Prop :=
  (∀ (f : GrpThree) (s : State),
    let w := groupReads [f.a, f.b, f.d]
    s.groupReady w = true → gv (s.groupValues w) 1 = 0 → exec (.unlisted (.bind f)) s = .next (afterGroup s w (fun g _ => g.advance))) ∧
  (∀ (f : GrpThree) (s : State),
    let w := groupReads [f.a, f.b, f.d]
    let v := gv (s.groupValues w)
    let t := s.curTeam
    let e : Binding := { obj := v 2, base := v 0, len := v 1 }
    s.groupReady w = true → v 1 ≠ 0 → (v 0).toNat + (v 1).toNat ≤ 2 ^ 56 → v 2 ≠ 0 → (v 2).toNat % 8 = 0 →
    s.segHeld s.curVd s.grp.team (v 2) = none → (∀ p ∈ t.bindings, ¬(p.2.obj = v 2 ∧ p.2.base = v 0)) →
    (∀ n < 16, t.bindings.find n = none → (∀ m < n, t.bindings.find m ≠ none) →
      exec (.unlisted (.bind f)) s = .next (afterTeam s w { t with bindings := t.bindings.set n e })) ∧
    ((∀ n < 16, t.bindings.find n ≠ none) → exec (.unlisted (.bind f)) s = .next (afterTeam s w { t with ovf := true }))) ∧
  (∀ (f : GrpDA) (s : State),
    let w := groupReads [f.a, f.d]
    let v := gv (s.groupValues w)
    let t := s.curTeam
    s.groupReady w = true →
    ((v 1 = 0 ∨ (v 1).toNat % 8 = 0 ∨ (s.segHeld s.curVd s.grp.team (v 1)).isSome = true) →
      exec (.unlisted (.unbind f)) s = .next (afterTeam s w
        (if v 1 = 0 then { t with bindings := [], ovf := false }
         else { t with bindings := t.bindings.filter (fun p => !(p.2.obj == v 1 && (v 0 == BitVec.allOnes 64 || p.2.base == v 0))) }))) ∧
    ((v 1).toNat % 8 ≠ 0 → s.segHeld s.curVd s.grp.team (v 1) = none → (v 1).toNat < sliceBase → canTrap s .misaligned →
      exec (.unlisted (.unbind f)) s = .next (afterTrap s { cause := .misaligned, addr := v 1 }))) ∧
  (∀ (d a : Opnd) (s : State),
    let w : GrpWord := { dest := destOf d 1 }
    s.groupReady w = true → exec (.unlisted (.coord d a 0)) s = .next (s.groupResult w d (s.vdev s.curVd).fabCoord)) ∧
  (∀ (f : GrpDA) (n : Fin 4) (s : State),
    let w : GrpWord := { srcs := [{ o := f.a }], dest := destOf f.d 1 }
    s.groupReady w = true → s.segNamed s.curVd (gv (s.groupValues w) 0) = none →
    exec (.unlisted (.sgstat f n)) s = .next (s.groupResult w f.d 0)) ∧
  (∀ (t : Fin 8) (s : State),
    let c := s.core s.curCore
    let q : SeqCmd := { kind := .tinv, tile := t.val, word := some (.unlisted (.tinv t)), id := s.fired, team := s.grp.team, group := s.cur }
    s.groupReady {} = true → t.val < s.curTeam.nTiles → c.seqs.countP (fun q => !q.started) < 8 →
    exec (.unlisted (.tinv t)) s = .next ((s.setCore s.curCore { c with seqs := c.seqs ++ [q] }).performed s.grp.advance)) ∧
  (∀ (d : Fin 16) (e : Bool) (s : State),
    let t := s.curTeam
    let a := t.accs.get d.val {}
    s.groupReady {} = true → d.val < t.nAccs → a.hold = none → (s.pipe s.curCore).takeWhile (fun k => k != s.cur) = [] →
    let x : Acc := if e then { a with full := false } else { vals := [], full := true, hold := none }
    exec (.unlisted (.azero d e)) s = .next (afterTeam s {} { t with accs := t.accs.set d.val x })) ∧
  (∀ (d : Opnd) (s : State),
    let w : GrpWord := { dest := destOf d 1 }
    let s1 := s.setGrp { s.grp with rerrCause := 0, rerrCount := 0 }
    s.groupReady w = true → s.grp.posted = [] → s.grp.replyWait = none →
    let s2 := s1.writeGroup d (BitVec.ofNat 64 (s.grp.rerrCause.toNat * 2 ^ 56 + s.grp.rerrCount.toNat * 2 ^ 40))
    exec (.unlisted (.rfence d false false)) s = .next (s2.performed s2.grp.advance))

/-- KINS (08_compute R138, R357): the new pair goes before the first entry that it ranks above, the entries from there on move one place back,
and the last falls out; no bit of a score changes. -/
def Sys2Proof.Claims.ListWords : Prop :=
  (∀ (f : LaneBin) (s : State),
    let d := regNum f.d
    let k := s.grp.klenN
    let w : LaneWord :=
      { blocks := [(d, 2 * k)] ++ blockOf f.a 1 ++ blockOf f.b 1, guard := laneGuard f.pg f.ng,
        srcs := [{ o := f.a, trap := f.ea }, { o := f.b, trap := f.eb }],
        also := (List.range (2 * k)).map (fun j => d + j), dest := .regs d (2 * k) }
    s.laneReady w = true → exec (.unlisted (.kins f)) s = .next (s.laneThreads w (fun g v _ x => onward
      (x.writeRegs d ((kInsert (v.getD 0 0, v.getD 1 0) (x.kList d g.klenN)).flatMap (fun p => [p.1, p.2])))))) ∧
  (∀ (x : Thread) (d k j : Nat), j < k → (x.kList d k)[j]? = some (x.reg (d + 2 * j), x.reg (d + 2 * j + 1))) ∧
  (∀ (x : Thread) (d r : Nat) (l : List W32), (x.writeRegs d l).reg r =
    if d ≤ r ∧ r < d + l.length then l.getD (r - d) 0 else x.reg r) ∧
  (∀ (p : W32 × W32) (l : List (W32 × W32)), ∃ j ≤ l.length, (∀ i < j, ranksAbove p (l.getD i (0, 0)) = false) ∧
    (j < l.length → ranksAbove p (l.getD j (0, 0)) = true) ∧ (kInsert p l).length = l.length ∧
    (∀ i < l.length, (kInsert p l).getD i (0, 0) = if i < j then l.getD i (0, 0) else if i = j then p else l.getD (i - 1) (0, 0))) ∧
  (∀ a b : W32 × W32,
    ((fp32 a.1).isNan = false → (fp32 b.1).isNan = false →
      (ranksAbove a b = true ↔ Ext.lt (fp32 b.1) (fp32 a.1) = true ∨
        (Ext.lt (fp32 a.1) (fp32 b.1) = false ∧ a.2.toNat < b.2.toNat))) ∧
    ((fp32 a.1).isNan = false → (fp32 b.1).isNan = true → ranksAbove a b = true) ∧
    ((fp32 a.1).isNan = true → (fp32 b.1).isNan = false → ranksAbove a b = false) ∧
    ((fp32 a.1).isNan = true → (fp32 b.1).isNan = true → ranksAbove a b = decide (a.2.toNat < b.2.toNat)))

/-- ACQ and REL (12_consistency R217, R349, R350, R386): a segment that the team has attached, or a word in a slice. The acquire leaves the core's
L1 empty; the release counts on the segment's releases, or adds 1 to the word. An object address of 0, or one that is no multiple of 8, raises
MISALIGNED. (Of the choices of R386 the model takes the full acquire and the full write-back: log entry 30.) -/
def Sys2Proof.Claims.SyncWords : Prop :=
  (∀ (a : Opnd) (sc : Scope) (s : State),
    let w := groupReads [a]
    let s1 := (s.take [a]).2
    let o := gv (s.groupValues w) 0
    s.groupReady w = true →
    ((s.segHeld s.curVd s.grp.team o).isSome = true → s1.dirtyClaimed s.curCore = false →
      ∃ t, exec (.unlisted (.acq a sc)) s = .next t ∧ (t.core s.curCore).l1 = [] ∧ t.groups = (afterGroup s w (fun g _ => g.advance)).groups) ∧
    (∀ key, s.segHeld s.curVd s.grp.team o = none → o ≠ 0 → o.toNat % 8 = 0 → reachesSlice s o 8 .load key →
      s1.dirtyClaimed s.curCore = false →
      ∃ t, exec (.unlisted (.acq a sc)) s = .next t ∧ (t.core s.curCore).l1 = [] ∧ t.groups = (afterGroup s w (fun g _ => g.advance)).groups) ∧
    (s.segHeld s.curVd s.grp.team o = none → o = 0 ∨ (o.toNat % 8 ≠ 0 ∧ o.toNat < sliceBase) → canTrap s .misaligned →
      exec (.unlisted (.acq a sc)) s = .next (afterTrap s { cause := .misaligned, addr := o }))) ∧
  (∀ (a : Opnd) (sc : Scope) (s : State),
    let w := groupReads [a]
    let s1 := (s.take [a]).2
    let o := gv (s.groupValues w) 0
    s.groupReady w = true →
    (∀ n, s.segHeld s.curVd s.grp.team o = some n → s1.releaseWaits sc true = false → (s.seg s.curVd n).state ≠ .free →
      ∃ t, exec (.unlisted (.rel a sc)) s = .next t ∧
        t.seg s.curVd n = { s.seg s.curVd n with releases := (s.seg s.curVd n).releases + 1 } ∧
        t.groups = (afterGroup s w (fun g _ => g.advance)).groups) ∧
    (∀ key, s.segHeld s.curVd s.grp.team o = none → o ≠ 0 → reachesSlice s o 8 .atomic key → plainSlices s →
      (s.vdev s.curVd).capture = [] → s1.releaseWaits sc true = false →
      ∃ t, exec (.unlisted (.rel a sc)) s = .next t ∧ t.load64 key = s.load64 key + 1 ∧
        (∀ x, x < key ∨ key + 8 ≤ x → Memory.get t.mem x = Memory.get s.mem x) ∧
        t.groups = (afterGroup s w (fun g _ => g.advance)).groups) ∧
    (s.segHeld s.curVd s.grp.team o = none → o = 0 ∨ (o.toNat % 8 ≠ 0 ∧ o.toNat < sliceBase) → canTrap s .misaligned →
      exec (.unlisted (.rel a sc)) s = .next (afterTrap s { cause := .misaligned, addr := o })))

/-- TEAMEND (15_faults R377) once the group's earlier accesses are performed: the team ends with ga's low half as its completion value, all its
launched threads count as exited, and every group that stands in no accumulator pipe is gone. PRIO (R379): the base priority becomes ga, the
launch's at most, and gd has the one before. PROBE (R378): what an access would find. GENTAG (16_experts R380). -/
def Sys2Proof.Claims.AdminWords : Prop :=
  (∀ (a : Opnd) (f : GrpGuard) (s : State),
    let w : GrpWord := { guard := grpGuard s.grp f.cg f.ng, srcs := [{ o := a }] }
    s.groupReady w = true → (s.take [a]).2.releaseWaits .device true = false →
    ∃ t, exec (.unlisted (.teamend a f)) s = .next t ∧ (t.team s.grp.team).phase = .ending ∧
      (t.team s.grp.team).completion = (gv (s.groupValues w) 0).truncate 32 ∧
      (t.team s.grp.team).exited = s.curTeam.launched ∧
      (∀ k ∈ s.curTeam.groups, (s.group k).inPipe = false → (t.group k).live = false)) ∧
  (∀ (f : GrpDA) (s : State),
    let w : GrpWord := { srcs := [{ o := f.a }], dest := destOf f.d 1 }
    let v := (gv (s.groupValues w) 0).toNat
    s.groupReady w = true →
    (v ≤ 47 → ∃ t, exec (.unlisted (.prio f)) s = .next t ∧ gives s t f.d (BitVec.ofNat 64 s.curTeam.base) ∧
      t.team s.grp.team = { s.curTeam with base := min v (s.launch s.curTeam.launch).prio } ∧ t.mem = s.mem) ∧
    (47 < v → canTrap s .reservedField → exec (.unlisted (.prio f)) s = .next (afterTrap s { cause := .reservedField }))) ∧
  (∀ (f : GrpThree) (kind : Fin 4) (s : State),
    let w : GrpWord := { srcs := [{ o := f.a }, { o := f.b }], dest := destOf f.d 1 }
    let b := (gv (s.groupValues w) 1).toNat
    s.groupReady w = true →
    (b = 0 ∨ (b ≤ 16 ∧ s.grp.fw = true) → exec (.unlisted (.probe f kind)) s = .next (s.groupResult w f.d
      (s.probeWord s.curCore (if b = 0 then s.curVd else b - 1) (gv (s.groupValues w) 0)
        ([AccKind.load, .store, .fetch, .atomic].getD kind.val .load)))) ∧
    (16 < b → canTrap s .reservedField → exec (.unlisted (.probe f kind)) s = .next (afterTrap s { cause := .reservedField })) ∧
    (1 ≤ b → b ≤ 16 → s.grp.fw = false → canTrap s .privileged →
      exec (.unlisted (.probe f kind)) s = .next (afterTrap s { cause := .privileged }))) ∧
  (∀ (s : State) (core vd : Nat) (ea : W64) (k : AccKind),
    (∀ e at_ sz p, ea.toNat < sliceBase → s.translate core vd ea.toNat = .leaf e at_ sz → sz < 4 → s.check core vd ea 1 k = .ok p →
      let v := (s.probeWord core vd ea k).toNat
      v / 2 ^ 56 = 0 ∧ v / 2 ^ 16 % 2 ^ 40 = e.toNat / 2 ^ 16 % 2 ^ 40 ∧ v / 2 ^ 14 % 4 = e.toNat / 2 ^ 62 ∧ v / 2 ^ 12 % 4 = sz ∧
      v / 2 ^ 8 % 16 = e.toNat / 2 ^ 58 % 16 ∧ v % 2 = e.toNat % 2 ∧ v / 2 % 2 = 0 ∧
      (∀ i < 6, v.testBit (2 + i) = e.getLsbD (3 + i))) ∧
    (∀ key, sliceBase ≤ ea.toNat → s.check core vd ea 1 k = .ok (.slice key) → s.probeWord core vd ea k = 0x3000) ∧
    (2 ^ 56 ≤ ea.toNat → s.probeWord core vd ea k = BitVec.ofNat 64 ((Cause.code .pageNotPresent).toNat * 2 ^ 56)) ∧
    (∀ malf, ea.toNat < sliceBase → s.translate core vd ea.toNat = .missing malf →
      s.probeWord core vd ea k = BitVec.ofNat 64 ((Cause.code .pageNotPresent).toNat * 2 ^ 56 + if malf then 2 else 0)) ∧
    (∀ e at_ sz f, ea.toNat < sliceBase → s.translate core vd ea.toNat = .leaf e at_ sz → s.check core vd ea 1 k = .error f →
      (s.probeWord core vd ea k).toNat / 2 ^ 56 = f.cause.code.toNat ∧ (s.probeWord core vd ea k).toNat / 2 ^ 16 % 2 ^ 40 = 0)) ∧
  (∀ (f : GrpThree) (s : State),
    let w : GrpWord := { srcs := [{ o := f.a }], dest := destOf f.d 1 }
    let s1 := (s.take [f.a]).2
    let tag := (gv (s.groupValues w) 0).toNat % 2 ^ 16
    let ret := (s.vdev s.curVd).retired
    let was : Prop := tag ≠ 0 ∧ tag ∈ ret
    s.groupReady w = true →
    (¬ was → ∃ t, exec (.unlisted (.gentag f false 0)) s = .next t ∧ (t.group s.cur).gentag = BitVec.ofNat 16 tag ∧
      gives s t f.d (s.grp.gentag.zeroExtend 64) ∧ t.vdevs = s.vdevs ∧ t.mem = s.mem) ∧
    (was → canTrap s .generationRetired → exec (.unlisted (.gentag f false 0)) s = .next (afterTrap s { cause := .generationRetired })) ∧
    (tag ≠ 0 → s1.retireWaits s.curVd tag = false → ∃ t, exec (.unlisted (.gentag f false 1)) s = .next t ∧
      (∀ x, x ∈ (t.vdev s.curVd).retired ↔ x = tag ∨ x ∈ ret) ∧ (was → gives s t f.d 1) ∧ (¬ was → gives s t f.d 0)) ∧
    (tag ≠ 0 → ∃ t, exec (.unlisted (.gentag f false 2)) s = .next t ∧
      (∀ x, x ∈ (t.vdev s.curVd).retired ↔ x ≠ tag ∧ x ∈ ret) ∧ (was → gives s t f.d 1) ∧ (¬ was → gives s t f.d 0) ∧ t.mem = s.mem) ∧
    (∃ t, exec (.unlisted (.gentag f false 3)) s = .next t ∧ t.vdevs = s.vdevs ∧ (was → gives s t f.d 1) ∧ (¬ was → gives s t f.d 0)) ∧
    (tag = 0 → canTrap s .reservedField → exec (.unlisted (.gentag f false 1)) s = .next (afterTrap s { cause := .reservedField }) ∧
      exec (.unlisted (.gentag f false 2)) s = .next (afterTrap s { cause := .reservedField }))) ∧
  (∀ (f : GrpThree) (op : Fin 4) (s : State) (t : Target),
    let w : GrpWord := { srcs := [{ o := f.a }, { o := f.b }], dest := destOf f.d 1, counts := true }
    let s1 := (s.take [f.a, f.b]).2
    let tag := (gv (s.groupValues w) 0).toNat % 2 ^ 16
    s.groupReady w = true → s.grp.replyWait = none → s.contained = [] → (op = 1 ∨ op = 2) → tag ≠ 0 →
    s1.grpCheck (gv (s.groupValues w) 1) none { perm := 58, kinds := [0], size := 0, wr := true } = .ok t →
    s1.canSend s1.curVd 5 [t] = true →
    ∃ s2, exec (.unlisted (.gentag f true op)) s = .next s2 ∧ s2.mem = s.mem ∧ (s2.group s.cur).replyWait = some ([s.sends], 0) ∧
      (s2.group s.cur).waitWord = some (.unlisted (.gentag f true op)) ∧
      (let r := requestTo s t 5 0x18 op.val 2 0 (leBytes 2 tag)
       sends s s2 [(r.1, r.2.1, 0, r.2.2.2)]))

namespace Sys2Proof.Claims

/-! ## The table unit -/

/-- A sequencer word joins its core's queue, under the next number. -/
def queued (s : State) (q : SeqCmd) : SeqCmd := { q with id := s.fired, team := s.grp.team, group := s.cur }

/-- Nothing keeps a sequencer word from its queue: fewer than 8 wait there, and no remote access of the group is outstanding (10_table R175,
R179). -/
def sequencerFree (s : State) : Prop :=
  (s.core s.curCore).seqs.countP (fun q => !q.started) < 8 ∧ s.grp.posted = [] ∧ s.awaitsRemote s.cur = false

/-- TBLD and TBLD4 as they issue (R363): record, count and A block in order, the word joins the queue with its own copy of the record. -/
def BuildsTables (mk : Fin 8 → Opnd → Opnd → Instr) (k : SeqKind) (g4 : Bool) : Prop :=
  ∀ (t : Fin 8) (a b : Opnd) (s : State),
    let w := groupReads [a, b]
    let s1 := (s.take [a, b]).2
    let ga := gv (s.groupValues w) 0
    s.groupReady w = true → t.val < s.curTeam.nTiles →
    (∀ h rows trunc count key, s1.shapeAt (gv (s.groupValues w) 1) g4 (fun _ => ga.toNat) = .ok h → s1.rowsOf h = .ok (rows, trunc, count) →
      s1.aBlock s.curCore s.curVd ga.toNat (aBlockLen g4 h rows) = .ok key →
      (g4 = true ∨ h.sp = false ∨ bMant h.bfmt ≠ 3 ∨ (t.val % 2 = 0 ∧ t.val + 1 < s.curTeam.nTiles)) → sequencerFree s →
      let c := s.core s.curCore
      let q : SeqCmd :=
        { kind := k, tile := t.val, shape := h, addr := ga, rows := rows, trunc := trunc, count := count, word := some (mk t a b) }
      exec (mk t a b) s = .next ((s1.setCore s.curCore { c with seqs := c.seqs ++ [queued s q] }).performed s1.grp.advance)) ∧
    (∀ f, s1.shapeAt (gv (s.groupValues w) 1) g4 (fun _ => ga.toNat) = .error (.fault f) → canTrap s f.cause →
      exec (mk t a b) s = .next (afterTrap s f))

/-- MLOOP, MLOOP4 and MSTEP as they issue (R367, R368): the word joins the queue, its steps are counted, and in accumulate mode it holds its
accumulator, an EMPTY one becoming zero. -/
def StartsSequence (i : Instr) (f : GrpLoop) (k : SeqKind) (g4 : Bool) : Prop :=
  ∀ (s : State) (h : Shape) (rows count : Nat) (trunc : Bool),
    let w := groupReads [f.b]
    let s1 := (s.take [f.b]).2
    let t := s.curTeam
    let at_ : Int := h.abase.toNat + h.s0 * h.astep.toInt
    let per := if !g4 && h.sp && bMant h.bfmt == 3 then 2 else 1
    let n := if k.loops then h.ks - h.s0 else 1
    let a := t.accs.get f.acc.val {}
    s.groupReady w = true → f.t.val < t.nTiles → f.acc.val < t.nAccs →
    s1.shapeAt (gv (s.groupValues w) 0) g4 (fun h => h.abase.toNat + h.s0 * h.astep.toInt) = .ok h → s1.rowsOf h = .ok (rows, trunc, count) →
    (k.loops = true → f.t.val % (2 * per) = 0 ∧ f.t.val + per * (if h.s0 + 1 < h.ks then 1 else h.s0 % 2) + per - 1 < t.nTiles ∧
      ∃ key, s1.aBlock s.curCore s.curVd at_ (aBlockLen g4 h rows) = .ok key) →
    (f.pm = true → f.acc.val + h.ns < t.nAccs) → (f.pm = false → a.hold = none ∧ s1.pipeNames s.curCore s.grp.team f.acc.val = false) →
    t.steps + n ≤ 65535 → sequencerFree s → s1.dirtyClaimed s.curCore = false →
    ∃ s2 q, exec i s = .next s2 ∧ (s2.core s.curCore).seqs = (s.core s.curCore).seqs ++ [queued s q] ∧
      q.kind = k ∧ q.tile = f.t.val ∧ q.acc = f.acc.val ∧ q.cb = f.cb.val ∧ q.pm = f.pm ∧ q.g4 = g4 ∧ q.shape = h ∧ q.rows = rows ∧
      q.trunc = trunc ∧ q.count = count ∧ q.step = h.s0 ∧ q.started = false ∧ q.built = false ∧
      (s2.team s.grp.team).steps = t.steps + n ∧
      (s2.team s.grp.team).accs = (if f.pm then t.accs else t.accs.set f.acc.val
        { vals := if a.full then a.vals else [], full := true, hold := some s.fired }) ∧
      s2.groups = (s1.performed s1.grp.advance).groups

/-- The record in a slice (R168 to R170): its reserved fields, then the count word, which is clamped, or with STRICT raises SHAPE_TRUNCATED. -/
def ReadsRecords : Prop :=
  (∀ (s : State) (a : W64) (g4 : Bool) (block : Shape → Int) (k : Nat), a.toNat % 64 = 0 → s.inOneSlice s.curCore s.curVd a.toNat 64 = some k →
    s.claimed k 64 = false → s.poisoned k 64 = false →
    let w := fun i => s.load64 (k + 8 * i)
    let h := shapeOf w
    (shapeFieldsOk w g4 = false → s.shapeAt a g4 block = .error (.fault { cause := .reservedField })) ∧
    (shapeFieldsOk w g4 = true → s.blockWide (block h) (aBlockLen g4 h h.mb) = true →
      s.shapeAt a g4 block = .error (.fault { cause := .reservedField })) ∧
    (shapeFieldsOk w g4 = true → s.blockWide (block h) (aBlockLen g4 h h.mb) = false → h.rcp = 0 → s.shapeAt a g4 block = .ok h)) ∧
  (∀ (s : State) (a : W64) (g4 : Bool) (block : Shape → Int), a.toNat % 64 ≠ 0 →
    s.shapeAt a g4 block = .error (.fault { cause := .misaligned, addr := a })) ∧
  (∀ w : Nat → W64,
    let h := shapeOf w
    h.abase = w 0 ∧ h.bbase = w 1 ∧ h.astep.toNat = (w 2).toNat % 2 ^ 32 ∧ h.bstep.toNat = (w 2).toNat / 2 ^ 32 ∧
    h.ars.toNat = (w 3).toNat % 2 ^ 32 ∧ h.rcp = w 4 ∧ h.ks = (w 5).toNat / 2 ^ 48 ∧ h.s0 = (w 5).toNat / 2 ^ 32 % 2 ^ 16 ∧
    h.ne = (w 5).toNat / 2 ^ 24 % 2 ^ 8 ∧ h.ns = (w 5).toNat / 2 ^ 21 % 2 ^ 3 ∧ h.strict = (w 5).getLsbD 20 ∧ h.sp = (w 5).getLsbD 19 ∧
    h.kind = (w 5).getLsbD 18 ∧ h.p = (w 5).toNat / 2 ^ 15 % 2 ^ 3 + 1 ∧ h.mb = (w 5).toNat / 2 ^ 8 % 2 ^ 4 + 1 ∧
    h.bfmt = (w 5).toNat / 2 ^ 4 % 2 ^ 4 ∧ h.afmt = (w 5).toNat % 2 ^ 4) ∧
  (∀ (s : State) (h : Shape), h.rcp = 0 → s.rowsOf h = .ok (h.mb, false, h.mb)) ∧
  (∀ (s : State) (h : Shape) (k : Nat), h.rcp ≠ 0 → h.rcp.toNat % 4 = 0 → s.inOneSlice s.curCore s.curVd h.rcp.toNat 4 = some k →
    s.claimed k 4 = false → s.poisoned k 4 = false →
    let n := (s.load32 k).toNat
    (n ≤ h.mb → s.rowsOf h = .ok (n, false, n)) ∧
    (h.mb < n → h.strict = true → s.rowsOf h = .error (.fault { cause := .shapeTruncated, addr := h.rcp })) ∧
    (h.mb < n → h.strict = false → s.rowsOf h = .ok (h.mb, true, n)))

/-- Every row of `n` bytes of an accumulator's rows lies in a slice at `key + r * step`. -/
def rowsReach (s : State) (a b : W64) (k : AccKind) (n key step : Nat) : Prop :=
  a.toNat % 16 = 0 ∧ b.toNat % 16 = 0 ∧ n ≤ step ∧
    ∀ r < 16, ∀ i < n / 16, reachesSlice s (a + BitVec.ofNat 64 r * b + BitVec.ofNat 64 (16 * i)) 16 k (key + r * step + 16 * i)

/-- No word of the accumulator pipe stands before the executing group's. -/
def pipeFree (s : State) : Prop := (s.pipe s.curCore).takeWhile (fun k => k != s.cur) = []

/-- Element `c` of row `r` of an accumulator of the executing group's team. -/
def accAt (s : State) (n r c : Nat) : W32 := ((s.team s.grp.team).accs.get n {}).vals.get (128 * r + c) 0

/-- A word that stores an accumulator, `n` bytes an element converted by `f` (R371). -/
def StoresAccumulator (i : Instr) (d : Fin 16) (a b : Opnd) (te : Bool) (n : Nat) (f : W32 → Nat) : Prop :=
  ∀ (s : State) (key step : Nat),
    let w := groupReads [a, b]
    let x := s.curTeam.accs.get d.val {}
    s.groupReady w = true → d.val < s.curTeam.nAccs → noBuffers s → Memory.wf s.mem = true →
    rowsReach s (gv (s.groupValues w) 0) (gv (s.groupValues w) 1) .store (128 * n) key step → pipeFree s → x.hold = none →
    (x.full = true → ∃ t, exec i s = .next t ∧ (∀ r < 16, ∀ c < 128, t.loadLe (key + r * step + n * c) n = f (accAt s d.val r c)) ∧
      (∀ y, (∀ r < 16, y < key + r * step ∨ key + r * step + 128 * n ≤ y) → Memory.get t.mem y = Memory.get s.mem y) ∧
      t.groups = (afterGroup s w (fun g _ => g.advance)).groups) ∧
    (x.full = false → te = true → canTrap s .emptyRead → exec i s = .next (afterTrap s { cause := .emptyRead })) ∧
    (x.full = false → te = false → s.grp.inPipe = false → ∃ t, exec i s = .next t ∧ waitsAt s t i ∧ (t.group s.cur).inPipe = true ∧
      t.mem = s.mem ∧ (t.core s.curCore).accPipe = (s.core s.curCore).accPipe.filter (· != s.cur) ++ [s.cur])

/-- The words of the accumulator pipe that read memory: SCACC adds a slot scaled by E8M0 codes of rows and columns (R369), ALDA loads 16 rows
of 128 words (R370). -/
def LoadsAccumulators : Prop :=
  (∀ (d x : Fin 16) (b : Opnd) (te : Bool) (s : State) (key : Nat),
    let i := Instr.unlisted (.scacc d x b te)
    let w := groupReads [b]
    let slot := s.curTeam.accs.get x.val {}
    let run := s.curTeam.accs.get d.val {}
    s.groupReady w = true → d ≠ x → d.val < s.curTeam.nAccs → x.val < s.curTeam.nAccs → (gv (s.groupValues w) 0).toNat % 16 = 0 →
    (∀ j < 9, reachesSlice s (gv (s.groupValues w) 0 + BitVec.ofNat 64 (16 * j)) 16 .load (key + 16 * j)) → pipeFree s →
    slot.hold = none → run.hold = none →
    (slot.full = true → ∃ t, exec i s = .next t ∧ t.mem = s.mem ∧
      (∀ r < 16, ∀ c < 128,
        let er := (Memory.get s.mem (key + r)).toNat
        let ec := (Memory.get s.mem (key + 16 + c)).toNat
        accAt t d.val r c = if er = 255 ∨ ec = 255 then 0x7FC00000 else
          (roundFp32 .rn ((fp32 (if run.full then accAt s d.val r c else 0)).add .rn
            ((fp32 (accAt s x.val r c)).scale ((er : Int) - 127 + ((ec : Int) - 127)))).1).1) ∧
      ((t.team s.grp.team).accs.get d.val {}).full = true ∧ ((t.team s.grp.team).accs.get x.val {}).full = false ∧
      (∀ n, n ≠ d.val → n ≠ x.val → (t.team s.grp.team).accs.get n {} = s.curTeam.accs.get n {}) ∧
      t.groups = (afterGroup s w (fun g _ => g.advance)).groups) ∧
    (slot.full = false → te = true → canTrap s .emptyRead → exec i s = .next (afterTrap s { cause := .emptyRead }))) ∧
  (∀ (d : Fin 16) (a b : Opnd) (s : State) (key step : Nat),
    let w := groupReads [a, b]
    s.groupReady w = true → d.val < s.curTeam.nAccs →
    rowsReach s (gv (s.groupValues w) 0) (gv (s.groupValues w) 1) .load 512 key step → pipeFree s →
    (s.curTeam.accs.get d.val {}).hold = none →
    ∃ t, exec (.unlisted (.alda d a b)) s = .next t ∧ t.mem = s.mem ∧
      (∀ r < 16, ∀ c < 128, accAt t d.val r c = s.load32 (key + r * step + 4 * c)) ∧
      ((t.team s.grp.team).accs.get d.val {}).full = true ∧ t.groups = (afterGroup s w (fun g _ => g.advance)).groups)

/-- The core's sequencer has this word first, and its team is not being saved. -/
def heads (s : State) (core : Nat) (q : SeqCmd) : Prop := (∃ rest, (s.core core).seqs = q :: rest) ∧ (s.team q.team).phase ≠ .saving

/-- The word has left the sequencer. -/
def popped (s t : State) (core : Nat) : Prop := (t.core core).seqs = (s.core core).seqs.tail

/-- What the sequencer does with a TBLD: it reads the rows, arms the monitor and then settles, VALID where no write has hit the extent (R363,
R172); entry `j` of element `k` of row `r` is the FP32 code of half the element times 1 + j / 2^m (R167). -/
def BuildsInTwo : Prop :=
  ∀ (s : State) (core key : Nat) (q : SeqCmd), heads s core q → q.kind = .tbld → q.started = false → q.pair = false → q.rows ≤ 16 →
    s.aBlock core (s.team q.team).vd q.addr.toNat (aBlockLen false q.shape q.rows) = .ok key →
    s.claimed key (aBlockLen false q.shape q.rows) = false → s.badRow key (q.template q.addr) = none →
    let n := if q.shape.sp then 64 else 32
    let m := bMant q.shape.bfmt
    let t := s.seqStep core
    let u := t.seqStep core
    let tile := (u.team q.team).tile q.tile
    ((t.team q.team).tile q.tile).state = .building ∧ tile.state = .valid ∧ tile.src = q.addr ∧ tile.rows = q.rows ∧ tile.mode = 0 ∧
    tile.ars = q.shape.ars ∧ tile.afmt = q.shape.afmt ∧ tile.bfmt = q.shape.bfmt ∧ tile.sp = q.shape.sp ∧ popped s u core ∧ u.mem = s.mem ∧
    (n * 2 ^ m * q.rows ≤ 4096 → ∀ r < q.rows, ∀ k < n, ∀ j < 2 ^ m,
      tile.entries.get ((r * n + k) * 2 ^ m + j) 0 = (roundFp32 .rn (((aElement q.shape.afmt
        (s.bytes (key + r * q.shape.ars.toNat) (aRowBytes q.shape.afmt n)) k).mul (.fin false (2 ^ m + j) (-(m : Int)))).1.scale (-1))).1)

/-- What the sequencer does with TINV, TSPL and TFIL (R365, R366). -/
def MovesTiles : Prop :=
  (∀ (s : State) (core : Nat) (q : SeqCmd), heads s core q → q.kind = .tinv →
    ((s.seqStep core).team q.team).tile q.tile = { (s.team q.team).tile q.tile with state := .empty, cause := 0, hit := false } ∧
    popped s (s.seqStep core) core ∧ (s.seqStep core).mem = s.mem) ∧
  (∀ (s : State) (core key : Nat) (q : SeqCmd), heads s core q → q.kind = .tspl → noBuffers s → Memory.wf s.mem = true →
    s.inOneSlice core (s.team q.team).vd q.addr.toNat 16448 = some key → s.claimed key 16448 = false →
    let x := (s.team q.team).tile q.tile
    let t := s.seqStep core
    (∀ i < 8, t.load64 (key + 8 * i) = x.words.getD i 0) ∧
    (∀ e < 4096, t.load32 (key + 64 + 4 * e) = if x.state = .valid then x.entries.get e 0 else 0) ∧
    (∀ y, y < key ∨ key + 16448 ≤ y → Memory.get t.mem y = Memory.get s.mem y) ∧ popped s t core) ∧
  (∀ (s : State) (core key : Nat) (q : SeqCmd), heads s core q → q.kind = .tfil →
    s.inOneSlice core (s.team q.team).vd q.addr.toNat 16448 = some key → s.claimed key 16448 = false → s.poisoned key 16448 = false →
    let w := fun i => s.load64 (key + 8 * i)
    let t := s.seqStep core
    let x := (t.team q.team).tile q.tile
    popped s t core ∧ t.mem = s.mem ∧
    (descriptorOk w = false → x.state = .faulted ∧ x.cause = Cause.code .reservedField) ∧
    (descriptorOk w = true → (∀ e < 4096, x.entries.get e 0 = s.load32 (key + 64 + 4 * e)) ∧ x.src = w 0 ∧
      x.rows = (w 2).toNat / 2 ^ 43 % 2 ^ 5 ∧
      (s.gensCurrent core (tileOf w) = true → x.state = (tileOf w).state) ∧
      (s.gensCurrent core (tileOf w) = false → x.state = if (tileOf w).state = .valid then .stale else (tileOf w).state)))

/-- A step whose table is VALID and fits reads B and writes its sums (R166, R173, R368); an MSTEP on another table ends in error, with one
arrival and its step taken off the counter (R178, R180). -/
def RunsSteps : Prop :=
  (∀ (s : State) (core : Nat) (q : SeqCmd) (bs : List Byte), heads s core q → q.kind = .mstep → q.started = true → q.sums = none → q.rows ≠ 0 →
    q.step = q.shape.s0 → q.trunc = false → (∀ a ∈ (s.team q.team).accs, a.2.hold = none ∨ a.2.hold = some q.id) →
    let tm := s.team q.team
    let x := tm.tile q.tile
    let n := bBlockSize q.g4 q.shape.kind q.shape.sp q.shape.bfmt q.shape.p
    let sums := stepSums q.g4 q.shape.kind q.shape.sp q.shape.bfmt q.shape.p q.shape.ne bs (tm.tableRows q.tile q.rows)
    let u := s.seqStep core
    x.state = .valid → x.isPair = false → x.trunc = false → q.rows ≤ x.rows → (x.mode = 0 ↔ q.g4 = false) →
    (q.g4 = false → bMant x.bfmt = bMant q.shape.bfmt ∧ x.sp = q.shape.sp ∧ x.hi = false) → (q.g4 = true → (x.mode = 1 ↔ q.shape.kind = true)) →
    s.readBlock core tm.vd q.bAddr n = some (.ok bs) → s.teams.find q.team = some tm → q.pm = false →
    popped s u core ∧ ((sliceBase : Int) ≤ q.bAddr → u.mem = s.mem) ∧ (u.team q.team).steps = tm.steps - 1 ∧
    (u.team q.team).cb q.cb = (tm.cb q.cb).arrive 1 none ∧
    (let a := tm.accs.get q.acc {}
     let b := (u.team q.team).accs.get q.acc {}
     b.full = true ∧ ((a.hold = some q.id ∨ a.hold = none) → b.hold = none) ∧
     ∀ r < 16, ∀ c < 128, b.vals.get (128 * r + c) 0 =
      match (sums.getD r [])[c]? with
      | none => a.vals.get (128 * r + c) 0
      | some v => (roundFp32 .rn ((fp32 (a.vals.get (128 * r + c) 0)).add .rn v).1).1)) ∧
  (∀ (s : State) (core : Nat) (q : SeqCmd) (tm : Team), heads s core q → q.kind = .mstep → q.started = true → q.sums = none → q.rows ≠ 0 →
    q.step = q.shape.s0 → s.teams.find q.team = some tm →
    let x := tm.tile q.tile
    let u := s.seqStep core
    ∀ e : ArrErr,
    (((x.state = .empty ∨ x.state = .stale) ∧ e = { cause := Cause.code .tableStale, addr := x.src.truncate 56, idx := q.step }) ∨
      (x.state = .faulted ∧ e = { cause := x.cause, addr := x.src.truncate 56, idx := q.step }) ∨
      (x.state = .valid ∧ x.rows < q.rows ∧ e = { cause := Cause.code .tableIndex, addr := x.src.truncate 56, idx := q.step })) →
    popped s u core ∧ u.mem = s.mem ∧ (u.team q.team).steps = tm.steps - 1 ∧
    (u.team q.team).cb q.cb = (tm.cb q.cb).arrive 1 (some e) ∧
    (∀ n, ((u.team q.team).accs.get n {}).vals = (tm.accs.get n {}).vals))

/-- The exact sum of a dense G1 step (R163, R164, R166): over the 32 codes of a column, whose bit `i` lies in plane row `32 i + k`, the product
of the code's value and the activation, which the table's entries stand for. -/
def SumsProducts : Prop :=
  (∀ (bfmt p ne : Nat) (bs : List Byte) (rows : List (List W32)) (r c : Nat), bfmt ≤ 5 → ne ≤ 128 → bs.length = bPlanes bfmt * 512 →
    r < rows.length → c < ne →
    ∃ code : Nat → Nat, (∀ k < 32, code k < 2 ^ bPlanes bfmt ∧ ∀ i < bPlanes bfmt,
        (code k).testBit i = (bs.getD ((32 * i + k) * 16 + c / 8) 0).getLsbD (c % 8)) ∧
      ((stepSums false false false bfmt p ne bs rows).getD r [])[c]? = some (sumExt ((List.range 32).map (fun k =>
        g1Term bfmt (code k) (fun j => (fp32 ((rows.getD r []).getD (k * 2 ^ bMant bfmt + j) 0)).scale 1))))) ∧
  (∀ (bfmt code : Nat) (n : Bool) (m : Nat) (e : Int) (nc : Bool) (mc : Nat) (ec : Int), bfmt ≤ 4 → code < 2 ^ bPlanes bfmt →
    exact (bFmt bfmt) code = .fin nc mc ec →
    let t := fun j => ((Ext.fin n m e).mul (.fin false (2 ^ bMant bfmt + j) (-(bMant bfmt : Int)))).1
    ∃ v k, standsFor (g1Term bfmt code t) v k ∧ standsFor ((Ext.fin nc mc ec).mul (.fin n m e)).1 v k) ∧
  (∀ (bfmt code : Nat) (t : Nat → Ext), bfmt ≤ 4 → code % 2 ^ ((bFmt bfmt).bits - 1) = 0 → g1Term bfmt code t = .fin false 0 0) ∧
  (∀ (code : Nat) (n : Bool) (m : Nat) (e : Int) (t : Nat → Ext), t 0 = .fin n m e →
    ∃ v k, standsFor (g1Term 5 code t) v k ∧ standsFor ((ds8Exact code).mul (.fin n m e)).1 v k) ∧
  sumExt [] = .fin false 0 0 ∧ (∀ x, sumExt [x] = x) ∧
  (∀ (l : List Ext) (x : Ext), l ≠ [] → sumExt (l ++ [x]) = ((sumExt l).add .rn x).1) ∧
  (∀ (a : Nat → Ext) (g i : Nat), g < 32 → i < 8 →
    (sgnRow a)[8 * g + i]? = some (roundFp32 .rn ((sumExt ((List.range 3).map (fun q =>
      if i.testBit q then a (4 * g + q) else (a (4 * g + q)).neg) ++ [a (4 * g + 3)])).scale (-1))).1) ∧
  (∀ (a : Nat → Ext) (g i : Nat), g < 16 → i < 16 →
    (subRow a)[16 * g + i]? = some (roundFp32 .rn ((sumExt (((List.range 4).filter (fun q => i.testBit q)).map (fun q =>
      a (4 * g + q)))).scale (-1))).1) ∧
  (∀ (n p : Nat) (e : Nat → Ext) (i : Nat), i < 16 → ∃ x, g4Term true n p i e = x.scale p ∧ g4Term true n p (15 - i) e = x.neg.scale p ∧
    (8 ≤ i → x = e (i - 8)))

end Sys2Proof.Claims

open Sys2Proof Sys2Proof.Machine Sys2Proof.Claims

/-- The table unit's words as they issue: TBLD, TBLD4, MLOOP, MLOOP4, MSTEP, TSPL, TFIL, TCHK and MSTAT (10_table R168 to R170, R175 to R179,
R363 to R368, R372). -/
def Sys2Proof.Claims.TableWords : Prop :=
  ReadsRecords ∧ BuildsTables (fun t a b => .unlisted (.tbld t a b)) .tbld false ∧ BuildsTables (fun t a b => .unlisted (.tbld4 t a b)) .tbld4 true ∧
  (∀ f, StartsSequence (.unlisted (.mloop f)) f .mloop false) ∧ (∀ f, StartsSequence (.unlisted (.mloop4 f)) f .mloop4 true) ∧
  (∀ f, StartsSequence (.unlisted (.mstep f)) f .mstep f.g4) ∧
  (∀ (t : Fin 8) (a : Opnd) (k : SeqKind) (mk : Fin 8 → Opnd → Instr) (s : State),
    (k = .tspl ∧ mk = (fun t a => .unlisted (.tspl t a))) ∨ (k = .tfil ∧ mk = (fun t a => .unlisted (.tfil t a))) →
    let w := groupReads [a]
    let s1 := (s.take [a]).2
    let at_ := gv (s.groupValues w) 0
    let c := s.core s.curCore
    s.groupReady w = true → t.val < s.curTeam.nTiles →
    (at_.toNat % 64 = 0 → (s.inOneSlice s.curCore s.curVd at_.toNat 16448).isSome = true → c.seqs.countP (fun q => !q.started) < 8 →
      exec (mk t a) s = .next ((s1.setCore s.curCore { c with
        seqs := c.seqs ++ [queued s { kind := k, tile := t.val, addr := at_, word := some (mk t a) }] }).performed s1.grp.advance)) ∧
    (at_.toNat % 64 ≠ 0 → canTrap s .misaligned →
      exec (mk t a) s = .next (afterTrap s { cause := .misaligned, addr := at_, wr := k == .tspl }))) ∧
  (∀ (c : Fin 4) (t : Fin 8) (s : State),
    let x := s.curTeam.tile t.val
    s.groupReady {} = true → t.val < s.curTeam.nTiles → s.grp.replyWait = none →
    (∀ q ∈ (s.core s.curCore).seqs, q.team = s.grp.team → q.names t.val = false) →
    exec (.unlisted (.tchk c t)) s = .next (s.performed ((s.grp.setCond c
      (decide (x.state = .valid) || (decide (x.state = .rebuild) && (s.rebuildKey s.curCore s.curVd x).isSome))).advance))) ∧
  (∀ (d : Opnd) (sel : Fin 4) (s : State),
    let w : GrpWord := { dest := destOf d 1 }
    s.groupReady w = true → sel ≠ 3 →
    exec (.unlisted (.mstat d sel false)) s = .next (s.groupResult w d (s.tableStatus s.grp.team sel.val))) ∧
  (∀ (n : Fin 56) (sel : Fin 4) (s : State),
    let w : GrpWord := { dest := destOf (.reg n) 1, counts := true }
    s.groupReady w = true → sel ≠ 3 → s.grp.waits.length < 7 →
    exec (.unlisted (.mstat (.reg n) sel true)) s = .next (s.performed ({ s.grp.setState n.val .pending with
      waits := s.grp.waits ++ [(n.val, .mstat sel.val ((s.teamSeqs s.grp.team).map (·.id)))] } : Group).advance)) ∧
  (∀ (d : Opnd) (wt : Bool) (s : State), s.inOrder = true → s.grp.issuePc ≠ none → canTrap s .reservedField →
    exec (.unlisted (.mstat d 3 wt)) s = .next (afterTrap s { cause := .reservedField })) ∧
  (∀ (s : State) (team : Nat),
    let t := s.team team
    (∀ n < 8, (s.tableStatus team 2).toNat / 16 ^ n % 16 = match (t.tile n).state with
      | .empty => 0
      | .valid => 1
      | .stale => 2
      | .rebuild => 3
      | .faulted => 4
      | .building => 5) ∧
    (t.nAccs ≤ 16 → ∀ n < 16, (s.tableStatus team 1).getLsbD n = (decide (n < t.nAccs) && (t.accs.get n {}).full)) ∧
    (t.nAccs ≤ 16 → t.steps < 2 ^ 16 → (s.tableStatus team 0).toNat / 2 ^ 48 = t.steps ∧
      ∀ n < 16, (s.tableStatus team 0).getLsbD n = (decide (n < t.nAccs) && (t.accs.get n {}).hold.isSome)))

/-- What the sequencer and the accumulator pipe do (10_table R163 to R167, R172 to R174, R178, R180, R363 to R371). -/
def Sys2Proof.Claims.TableSteps : Prop :=
  BuildsInTwo ∧ MovesTiles ∧ RunsSteps ∧ SumsProducts ∧ LoadsAccumulators ∧
  (∀ (d : Fin 16) (a b : Opnd) (te : Bool), StoresAccumulator (.unlisted (.asto d a b te)) d a b te 4 (fun w => w.toNat)) ∧
  (∀ (d : Fin 16) (a b : Opnd) (fmt : Fin 4) (sat te : Bool),
    let f := [Fmt.bf16, .fp16, .e4m3, .e5m2].getD fmt.val .bf16
    StoresAccumulator (.unlisted (.acvt d a b fmt sat te)) d a b te (f.bits / 8) (fun w => (f.encode .rn sat (fp32 w)).1))

namespace Sys2Proof.Claims

/-! ## Combine buffers -/

/-- A combine word finds a live buffer at its base: V is 1, no claim covers it, and no deadline of it has passed (16_experts R274, R280). -/
def findsBuffer (s : State) (base : W64) (n : Nat) (b : CmbBuf) : Prop :=
  let g := s.seg s.curVd n
  s.segAtBase s.curVd base = some n ∧ g.buffer = true ∧ g.cluster = false ∧ (s.load64 g.base).getLsbD 63 = true ∧
    b = s.cmbAt s.curVd g ∧ s.claimed g.base 64 = false ∧ s.bufferClaimed b = false ∧ s.expired b = [] ∧ Memory.wf s.mem = true

/-- The executing group's generation tag is retired (R272). -/
def tagDead (s : State) : Prop := s.grp.gentag ≠ 0 ∧ s.grp.gentag.toNat ∈ (s.vdev s.curVd).retired

/-- No slot of the buffer but one waits for its release. -/
def noneDoneBut (s : State) (b : CmbBuf) (i : Nat) : Prop := ∀ j < b.nslot, j ≠ i → s.slotState b j ≠ 2

/-- A 16-bit counter after one more event, held at 0xFFFF. -/
def heldUp (n : Nat) : Nat := min (n + 1) 0xFFFF

/-- OPENCNT and NEXTTOK. -/
def openCount (s : State) (b : CmbBuf) : Nat := (s.load64 (b.base + 0x30)).toNat / 2 ^ 24 % 2 ^ 13
/-- NEXTTOK. -/
def nextToken (s : State) (b : CmbBuf) : Nat := (s.load64 (b.base + 0x30)).toNat % 2 ^ 24
/-- A counter of header word 5, at a bit. -/
def counterAt (s : State) (b : CmbBuf) (k : Nat) : Nat := (s.load64 (b.base + 0x28)).toNat / 2 ^ k % 2 ^ 16

/-- A range of bytes lies within one slice, where the address is no alias's or device's, and no claim or uncorrectable granule is in the way
of an access beside core `core`. -/
def rangeReaches (s : State) (core vd : Nat) (k : AccKind) (a n key : Nat) : Prop :=
  sliceBase ≤ a ∧ rangeOf (s.corePlace core vd k) a n = .ok [(key, n)] ∧ isSliceKey key = true ∧ s.claimed key n = false ∧
    s.poisoned key n = false

/-- The fields of a buffer's header, and where its parts lie (R274, R275). -/
def HeaderLies : Prop :=
  ∀ (vd core base : Nat) (w : Nat → W64),
    let b := cmbOf vd core base w
    b.inOrder = (w 0).getLsbD 25 ∧ b.renorm = (w 0).getLsbD 24 ∧ b.bf16Out = (w 0).getLsbD 23 ∧ b.bf16In = (w 0).getLsbD 22 ∧
    b.rlen = 64 * ((w 0).toNat / 2 ^ 15 % 2 ^ 7 + 1) ∧ b.kmax = (w 0).toNat / 2 ^ 12 % 2 ^ 3 + 1 ∧ b.nslot = (w 0).toNat % 2 ^ 12 + 1 ∧
    b.tmo = (w 1).toNat % 2 ^ 32 ∧ b.out = w 2 ∧ b.ostride = (w 3).toNat % 2 ^ 32 ∧ b.sig = w 4 ∧
    (∀ i, b.slotKey i = base + 64 + 64 * i) ∧ (∀ i j, b.rowKey i j = base + 64 * (b.nslot + 1) + (i * b.kmax + j) * b.rlen) ∧
    bufferBytes (w 0) = 64 * (b.nslot + 1) + b.nslot * b.kmax * b.rlen

/-- The fields of a slot's header (R276). -/
def SlotLies : Prop :=
  ∀ (s : State) (b : CmbBuf) (i : Nat),
    let w := fun n => s.load64 (b.base + 64 + 64 * i + 8 * n)
    (∀ n, s.slotWord b i n = w n) ∧ s.slotTag b i = (w 0).toNat / 2 ^ 48 ∧ s.slotState b i = (w 0).toNat / 2 ^ 36 % 16 ∧
    s.slotNk b i = (w 0).toNat / 2 ^ 32 % 16 ∧ s.slotToken b i = (w 0).toNat % 2 ^ 24 ∧ (∀ j < 8, s.slotArr b i j = (w 0).getLsbD (40 + j)) ∧
    (∀ j < 4, s.slotExpert b i j = (w 2).toNat / 2 ^ (16 * j) % 2 ^ 16 ∧ s.slotExpert b i (4 + j) = (w 3).toNat / 2 ^ (16 * j) % 2 ^ 16) ∧
    (∀ j < 8, s.slotWeight b i j = s.load32 (b.base + 64 + 64 * i + 0x20 + 4 * j))

/-- A combine word at a base that no live segment has raises ATTACH_MISS, and at one whose header has V = 0 RESERVED_FIELD (R280). -/
def NeedsBuffer (i : Instr) (w : GrpWord) (k : Nat) : Prop :=
  ∀ s : State, s.groupReady w = true →
    let base := gv (s.groupValues w) k
    (s.segAtBase s.curVd base = none → canTrap s .attachMiss → exec i s = .next (afterTrap s { cause := .attachMiss, addr := base })) ∧
    (∀ n, s.segAtBase s.curVd base = some n → s.claimed (s.seg s.curVd n).base 64 = false →
      (s.load64 (s.seg s.curVd n).base).getLsbD 63 = false → canTrap s .reservedField →
      exec i s = .next (afterTrap s { cause := .reservedField }))

/-- CMBCFG (R381): it needs the write attach and a CORE layout; a descriptor in order makes an idle buffer's header, resolved to the issuing
core's slice, its counters and slot headers 0; a buffer with open slots is left as it is. -/
def ConfiguresBuffers : Prop :=
  ∀ (f : GrpThree) (s : State),
    let i := Instr.unlisted (.cmbcfg f)
    let w : GrpWord := { srcs := [{ o := f.a }, { o := f.b }], dest := destOf f.d 1 }
    let v := gv (s.groupValues w)
    let here := fun a : W64 => if aliasBase ≤ a.toNat ∧ a.toNat < aliasBase + Config.sliceBytes
      then BitVec.ofNat 64 (sliceKey s.curCore (a.toNat - aliasBase)) else a
    s.groupReady w = true →
    (s.segAtBase s.curVd (v 1) = none → canTrap s .attachMiss → exec i s = .next (afterTrap s { cause := .attachMiss, addr := v 1 })) ∧
    (∀ n, s.segAtBase s.curVd (v 1) = some n →
      let g := s.seg s.curVd n
      (g.writer ≠ some s.grp.team → canTrap s .attachMiss → exec i s = .next (afterTrap s { cause := .attachMiss, addr := v 1 })) ∧
      (g.writer = some s.grp.team → g.cluster = true → canTrap s .reservedField →
        exec i s = .next (afterTrap s { cause := .reservedField })) ∧
      (∀ key, g.writer = some s.grp.team → g.cluster = false → reachesSlice s (v 0) 64 .load key →
        let d := fun k => s.load64 (key + 8 * k)
        let bytes := bufferBytes (d 0)
        let bad := (d 0).toNat / 2 ^ 26 ≠ 0 ∨ (d 1).toNat / 2 ^ 32 ≠ 0 ∨ (d 3).toNat / 2 ^ 32 ≠ 0 ∨ d 5 ≠ 0 ∨ d 6 ≠ 0 ∨ d 7 ≠ 0 ∨
          g.ng * 65536 < bytes
        (bad → canTrap s .reservedField → exec i s = .next (afterTrap s { cause := .reservedField })) ∧
        (¬ bad → (here (d 2)).toNat % 16 ≠ 0 → canTrap s .misaligned →
          exec i s = .next (afterTrap s { cause := .misaligned, addr := here (d 2) })) ∧
        (¬ bad → (here (d 2)).toNat % 16 = 0 → (d 3).toNat % 16 = 0 → (here (d 4)).toNat % 16 = 0 →
          s.claimed g.base (max bytes (bufferBytes (s.load64 g.base))) = false → s.expired (s.cmbAt s.curVd g) = [] →
          let b := s.cmbAt s.curVd g
          (g.buffer = true → openCount s b ≠ 0 → exec i s = .next (s.groupResult w f.d 1)) ∧
          ((g.buffer = false ∨ openCount s b = 0) → Memory.wf s.mem = true →
            ∃ t, exec i s = .next t ∧ gives s t f.d 0 ∧ (t.seg s.curVd n).buffer = true ∧
              t.load64 g.base = d 0 ||| BitVec.ofNat 64 (2 ^ 63) ∧ t.load64 (g.base + 8) = d 1 ∧ t.load64 (g.base + 16) = here (d 2) ∧
              t.load64 (g.base + 24) = d 3 ∧ t.load64 (g.base + 32) = here (d 4) ∧
              (∀ x, 40 ≤ x → x < 64 * ((d 0).toNat % 2 ^ 12 + 2) → Memory.get t.mem (g.base + x) = 0) ∧
              (∀ x, x < g.base ∨ g.base + 64 * ((d 0).toNat % 2 ^ 12 + 2) ≤ x → Memory.get t.mem x = Memory.get s.mem x)))))

/-- CMBOPEN (R382): a retired tag, a record out of order, a slot that is not FREE; else the slot is OPEN under the group's tag, nothing has
arrived, its deadline runs, and gd is its number. -/
def OpensSlots : Prop :=
  ∀ (f : GrpThree) (strict : Bool) (s : State) (n : Nat) (b : CmbBuf) (key : Nat),
    let i := Instr.unlisted (.cmbopen f strict)
    let w : GrpWord := { srcs := [{ o := f.a }, { o := f.b }], dest := destOf f.d 1 }
    let v := gv (s.groupValues w)
    let r := fun k => s.load64 (key + 8 * k)
    let nk := (r 0).toNat / 2 ^ 32 % 16
    let eidx := fun j => (r (2 + j / 4)).toNat / 2 ^ (16 * (j % 4)) % 2 ^ 16
    let wt := fun j => (r (4 + j / 2)).toNat / 2 ^ (32 * (j % 2)) % 2 ^ 32
    let good := (r 0).toNat / 2 ^ 36 = 0 ∧ (r 0).toNat / 2 ^ 24 % 2 ^ 8 = 0 ∧ r 1 = 0 ∧ 1 ≤ nk ∧ nk ≤ b.kmax ∧
      (∀ j < 8, nk ≤ j → eidx j = 0 ∧ wt j = 0) ∧ (∀ j < nk, ∀ l < j, eidx l ≠ eidx j)
    let k := (r 0).toNat % 2 ^ 24 % b.nslot
    s.groupReady w = true → findsBuffer s (v 1) n b →
    (tagDead s → canTrap s .generationRetired → exec i s = .next (afterTrap s { cause := .generationRetired })) ∧
    (¬ tagDead s → reachesSlice s (v 0) 64 .load key →
      (¬ good → canTrap s .reservedField → exec i s = .next (afterTrap s { cause := .reservedField })) ∧
      (good → s.slotState b k ≠ 0 → strict = true → canTrap s .combineSlots → exec i s = .next (afterTrap s { cause := .combineSlots })) ∧
      (good → s.slotState b k ≠ 0 → strict = false → ∃ t, exec i s = .next t ∧ waitsAt s t i ∧ t.mem = s.mem) ∧
      (good → s.slotState b k = 0 → (s.seg s.curVd n).state ≠ .stowing →
        ∃ t, exec i s = .next t ∧ gives s t f.d (BitVec.ofNat 64 k) ∧ t.slotState b k = 1 ∧ t.slotToken b k = (r 0).toNat % 2 ^ 24 ∧
          t.slotTag b k = s.grp.gentag.toNat ∧ t.slotNk b k = nk ∧ (∀ j < 8, t.slotArr b k j = false) ∧
          t.slotWord b k 1 = (if b.tmo = 0 then 0 else s.engineCycle b.core + BitVec.ofNat 64 b.tmo) ∧
          (∀ x, 2 ≤ x → x < 8 → t.slotWord b k x = r x) ∧ openCount t b = (openCount s b + 1) % 2 ^ 13 ∧ nextToken t b = nextToken s b ∧
          (∀ x, (x < b.slotKey k ∨ b.slotKey k + 64 ≤ x) → (x < b.base + 0x30 ∨ b.base + 0x38 ≤ x) →
            Memory.get t.mem x = Memory.get s.mem x)))

/-- CMBPUT to the own device (R277, R383): the row of RLEN bytes is staged at the entry that it matches, or the result is counted late. -/
def StagesResults : Prop :=
  ∀ (f : GrpThree) (s : State) (n : Nat) (b : CmbBuf) (key : Nat),
    let i := Instr.unlisted (.cmbput f false)
    let w := groupReads [f.a, f.b, f.d]
    let v := gv (s.groupValues w)
    let tok := (v 2).toNat % 2 ^ 24
    let expert := (v 2).toNat / 2 ^ 48
    let k := tok % b.nslot
    let open_ := s.slotState b k = 1 ∧ s.slotToken b k = tok ∧ s.slotTag b k = s.grp.gentag.toNat
    s.groupReady w = true → findsBuffer s (v 1) n b →
    (tagDead s → canTrap s .generationRetired → exec i s = .next (afterTrap s { cause := .generationRetired })) ∧
    (¬ tagDead s → (v 0).toNat % 16 ≠ 0 → canTrap s .misaligned →
      exec i s = .next (afterTrap s { cause := .misaligned, addr := v 0 })) ∧
    (¬ tagDead s → (v 0).toNat % 16 = 0 → rangeReaches s s.curCore s.curVd .load (v 0).toNat b.rlen key → (s.core s.curCore).l1 = [] →
      noneDoneBut s b b.nslot →
      (∀ j < 8, j < s.slotNk b k → open_ → s.slotExpert b k j = expert → (∀ l < j, s.slotExpert b k l ≠ expert) →
        s.slotArr b k j = false → (∃ l < s.slotNk b k, l ≠ j ∧ s.slotArr b k l = false) →
        ∃ t, exec i s = .next t ∧ (∀ x < b.rlen, Memory.get t.mem (b.rowKey k j + x) = Memory.get s.mem (key + x)) ∧
          t.slotState b k = 1 ∧ t.slotArr b k j = true ∧ (∀ l < 8, l ≠ j → t.slotArr b k l = s.slotArr b k l) ∧
          (∀ x, (x < b.rowKey k j ∨ b.rowKey k j + b.rlen ≤ x) → (x < b.slotKey k ∨ b.slotKey k + 8 ≤ x) →
            Memory.get t.mem x = Memory.get s.mem x) ∧
          t.groups = (afterGroup s w (fun g _ => g.advance)).groups) ∧
      ((¬ open_ ∨ (∀ j < 8, j < s.slotNk b k → s.slotExpert b k j ≠ expert) ∨
          (∃ j < 8, j < s.slotNk b k ∧ s.slotExpert b k j = expert ∧ (∀ l < j, s.slotExpert b k l ≠ expert) ∧ s.slotArr b k j = true)) →
        ∃ t, exec i s = .next t ∧ counterAt t b 48 = heldUp (counterAt s b 48) ∧ counterAt t b 32 = counterAt s b 32 ∧
          counterAt t b 16 = counterAt s b 16 ∧ (∀ x, x < b.base + 0x28 ∨ b.base + 0x30 ≤ x → Memory.get t.mem x = Memory.get s.mem x) ∧
          t.groups = (afterGroup s w (fun g _ => g.advance)).groups))

/-- CMBREL (R277, R279, R384): a slot not in the state required gives 1; with DROP it is abandoned; without, an OPEN one is DONE, and is
released at once, its row written and SIG raised, unless IN_ORDER holds it. -/
def ReleasesSlots : Prop :=
  ∀ (f : GrpThree) (drop : Bool) (s : State) (n : Nat) (b : CmbBuf),
    let i := Instr.unlisted (.cmbrel f drop)
    let w : GrpWord := { srcs := [{ o := f.a }, { o := f.b }], dest := destOf f.d 1 }
    let v := gv (s.groupValues w)
    let tok := (v 0).toNat % 2 ^ 24
    let k := tok % b.nslot
    let st := s.slotState b k
    let all := ∀ j < s.slotNk b k, s.slotArr b k j = true
    let freed := fun t : State => ∀ x < 64, Memory.get t.mem (b.slotKey k + x) = 0
    s.groupReady w = true → findsBuffer s (v 1) n b →
    ((st = 0 ∨ s.slotToken b k ≠ tok ∨ (drop = false ∧ st ≠ 1)) → exec i s = .next (s.groupResult w f.d 1)) ∧
    (st ≠ 0 → s.slotToken b k = tok → drop = true → noneDoneBut s b k →
      ∃ t, exec i s = .next t ∧ gives s t f.d 0 ∧ freed t ∧ counterAt t b 16 = heldUp (counterAt s b 16) ∧
        openCount t b = openCount s b - 1 ∧
        nextToken t b = (if b.inOrder = true ∧ nextToken s b = tok then (tok + 1) % 2 ^ 24 else nextToken s b) ∧
        (∀ x, (x < b.slotKey k ∨ b.slotKey k + 64 ≤ x) → (x < b.base + 0x28 ∨ b.base + 0x38 ≤ x) →
          Memory.get t.mem x = Memory.get s.mem x)) ∧
    (st = 1 → s.slotToken b k = tok → drop = false → noneDoneBut s b k → (s.slotWord b k 0).getLsbD 31 = false →
      b.inOrder = true → nextToken s b ≠ tok →
      ∃ t, exec i s = .next t ∧ gives s t f.d 0 ∧ t.slotState b k = 2 ∧ (all → counterAt t b 32 = counterAt s b 32) ∧
        (¬ all → (t.slotWord b k 0).getLsbD 31 = true ∧ counterAt t b 32 = heldUp (counterAt s b 32))) ∧
    (∀ okey skey, st = 1 → s.slotToken b k = tok → drop = false → noneDoneBut s b k → (b.inOrder = true → nextToken s b = tok) →
      (s.slotWord b k 0).getLsbD 31 = false → s.slotBad b k = false →
      let row := s.slotRow b k
      let s1 := s.slotDone b k
      rangeReaches s b.core s.curVd .store (b.out.toNat + tok * b.ostride) row.length okey → s1.buffersAt okey row.length = [] →
      (b.sig ≠ 0 → sliceBase ≤ b.sig.toNat ∧ s.check b.core s.curVd b.sig 16 .atomic = .ok (.slice skey) ∧ s.claimed skey 16 = false ∧
        s.poisoned skey 8 = false ∧ isSliceKey skey = true ∧ s1.buffersAt skey 8 = [] ∧ (skey + 8 ≤ okey ∨ okey + row.length ≤ skey)) →
      (s.vdev s.curVd).capture = [] →
      ∃ t, exec i s = .next t ∧ gives s t f.d 0 ∧ freed t ∧ Memory.getBytes t.mem okey row.length = row ∧
        (b.sig ≠ 0 → t.load64 skey = s.load64 skey + 1) ∧ openCount t b = openCount s b - 1 ∧
        nextToken t b = (if b.inOrder then (tok + 1) % 2 ^ 24 else nextToken s b) ∧
        (¬ all → counterAt t b 32 = heldUp (counterAt s b 32)) ∧ (all → counterAt t b 32 = counterAt s b 32) ∧
        (∀ x, (x < b.slotKey k ∨ b.slotKey k + 64 ≤ x) → (x < b.base + 0x28 ∨ b.base + 0x38 ≤ x) →
          (x < okey ∨ okey + row.length ≤ x) → (b.sig = 0 ∨ x < skey ∨ skey + 8 ≤ x) → Memory.get t.mem x = Memory.get s.mem x))

/-- CMBSTAT (R384): a word of the header, or of the slot that holds the token, else 0. -/
def ReportsSlots : Prop :=
  (∀ (f : GrpThree) (x : Fin 8) (s : State) (n : Nat) (b : CmbBuf),
    let w : GrpWord := { srcs := [{ o := f.b }], dest := destOf f.d 1 }
    s.groupReady w = true → findsBuffer s (gv (s.groupValues w) 0) n b →
    exec (.unlisted (.cmbstat f false x)) s = .next (s.groupResult w f.d (s.load64 (b.base + 8 * x.val)))) ∧
  (∀ (f : GrpThree) (x : Fin 8) (s : State) (n : Nat) (b : CmbBuf),
    let w : GrpWord := { srcs := [{ o := f.a }, { o := f.b }], dest := destOf f.d 1 }
    let tok := (gv (s.groupValues w) 0).toNat % 2 ^ 24
    let k := tok % b.nslot
    s.groupReady w = true → findsBuffer s (gv (s.groupValues w) 1) n b →
    exec (.unlisted (.cmbstat f true x)) s = .next (s.groupResult w f.d
      (if s.slotState b k = 0 ∨ s.slotToken b k ≠ tok then 0 else s.load64 (b.slotKey k + 8 * x.val))))

/-- CMBPUT.rem (R383): one bulk write with operation code 0xC to the window's one target, the control word before the row; the word is posted.
(The row's length is a free value: 16_experts does not give the sender RLEN.) -/
def SendsResults : Prop :=
  ∀ (f : GrpThree) (s : State) (t : Target) (key : Nat),
    let w : GrpWord := { srcs := [{ o := f.a }, { o := f.b }, { o := f.d }], counts := true }
    let s1 := (s.take [f.a, f.b, f.d]).2
    let v := gv (s.groupValues w)
    let n := 64 * ((Config.freeWord s.free).toNat % 128 + 1)
    s.groupReady w = true → s.contained = [] → (v 0).toNat % 16 = 0 →
    s1.grpCheck (v 1) none { perm := 58, kinds := [0], single := true, size := n, wr := true } = .ok t →
    rangeReaches s s.curCore s.curVd .load (v 0).toNat n key → (s.core s.curCore).l1 = [] → s1.canSend s1.curVd 4 [t] = true →
    ∃ s2, exec (.unlisted (.cmbput f true)) s = .next s2 ∧ s2.mem = s.mem ∧
      sends s s2 [requestTo s t 4 7 0xC n 0 (leBytes 8 (v 2).toNat ++ Memory.getBytes s.mem key n)] ∧
      s2.groups = (s1.performed { s1.grp.advance with posted := s1.grp.posted ++ [[s.sends]] }).groups

/-- The weighted sum of a slot (R279): the entries in ascending EIDX; the weights of those present, under RENORM with an entry missing scaled by
the quotient of the two sums; the elements added in that order, each step rounded once (03_numbers R50). -/
def WeighsRows : Prop :=
  (∀ (s : State) (b : CmbBuf) (i : Nat), (s.slotOrder b i).Perm (List.range (s.slotNk b i)) ∧
    (s.slotOrder b i).Pairwise (fun x y => s.slotExpert b i x ≤ s.slotExpert b i y)) ∧
  (∀ (s : State) (b : CmbBuf) (i : Nat),
    let order := s.slotOrder b i
    let here := order.filter (s.slotArr b i)
    let w := s.slotWeight b i
    let p := weightSum (here.map w)
    let q := (roundFp32 .rn ((fp32 (weightSum (order.map w))).divBy (fp32 p))).1
    ((b.renorm = false ∨ here = order) → s.slotWeights b i = here.map (fun j => (j, w j))) ∧
    (b.renorm = true → here ≠ order → (here = [] ∨ (∃ n e, fp32 p = .fin n 0 e)) → s.slotWeights b i = here.map (fun j => (j, 0))) ∧
    (b.renorm = true → here ≠ order → here ≠ [] → (∀ n e, fp32 p ≠ .fin n 0 e) →
      s.slotWeights b i = here.map (fun j => (j, (roundFp32 .rn ((fp32 (w j)).mul (fp32 q)).1).1)))) ∧
  weightSum [] = 0 ∧ (∀ x, weightSum [x] = x) ∧
  (∀ (l : List W32) (x : W32), l ≠ [] → weightSum (l ++ [x]) = (roundFp32 .rn ((fp32 (weightSum l)).add .rn (fp32 x)).1).1) ∧
  (∀ (n n' : Bool) (m m' : Nat) (e e' : Int), m' ≠ 0 → ∃ q r k : Nat, q * m' + r = m * 2 ^ k ∧ r < m' ∧ 64 * m' ≤ 2 ^ k ∧
    (Ext.fin n m e).divBy (.fin n' m' e') = .fin (n != n') (2 * q + (if r = 0 then 0 else 1)) (e - e' - k - 1)) ∧
  (∀ (s : State) (b : CmbBuf) (i e : Nat), s.slotOutput b i [] e = 0) ∧
  (∀ (s : State) (b : CmbBuf) (i e j : Nat) (w : W32),
    s.slotOutput b i [(j, w)] e = (roundFp32 .rn ((fp32 w).mul (s.stagedElement b i j e)).1).1) ∧
  (∀ (s : State) (b : CmbBuf) (i e j : Nat) (w : W32) (l : List (Nat × W32)), l ≠ [] →
    s.slotOutput b i (l ++ [(j, w)]) e =
      (roundFp32 .rn ((((fp32 w).mul (s.stagedElement b i j e)).1.add .rn (fp32 (s.slotOutput b i l e))).1)).1) ∧
  (∀ (s : State) (b : CmbBuf) (i j e : Nat), s.stagedElement b i j e =
    if b.bf16In then exact .bf16 (s.loadLe (b.rowKey i j + 2 * e) 2) else fp32 (s.load32 (b.rowKey i j + 4 * e))) ∧
  (∀ (s : State) (b : CmbBuf) (i : Nat), (s.slotRow b i).length = b.rlen / (if b.bf16In then 2 else 4) * (if b.bf16Out then 2 else 4) ∧
    ∀ e < b.rlen / (if b.bf16In then 2 else 4),
      let x := s.slotOutput b i (s.slotWeights b i) e
      (b.bf16Out = false → ((s.slotRow b i).drop (4 * e)).take 4 = leBytes 4 x.toNat) ∧
      (b.bf16Out = true → ((s.slotRow b i).drop (2 * e)).take 2 = leBytes 2 (Fmt.encode .bf16 .rn false (fp32 x)).1))

end Sys2Proof.Claims

open Sys2Proof Sys2Proof.Machine Sys2Proof.Claims

/-- The combine words CMBCFG, CMBOPEN, CMBPUT, CMBREL and CMBSTAT, and the combine engine's sum (16_experts R274 to R277, R279, R280,
R381 to R384). -/
def Obligations.CombineWords : Prop :=
  HeaderLies ∧ SlotLies ∧ ConfiguresBuffers ∧ OpensSlots ∧ StagesResults ∧ ReleasesSlots ∧ ReportsSlots ∧ SendsResults ∧ WeighsRows ∧
  (∀ f strict, NeedsBuffer (.unlisted (.cmbopen f strict)) { srcs := [{ o := f.a }, { o := f.b }], dest := destOf f.d 1 } 1) ∧
  (∀ f, NeedsBuffer (.unlisted (.cmbput f false)) { srcs := [{ o := f.a }, { o := f.b }, { o := f.d }] } 1) ∧
  (∀ f drop, NeedsBuffer (.unlisted (.cmbrel f drop)) { srcs := [{ o := f.a }, { o := f.b }], dest := destOf f.d 1 } 1) ∧
  (∀ f x, NeedsBuffer (.unlisted (.cmbstat f false x)) { srcs := [{ o := f.b }], dest := destOf f.d 1 } 0) ∧
  (∀ f x, NeedsBuffer (.unlisted (.cmbstat f true x)) { srcs := [{ o := f.a }, { o := f.b }], dest := destOf f.d 1 } 1)

namespace Sys2Proof.Claims

/-! ## Exit, spawn bins, combine buffers -/

/-- The header of a spawn record (13_execution R238). -/
def recordHeader (gentag srcDevice srcCore srcThread bin bytes : Nat) (remote : Bool) : Nat :=
  gentag * 2 ^ 48 + srcDevice % 2 ^ 12 * 2 ^ 36 + srcCore % 2 ^ 10 * 2 ^ 26 + srcThread % 2 ^ 5 * 2 ^ 21 + bin % 2 ^ 6 * 2 ^ 15 +
    (if bytes = 16 then 0 else if bytes = 32 then 1 else 2) * 4 + (if remote then 2 else 0)

/-- The record that a thread of the executing group spawns: the header and the registers from `a` on. -/
def threadRecord (s : State) (t a bin bytes : Nat) : List Byte :=
  leBytes 8 (recordHeader s.grp.gentag.toNat (s.vdev (s.launch s.curTeam.launch).vd).ownIndex s.curCore t bin bytes false) ++
    (List.range ((bytes - 8) / 4)).flatMap (fun i => leBytes 4 ((s.grp.thread t).reg (a + i)).toNat)

/-- A bin with these records more, at its end; its timer starts with the record that enters an empty bin (R239). -/
def withRecords (b : Bin) (now : Nat) (rs : List (List Byte)) : Bin :=
  { b with records := b.records ++ rs, written := b.written + rs.length,
           timerAt := if b.records = [] then some now else b.timerAt }

/-- BINSET of a bin of its own launch (R241): the bin is changed, and gd holds its status as it was. A bin that is not declared gives 0 in
a privileged context and traps with PRIVILEGED elsewhere; a bin number of 64 or more traps with RESERVED_FIELD. -/
def SetsBin (i : Instr) (d a : Opnd) (more : List Opnd) (ok : List W64 → Prop) (f : List W64 → Bin → Bin) : Prop :=
  ∀ s : State,
    let w : GrpWord := { srcs := { o := a } :: more.map (fun o => { o := o }), dest := destOf d 1 }
    let v := s.groupValues w
    let n := (gv v 0).toNat
    let s1 := (s.take (a :: more)).2
    let k := s.curTeam.launch
    let b := (s.launch k).bin n
    s.groupReady w = true →
    (n < 64 → ok v → (s.launch k).declares n = true →
      let s2 := (s1.setLaunch k { s.launch k with bins := (s.launch k).bins.set n (f v b) }).writeGroup d b.status
      exec i s = .next (s2.performed s2.grp.advance)) ∧
    (n < 64 → ok v → (s.launch k).declares n = false → s.grp.privileged = true → exec i s = .next (s.groupResult w d 0)) ∧
    (n < 64 → ok v → (s.launch k).declares n = false → s.grp.privileged = false → handles s.grp (Cause.code .privileged) →
      exec i s = .next (s.performed
        (inHandler s.grp (ownRecord s.grp { cause := .privileged }) s.grp.pc (maskOf s.grp.run)))) ∧
    ((64 ≤ n ∨ ¬ ok v) → s.grp.trap = false → handles s.grp (Cause.code .reservedField) →
      exec i s = .next (s.performed
        (inHandler s.grp (ownRecord s.grp { cause := .reservedField }) s.grp.pc (maskOf s.grp.run))))

end Sys2Proof.Claims

open Sys2Proof Sys2Proof.Machine Sys2Proof.Claims

/-- EXIT (13_execution R237): each acting thread is EXITED and counted, or parks with the record of an earlier store error (09_access
R150), the others of the run go on; a group whose threads have all ended is released, and a team's end begins with its last thread. -/
def Sys2Proof.Claims.Exits : Prop :=
  ∀ (f : LaneExit) (s : State) (tm : Team),
    let w : LaneWord := { guard := fun x => x.pred (Fin.ofNat 8 f.pg.val) }
    let ts := w.acting s.grp
    let out := ts.filter (fun t => (s.grp.thread t).storeFault.isNone)
    s.laneReady w = true → ts = [] ∨ s.releaseWaits f.sc true = false → s.teams.find s.grp.team = some tm →
    ∃ s2, exec (.exitv f) s = .next s2 ∧
      (∀ t ∈ out, ((s2.group s.cur).thread t).st = .exited) ∧
      (∀ t ∈ ts, ∀ r, (s.grp.thread t).storeFault = some r →
        ((s2.group s.cur).thread t).st = .parked ∧ ((s2.group s.cur).thread t).fault = r) ∧
      (∀ t ∈ s.grp.run, t ∉ ts → (s2.group s.cur).thread t = { s.grp.thread t with pc := (s.grp.thread t).pc + 4 }) ∧
      (∀ t, t ∉ s.grp.run → (s2.group s.cur).thread t = s.grp.thread t) ∧
      (s2.team s.grp.team).exited = tm.exited + out.length ∧
      ((s2.team s.grp.team).phase = if tm.launched ≤ tm.exited + out.length then .ending else tm.phase) ∧
      ((∀ p ∈ s.grp.threads, p.2.st = .exited ∨ p.2.st = .absent ∨ p.1 ∈ out) → (s2.group s.cur).live = false)

/-- SPAWN (R238 to R240, 05_slices R385): each acting thread's record, its header and the registers from va on, joins the bin that its vb
names, in thread order, its bytes go to their places of the bin's ring, and the thread goes on; the word waits for the group's outstanding
remote accesses (12_consistency R222); a bin that is not declared, or of another record size, parks the thread with RESERVED_FIELD, a closed
one with QUEUE_CLOSED, and at a full one the thread waits. -/
def Sys2Proof.Claims.Spawns : Prop :=
  (∀ (f : LaneSpawn) (n : Fin 56) (s : State) (bin : Nat), f.a = .reg n →
    let bytes := match f.size with
      | .s16 => 16
      | .s32 => 32
      | .s64 => 64
    let w : LaneWord :=
      { blocks := blockOf f.a ((bytes - 8) / 4) ++ blockOf f.b 1, guard := laneGuard f.pg f.ng,
        srcs := [{ o := f.a, trap := f.ea }, { o := f.b }], also := (List.range ((bytes - 8) / 4 - 1)).map (fun i => n.val + 1 + i) }
    let s1 := (s.take [f.a, f.b]).2
    let ts := w.acting s.grp
    let vb := fun t => ((s.take [f.a, f.b]).1.getD 1 .nothing).lane (s.grp.thread t) t
    let k := s.curTeam.launch
    let l := s.launch k
    let b := l.bin bin
    let rs := ts.map (fun t => threadRecord s t n.val bin bytes)
    s.laneReady w = true → ts ≠ [] → (∀ t ∈ ts, (vb t).toNat = bin) →
    (∀ g, bin < 64 → l.declares bin = true → b.size = bytes → b.open_ = true → b.gran = some g → noBuffers s → Memory.wf s.mem = true →
      s.tagRetired l.vd s.grp.gentag.toNat = false → b.records.length + ts.length ≤ 1024 → s.writesOut = false →
      let ring := granuleKey b.core g
      ∃ s2, exec (.spawn f) s = .next s2 ∧
        s2.launches = s.launches.set k { l with bins := l.bins.set bin (withRecords b s.now rs) } ∧
        (∀ i < ts.length, ∀ x < bytes, Memory.get s2.mem (ring + (b.written + i) % 1024 * bytes + x) = (rs.getD i []).getD x 0) ∧
        (∀ a, (∀ i < ts.length, a < ring + (b.written + i) % 1024 * bytes ∨ ring + (b.written + i) % 1024 * bytes + bytes ≤ a) →
          Memory.get s2.mem a = Memory.get s.mem a) ∧
        s2.groups = (s1.performed (s1.grp.stepRun ts (fun _ x => x))).groups) ∧
    (bin < 64 → l.declares bin = true → b.size = bytes → b.open_ = true → b.gran = none →
      s.tagRetired l.vd s.grp.gentag.toNat = false → b.records.length + ts.length ≤ 1024 → s.writesOut = false →
      exec (.spawn f) s = .next ((s1.setLaunch k { l with bins := l.bins.set bin (withRecords b s.now rs) }).performed
        (s1.grp.stepRun ts (fun _ x => x)))) ∧
    (s.writesOut = true → exec (.spawn f) s = .next (s.stall (.spawn f))) ∧
    (s.writesOut = false → (64 ≤ bin ∨ l.declares bin = false ∨ b.size ≠ bytes) →
      exec (.spawn f) s = .next (s1.performed { s1.grp with threads := s1.grp.threads.mapKV (fun t x =>
        if ts.contains t then { x with st := .parked, fault := s.grp.threadRec x { cause := .reservedField } }
        else if s.grp.run.contains t then { x with pc := x.pc + 4 } else x) })) ∧
    (s.writesOut = false → bin < 64 → l.declares bin = true → b.size = bytes → b.open_ = false →
      exec (.spawn f) s = .next (s1.performed { s1.grp with threads := s1.grp.threads.mapKV (fun t x =>
        if ts.contains t then { x with st := .parked, fault := s.grp.threadRec x { cause := .queueClosed } }
        else if s.grp.run.contains t then { x with pc := x.pc + 4 } else x) })) ∧
    (bin < 64 → l.declares bin = true → b.size = bytes → b.open_ = true → 1024 ≤ b.records.length →
      exec (.spawn f) s = .next (s.stall (.spawn f)))) ∧
  (∀ (s : State) (k bin g : Nat) (tag : Nat) (r : List Byte), s.tagRetired (s.launch k).vd tag = false →
    ((s.launch k).bin bin).gran = some g → noBuffers s → Memory.wf s.mem = true →
    let b := (s.launch k).bin bin
    let at_ := granuleKey b.core g + b.written % 1024 * b.size
    let t := s.addRecord k bin tag r
    (∀ i < r.length, Memory.get t.mem (at_ + i) = r.getD i 0) ∧
    (∀ a, a < at_ ∨ at_ + r.length ≤ a → Memory.get t.mem a = Memory.get s.mem a) ∧
    t.launches = s.launches.set k { s.launch k with bins := (s.launch k).bins.set bin (withRecords b s.now [r]) }) ∧
  (∀ (s : State) (k bin tag : Nat) (r : List Byte), s.tagRetired (s.launch k).vd tag = true →
    let b := (s.launch k).bin bin
    s.addRecord k bin tag r =
      s.setLaunch k { s.launch k with bins := (s.launch k).bins.set bin { b with discarded := b.discarded + 1 } })

/-- SPAWNG (R241): the group's record, its payload loaded from memory, joins the bin and its ring, or goes out through a BIN window as a
SPAWN_RECORD. -/
def Sys2Proof.Claims.GroupSpawns : Prop :=
  (∀ (f : GrpSpawnLoc) (s : State) (key g : Nat),
    let bytes := match f.size with
      | .s16 => 16
      | .s32 => 32
      | .s64 => 64
    let w : GrpWord := { srcs := [{ o := f.a }, { o := f.d }] }
    let bin := (gv (s.groupValues w) 0).toNat
    let at_ := gv (s.groupValues w) 1
    let k := s.curTeam.launch
    let l := s.launch k
    let b := l.bin bin
    let rec_ := leBytes 8 (recordHeader s.grp.gentag.toNat (s.vdev l.vd).ownIndex s.curCore 0 bin bytes false) ++
      Memory.getBytes s.mem key (bytes - 8)
    let place := granuleKey b.core g + b.written % 1024 * bytes
    s.groupReady w = true →
    (bin < 64 → l.declares bin = true → b.size = bytes → b.open_ = true → b.gran = some g → b.records.length < 1024 →
      s.writesOut = false → s.tagRetired l.vd s.grp.gentag.toNat = false → noBuffers s → Memory.wf s.mem = true →
      (∀ i < (bytes - 8) / 8, reachesSlice s (at_ + BitVec.ofNat 64 (8 * i)) 8 .load (key + 8 * i)) →
      ∃ t, exec (.spawngLoc f) s = .next t ∧
        t.launches = s.launches.set k { l with bins := l.bins.set bin (withRecords b s.now [rec_]) } ∧
        (∀ i < bytes, Memory.get t.mem (place + i) = rec_.getD i 0) ∧
        (∀ a, a < place ∨ place + bytes ≤ a → Memory.get t.mem a = Memory.get s.mem a) ∧
        t.groups = (afterGroup s w (fun g _ => g.advance)).groups) ∧
    ((64 ≤ bin ∨ l.declares bin = false ∨ b.size ≠ bytes) → canTrap s .reservedField →
      exec (.spawngLoc f) s = .next (afterTrap s { cause := .reservedField })) ∧
    (bin < 64 → l.declares bin = true → b.size = bytes → b.open_ = false → canTrap s .queueClosed →
      exec (.spawngLoc f) s = .next (afterTrap s { cause := .queueClosed }))) ∧
  (∀ (f : GrpSpawnRem) (s : State) (key : Nat) (t : Target),
    let bytes := match f.size with
      | .s16 => 16
      | .s32 => 32
      | .s64 => 64
    let w : GrpWord :=
      { srcs := (if f.dp then [{ o := f.a }] else [{ o := f.a }, { o := f.b }]) ++ [{ o := f.d }], counts := true }
    let v := s.groupValues w
    let at_ := gv v (if f.dp then 1 else 2)
    let s1 := (s.take (w.srcs.map (·.o))).2
    s.groupReady w = true → s.contained = [] →
    s1.grpCheck (gv v 0) (if f.dp then none else some (gv v 1)) { perm := 58, kinds := [2], size := bytes, wr := true } = .ok t →
    (∀ i < (bytes - 8) / 8, reachesSlice s (at_ + BitVec.ofNat 64 (8 * i)) 8 .load (key + 8 * i)) →
    s.writesOut = false → s1.canSend s1.curVd 0 [t] = true →
    ∃ s2, exec (.spawngRemote f) s = .next s2 ∧ s2.mem = s.mem ∧
      sends s s2 [requestTo s t 0 6 0 bytes 0
        (leBytes 8 (recordHeader s.grp.gentag.toNat (s.vdev s.curVd).ownIndex s.curCore 0 (t.off / 64) bytes true) ++
          Memory.getBytes s.mem key (bytes - 8))] ∧
      s2.groups = (s1.performed { s1.grp.advance with posted := s1.grp.posted ++ [[s.sends]] }).groups)

/-- BINSET and BINFL (R241). BINFL makes every record present eligible; with WT, of a bin that is not empty, it leaves gd PENDING until
the bin is empty (07_registers R105). -/
def Obligations.BinWords : Prop :=
  (∀ f : GrpThree, SetsBin (.binsetFlush f) f.d f.a [f.b] (fun v => 1 ≤ (gv v 1).toNat ∧ (gv v 1).toNat ≤ 1048575)
    (fun v b => { b with flush := (gv v 1).toNat })) ∧
  (∀ f : GrpDA, SetsBin (.binsetClose f) f.d f.a [] (fun _ => True) (fun _ b => { b with open_ := false })) ∧
  (∀ f : GrpDA, SetsBin (.binsetOpen f) f.d f.a [] (fun _ => True) (fun _ b => { b with open_ := true })) ∧
  (∀ (f : GrpBinfl) (n : Fin 56) (s : State), f.d = .reg n →
    let w : GrpWord := { srcs := [{ o := f.a }], dest := destOf f.d 1, counts := f.wt }
    let bin := (gv (s.groupValues w) 0).toNat
    let s1 := (s.take [f.a]).2
    let k := s.curTeam.launch
    let b := (s.launch k).bin bin
    let s2 := s1.setLaunch k { s.launch k with
      bins := (s.launch k).bins.set bin
        { b with eligible := b.records.length, timerAt := if b.records = [] then b.timerAt else none } }
    s.groupReady w = true → bin < 64 → (s.launch k).declares bin = true →
    ((f.wt = false ∨ (b.records = [] ∧ s.grp.waits.length < 7)) →
      exec (.binfl f) s = .next (s2.performed (s1.grp.write n.val b.status).advance)) ∧
    (f.wt = true → b.records ≠ [] → s.grp.waits.length < 7 → exec (.binfl f) s = .next (s2.performed
      ({ s1.grp.setState n.val .pending with waits := s1.grp.waits ++ [(n.val, .binfl bin)] } : Group).advance))) ∧
  (∀ (s : State) (bin cb sel : Nat) (ids : List Nat) (rest : List (Nat × StatusKind)) (kind : StatusKind),
    let g := s.group s.on.a
    let done := fun v => exec .statusWaitFill s = .next (s.setGroup s.on.a { g.write s.on.b v with waits := rest }).fire
    g.live = true → g.waits = (s.on.b, kind) :: rest → (∀ w ∈ rest, w.1 ≠ s.on.b) →
    (kind = .binfl bin → ((s.launch (s.team g.team).launch).bin bin).records = [] →
      done ((s.launch (s.team g.team).launch).bin bin).status) ∧
    (kind = .cpyst cb → s.cbCommands g.team cb = [] → done (s.copyStatus g.team cb)) ∧
    (kind = .mstat sel ids → (s.teamSeqs g.team).all (fun q => !ids.contains q.id) = true → done (s.tableStatus g.team sel)) ∧
    (kind = .cpyst cb → s.cbCommands g.team cb ≠ [] → exec .statusWaitFill s = .next s))

/-- A word whose opcode is assigned to no instruction (02_encoding R31): in the lane set every thread of the run parks with ILLEGAL_OPCODE
and `trappc` holds the word's address (R24); in the group set the group traps with it. -/
def Sys2Proof.Claims.IllegalOpcodes : Prop :=
  ∀ (w : BitVec 32) (s : State), s.inOrder = true →
    (w.getLsbD 31 = false → s.grp.trap = false → exec (.illegalOpcodeWord w) s = .next (s.performed { s.grp with
      threads := s.grp.threads.mapKV (fun t x =>
        if s.grp.run.contains t then { x with st := .parked, fault := s.grp.threadRec x { cause := .illegalOpcode } } else x),
      trappc := s.grp.pc })) ∧
    (w.getLsbD 31 = true → s.grp.trap = false → handles s.grp (Cause.code .illegalOpcode) →
      exec (.illegalOpcodeWord w) s = .next (s.performed
        (inHandler s.grp (ownRecord s.grp { cause := .illegalOpcode }) s.grp.pc (maskOf s.grp.run))))

/-- Spawn bins on their own (R239, 05_slices R385): the flush timer makes every record eligible; a launch's rings take one granule each in
their cores' slices; the oldest records, 32 at most, become a team of one group whose threads hold them from v0 on. -/
def Sys2Proof.Claims.BinEvents : Prop :=
  (∀ (s : State) (t : Nat),
    let b := (s.launch s.on.a).bin s.on.b
    b.timerAt = some t → b.records ≠ [] → t + b.flush ≤ s.now →
    exec .binFlushTimerExpiry s = .next (s.setLaunch s.on.a { s.launch s.on.a with
      bins := (s.launch s.on.a).bins.set s.on.b { b with timerAt := none, eligible := b.records.length } }).fire) ∧
  (∀ (s : State) (bin g : Nat) (b : Bin),
    let l := s.launch s.on.a
    l.eligible = true → l.ringsReady = false → l.retired = false → l.failed = none → l.bins = [(bin, b)] →
    s.stowsFor (.rings s.on.a) = false →
    s.freeRun [b.core] 1 = some g → Memory.wf s.mem = true →
    ∃ t, exec .binRingAllocation s = .next t ∧ t.granules.find (granuleOf b.core g) = some (l.vd + 1) ∧
      (∀ i < 65536, Memory.get t.mem (granuleKey b.core g + i) = 0) ∧
      (∀ a, a < granuleKey b.core g ∨ granuleKey b.core g + 65536 ≤ a → Memory.get t.mem a = Memory.get s.mem a) ∧
      t.launches = s.launches.set s.on.a { l with bins := [(bin, { b with gran := some g })], ringsReady := true }) ∧
  (∀ s : State,
    let l := s.launch s.on.a
    let b := l.bin s.on.b
    let n := min 32 b.records.length
    l.retired = false → l.failed = none → l.declares s.on.b = true → b.records ≠ [] → b.due = true → (s.vdev l.vd).run = true →
    b.core ∉ s.reservedCores s.on.a none →
    (s.core b.core).out = false → s.fitsWithout b.core { budgets := [l.spawnBudget b.size] } [] false = true →
    ∃ t, exec .spawnGroupLaunch s = .next t ∧ (t.group (s.made + 1)).live = true ∧ (t.group (s.made + 1)).team = s.made ∧
      (t.team s.made).launch = s.on.a ∧ (t.team s.made).launched = n ∧ (t.team s.made).core = b.core ∧
      (t.team s.made).spawnBin = some s.on.b ∧ (t.team s.made).records = b.records.take n ∧
      (∀ i < n, ((t.group (s.made + 1)).thread i).st = .ready ∧ ((t.group (s.made + 1)).thread i).pc = l.code + b.entry ∧
        ∀ r < 16, ((t.group (s.made + 1)).thread i).reg r =
          BitVec.ofNat 32 (leValue ((((b.records.getD i []).drop (4 * r)).take 4)))) ∧
      (∀ i, n ≤ i → i < 32 → ((t.group (s.made + 1)).thread i).st = .absent) ∧
      (t.group (s.made + 1)).runmask = maskOf (List.range n) ∧ (t.launch s.on.a).ageFrom = s.cpNow ∧
      ((t.launch s.on.a).bin s.on.b).records = b.records.drop n ∧
      ((t.launch s.on.a).bin s.on.b).eligible = b.eligible - n)

/-- COMBINE_DEADLINE (16_experts R277, R278): an OPEN slot whose deadline lies in an earlier cycle becomes DONE with the entries that are
present, counted under SUBST where one is missing; releases follow; no other slot's deadline fires. HELD_SPAWN_RECORD_TIMEOUT (13_execution
R241): a held record is given up. -/
def Sys2Proof.Claims.Deadlines : Prop :=
  (∀ s : State,
    let g := s.seg s.on.a s.on.b
    let b := s.cmbAt s.on.a g
    let k := s.on.c
    (s.slotExpired b k = false → exec .combineDeadline s = .next s) ∧
    (g.buffer = true → g.present = true → k < b.nslot → s.bufferClaimed b = false → s.expired b = [k] →
      exec .combineDeadline s = .next ((s.slotDone b k).cmbRelease b).fire ∧
      (Memory.wf s.mem = true → (s.slotWord b k 0).getLsbD 31 = false →
        let t := s.slotDone b k
        t.slotState b k = 2 ∧
        ((∀ j < s.slotNk b k, s.slotArr b k j = true) → counterAt t b 32 = counterAt s b 32) ∧
        (¬ (∀ j < s.slotNk b k, s.slotArr b k j = true) →
          (t.slotWord b k 0).getLsbD 31 = true ∧ counterAt t b 32 = heldUp (counterAt s b 32)) ∧
        ∀ a, (a < b.slotKey k ∨ b.slotKey k + 8 ≤ a) → (a < b.base + 0x28 ∨ b.base + 0x30 ≤ a) → Memory.get t.mem a = Memory.get s.mem a))) ∧
  (∀ (s : State) (b : CmbBuf) (i : Nat), s.slotExpired b i = true ↔
    b.tmo ≠ 0 ∧ s.slotState b i = 1 ∧ s.engineCycle b.core ≠ s.slotWord b i 1 ∧
      (s.engineCycle b.core - s.slotWord b i 1).toNat < 2 ^ 63) ∧
  (∀ s : State, ∀ (b : CmbBuf), s.slotReady b = none → s.cmbRelease b = s) ∧
  (∀ (s : State) (h : HeldRecord) (hs : List HeldRecord), s.on.b = 0 → (s.vdev s.on.a).heldRecords = h :: hs →
    ∃ t, exec .heldSpawnRecordTimeout s = .next t ∧ (t.vdev s.on.a).heldRecords = hs ∧ t.launches = s.launches ∧ t.mem = s.mem)

namespace Sys2Proof.Claims

/-! ## Scheduling, memory, registers -/

/-- The team and its groups are gone from their core. -/
def teamGone (s t : State) (tk : Nat) : Prop :=
  t.teams.find tk = none ∧ ∀ k ∈ (s.team tk).groups, t.groups.find k = none

/-- A register block's write to a live function (17_command R282): the virtual device becomes `f` of itself; a function that is not live
takes no write. -/
def Writes (mk : Nat → W64 → Instr) (f : W64 → VDev → VDev) : Prop :=
  ∀ (vd : Nat) (v : W64) (s : State),
    ((s.vdev vd).live = true → exec (mk vd v) s = .next (s.setVdev vd (f v (s.vdev vd))).fire) ∧
    ((s.vdev vd).live = false → exec (mk vd v) s = .next s)

/-- Bits `hi` to `lo` of a value, in place. -/
def bitsIn (v : W64) (hi lo : Nat) : W64 := BitVec.ofNat 64 (v.toNat / 2 ^ lo % 2 ^ (hi + 1 - lo) * 2 ^ lo)

/-- A whole-virtual-device invalidation has begun. -/
def invalidating (v : VDev) : VDev := { v with invBusy := true, invPage := v.invVa.toNat / 2 ^ 16 % 2 ^ 40, invAll := true }

/-- What a write of QCTL leaves of a queue (R284, R291): RESET first, from every state to STOPPED with indexes, counts and packets gone; else ACK
of a HALTED queue lets it run; then EN, AGE and, in STOPPED, LOG2N take their fields; EN 1 starts a STOPPED queue; EN 0 stops one that is not
ABORTED once no packet of it is in progress. -/
def controlled (x : HQueue) (v : W64) : HQueue :=
  let y : HQueue :=
    if v.getLsbD 8 then
      { x with state := .stopped, widx := 0, ridx := 0, pidx := 0, errCount := 0, cause := 0, packets := [] }
    else if v.getLsbD 7 = true ∧ x.state = .halted then { x with state := .running } else x
  { y with
    age := v.getLsbD 6, en := v.getLsbD 5,
    log2n := if y.state = .stopped ∧ 4 ≤ v.toNat % 32 ∧ v.toNat % 32 ≤ 16 then v.toNat % 32 else y.log2n
    state := if v.getLsbD 5 then (if y.state = .stopped then .running else y.state)
      else if y.state = .aborted ∨ y.packets.any (·.started) then y.state else .stopped }

/-- A write of a queue's QCTL with RESET 0, by the event that has its bit. -/
def Controls (mk : Nat → Nat → W64 → Instr) (has : W64 → Prop) : Prop :=
  ∀ (vd q : Nat) (v : W64) (s : State), v.getLsbD 8 = false → q < 64 → (s.vdev vd).live = true →
    (has v → exec (mk vd q v) s = .next (s.setVdev vd { s.vdev vd with
      queues := (s.vdev vd).queues.set q (controlled ((s.vdev vd).queues.get q {}) v) }).fire) ∧
    (¬ has v → exec (mk vd q v) s = .next s)

/-- The 64 KiB page is in the range of the invalidation that is under way. -/
def pageInRange (v : VDev) (page : Nat) : Prop := v.invAll = true ∨ (v.invPage ≤ page ∧ page < v.invPage + v.invCount.toNat)

/-- The entry maps some page of the range: its leaf of 64 KiB, 2 MiB or 512 MiB does. -/
def leafInRange (v : VDev) (e : TlbEntry) : Prop :=
  let pages := if e.size = 0 then 1 else if e.size = 1 then 32 else 8192
  ∃ page, page / pages = e.page / pages ∧ pageInRange v page

/-- A TLB after an invalidation of a virtual device: what it held, without the entries that map a page of the range. -/
def invalidated (vd : Nat) (v : VDev) (old new : List TlbEntry) : Prop :=
  (∀ e ∈ new, e ∈ old ∧ (e.vd = vd → ¬ leafInRange v e)) ∧
  ((v.invAll = true ∨ v.invCount ≠ 0) → ∀ e ∈ old, (e.vd ≠ vd ∨ ¬ leafInRange v e) → e ∈ new)

end Sys2Proof.Claims

open Sys2Proof Sys2Proof.Machine Sys2Proof.Claims

/-- TEAM_PLACEMENT (14_scheduling R243 to R248): the first waiting team whose launch has a core for it takes that core, all its groups with 32
READY threads at their entries; a placed team with nothing to attach is released, its groups' first two registers its scratch base and
size. A chosen core has room for all that the team needs. -/
def Obligations.Placement : Prop :=
  (∀ (s : State) (w : Waiting) (ws : List Waiting) (c i : Nat),
    let v := s.vdev s.on.a
    let l := s.launch w.launch
    v.live = true → v.run = true → s.teams.all (fun p => !(p.2.vd == s.on.a && p.2.phase == .placing)) = true →
    s.waiting s.on.a = w :: ws → w.saved = none → s.stowsFor (.scratch w.launch w.key) = false → s.choiceFor s.on.a w = .core c → l.nextTeam = some i →
    ∃ t, exec .teamPlacement s = .next t ∧ (t.team s.made).core = c ∧ (t.team s.made).index = i ∧ (t.team s.made).launch = w.launch ∧
      (t.team s.made).phase = .placing ∧ (t.team s.made).nScratch = l.scratch ∧ (t.team s.made).launched = 32 * (l.nP + l.nC) ∧
      (t.launch w.launch).fates.get i .unplaced = .placed ∧
      (∀ j < l.nP, ((t.group (s.made + 1 + j)).team = s.made ∧ (t.group (s.made + 1 + j)).role = (if l.roles then 1 else 0) ∧
        (t.group (s.made + 1 + j)).budget = l.budgetP ∧
        ∀ th < 32, ((t.group (s.made + 1 + j)).thread th).st = .ready ∧
          ((t.group (s.made + 1 + j)).thread th).pc = l.code + l.entryP)) ∧
      (∀ j < l.nC, ((t.group (s.made + 1 + l.nP + j)).team = s.made ∧ (t.group (s.made + 1 + l.nP + j)).role = 2 ∧
        (t.group (s.made + 1 + l.nP + j)).budget = l.budgetC ∧
        ∀ th < 32, ((t.group (s.made + 1 + l.nP + j)).thread th).pc = l.code + l.entryC))) ∧
  (∀ (s : State) (tk : Nat),
    let v := s.vdev s.on.a
    let tm := s.team tk
    v.live = true → v.run = true → s.teams.keysWhere (fun _ t => t.vd == s.on.a && t.phase == .placing) = [tk] →
    (s.launch tm.launch).attach = [] → tm.nScratch ≠ 0 → tm.groups.Nodup →
    (∀ k ∈ tm.groups, (s.group k).regState 0 ≠ .pending ∧ (s.group k).regState 1 ≠ .pending) →
    ∃ t, exec .teamPlacement s = .next t ∧ (t.team tk).phase = .running ∧ (∀ k ∈ tm.groups,
      (t.group k).reg 0 = BitVec.ofNat 64 (sliceKey tm.core (tm.scratch * 65536)) ∧ (t.group k).regState 0 = .full ∧
      (t.group k).reg 1 = BitVec.ofNat 64 (tm.nScratch * 65536) ∧ (t.group k).lane < 16)) ∧
  (∀ (s : State) (vd : Nat) (w : Waiting) (c : Nat), s.choiceFor vd w = .core c → s.fitsWithout c (s.needOf vd w) [] true = true) ∧
  (∀ (s : State) (c : Nat) (n : Need), s.fitsWithout c n [] true = true →
    (s.residents c).length + n.budgets.length ≤ 64 ∧
    ((s.residents c).map (fun k => 32 * (s.group k).budget)).sum + (n.budgets.map (32 * ·)).sum ≤ 65536)

/-- Timers of placement (14_scheduling R246, R249; 15_faults R265, R266): a preference that has been held for 8,192 cycles is given up; a
launch whose team has waited 65,536 cycles has victims of lower priority pre-empted on one core that no other waiting team has, each drained, flushed or saved as R265 decides. -/
def Sys2Proof.Claims.PlacementTimers : Prop :=
  (∀ (s : State) (t p : Nat) (ws rest : List Waiting) (w : Waiting),
    let l := s.launch s.on.a
    s.waitingOf s.on.a = ws ++ w :: rest → (∀ x ∈ ws, s.heldLong x = none) → l.holdFrom.find w.key = some t → t + 8192 ≤ s.cpNow →
    s.choiceFor l.vd w = .hold p →
    exec .residencyHoldExpiry s = .next (s.setLaunch s.on.a
      { l with holdFrom := l.holdFrom.erase w.key, prefTaken := l.prefTaken.set w.key p }).fire) ∧
  (∀ (s : State) (t : Nat) (w : Waiting), (s.launch w.launch).holdFrom.find w.key = some t → s.cpNow < t + 8192 → s.heldLong w = none) ∧
  (∀ (s : State) (ws rest : List Waiting) (w : Waiting) (c tk : Nat),
    let l := s.launch s.on.a
    let tm := s.team tk
    s.waitingOf s.on.a = ws ++ w :: rest → (∀ x ∈ ws, s.needsVictims x = false) → (s.vdev l.vd).run = true →
    l.victimCore.find w.key = none → s.spareFor l.vd w = none → w.since + 65536 ≤ s.cpNow →
    (∀ x ∈ s.vdCores l.vd, s.fitsWithout x (s.needOf l.vd w) [] true = false) →
    s.victimsFor w = some (c, [tk]) → s.decision tk = .drain →
    ∃ t, exec .victimWaitExpiry s = .next t ∧ (t.launch s.on.a).victimCore.find w.key = some c ∧
      t.team tk = { tm with phase := .draining (s.now + s.drainBudget tm) }) ∧
  (∀ (s : State) (w : Waiting) (c : Nat) (ts : List Nat),
    let vd := (s.launch w.launch).vd
    s.victimsFor w = some (c, ts) →
    c ∈ s.vdCores vd ∧ c ∉ s.reservedCores w.launch (some w.key) ∧ s.fitsWithout c (s.needOf vd w) ts true = true ∧
    ∀ x ∈ ts, x ∈ s.coreTeams c ∧ (s.team x).phase = .running ∧ s.residentPrio (s.team x) < w.prio) ∧
  (∀ (s : State) (tk : Nat),
    let tm := s.team tk
    let l := s.launch tm.launch
    let g := s.progressOf tm
    let short := l.hint ≠ 0 ∧ l.hint - g ≤ s.drainBudget tm ∧ ∀ k ∈ tm.groups, (s.group k).live = true → (s.group k).held = false
    (short → s.decision tk = .drain) ∧
    (¬ short → l.idem = true → l.hint ≠ 0 → 8 * g ≤ l.hint → s.decision tk = .flush) ∧
    (¬ short → ¬ (l.idem = true ∧ l.hint ≠ 0 ∧ 8 * g ≤ l.hint) → s.decision tk = .save)) ∧
  (∀ (s : State) (e : Nat), (s.team s.on.a).phase = .draining e → e ≤ s.now →
    ∃ t, exec .drainBudgetExpiry s = .next t ∧ (t.team s.on.a).phase = .saving ∧
      (t.team s.on.a).settle = (s.team s.on.a).groups.filter (fun k => (s.group k).settles))

/-- SAVE_END (15_faults R266, R268): the team leaves its core, and its virtual device keeps its groups' threads, registers, queues and trap
context. TEAM_END (13_execution R237): a team whose work has ended is gone, its index of the launch done with its completion value. -/
def Sys2Proof.Claims.TeamEnds : Prop :=
  (∀ s : State,
    let tm := s.team s.on.a
    (s.teams.find s.on.a).isSome = true → s.saveReady s.on.a = true → tm.spawnBin = none →
    ∃ t x, exec .saveEnd s = .next t ∧ teamGone s t s.on.a ∧ (t.vdev tm.vd).saved.find s.on.a = some x ∧
      (t.launch tm.launch).fates.get tm.index .unplaced = .saved ∧ x.team.launch = tm.launch ∧ x.team.index = tm.index ∧
      x.team.cbs = tm.cbs ∧ x.team.bindings = tm.bindings ∧ x.savedAt = s.cpNow ∧
      (∀ k ∈ tm.groups, ∃ g, x.groups.find k = some g ∧ g.threads = (s.group k).threads ∧ g.g = (s.group k).g ∧
        g.gst = (s.group k).gst ∧ g.conds = (s.group k).conds ∧ g.queues = (s.group k).queues ∧ g.fpm = (s.group k).fpm ∧
        g.fault = (s.group k).fault ∧ g.trap = (s.group k).trap ∧ g.trapcause = (s.group k).trapcause ∧
        g.trappc = (s.group k).trappc ∧ g.trapmask = (s.group k).trapmask ∧ g.hpc = (s.group k).hpc)) ∧
  (∀ s : State,
    let tm := s.team s.on.a
    (s.teams.find s.on.a).isSome = true → tm.phase = .ending → tm.spawnBin = none → (∀ k ∈ tm.groups, (s.group k).copyWait = none ∧ (s.group k).inPipe = false) →
    s.teamCopies s.on.a = [] → s.teamSeqs s.on.a = [] → s.getsOut s.on.a = false →
    let s1 := tm.attaches.foldl (fun s a => s.detach tm.vd a.1 s.on.a) s
    s1.dirtyClaimed tm.core = false → (tm.domExit = true → ∀ k ∈ tm.groups, (s1.group k).posted = []) →
    ∃ t, exec .teamEnd s = .next t ∧ teamGone s t s.on.a ∧ (t.launch tm.launch).fates.get tm.index .unplaced = .done ∧
      (tm.completion ≠ 0 → (t.launch tm.launch).values.find tm.index = some tm.completion))

/-- Memory on its own (04_memory R55, R56, R61, R66, R67; 01_machine R15; 18_platform R311): an eviction writes a line's dirty bytes back and
drops it; a walk's answer goes to the TLBs; the host reads device memory, poison for uncorrectable data, and writes it; corrected errors
are counted and reported; scrubs change nothing; a failing row is replaced, and a channel whose errors pass the threshold that firmware sets. -/
def Obligations.MemoryEvents : Prop :=
  (∀ (s : State) (l : L1Line), (s.core s.on.a).line s.on.b = some l → (l.dirty = 0 ∨ s.claimed (l.line * 128) 128 = false) →
    exec .l1Eviction s = .next (s.flushLine s.on.a s.on.b).fire ∧
    ((s.flushLine s.on.a s.on.b).core s.on.a).line s.on.b = none ∧
    (l.line = s.on.b → l.dirty = 1 → l.bad = 0 → s.poison = [] → (∀ p ∈ s.vdevs, p.2.track = false) → Memory.wf s.mem = true →
      Memory.get (s.flushLine s.on.a s.on.b).mem (s.on.b * 128) = l.byteAt 0 ∧
      ∀ a, a ≠ s.on.b * 128 → Memory.get (s.flushLine s.on.a s.on.b).mem a = Memory.get s.mem a)) ∧
  (∀ (s : State) (core : Nat) (w : PendingWalk), s.walks = [w] → w.vd = s.on.a → w.page = s.on.b → w.cores = [core] →
    let e := tlbEntryOf w.vd w.page w.leaf w.at_ w.size
    ∃ t, exec .pageWalkComplete s = .next t ∧ t.walks = [] ∧ t.mem = s.mem ∧ t.tlbFind core w.vd (w.page * 2 ^ 16) = some e ∧
      e ∈ (t.cluster (core / 8)).tlb) ∧
  (∀ s : State, s.on.a + s.on.b ≤ 2 ^ 39 → s.claimed s.on.a s.on.b = false → ∃ t, exec .hostCxlMemRead s = .next t ∧
    t.mem = s.mem ∧ t.hostReply = if s.poisoned s.on.a s.on.b then (List.replicate s.on.b 0, true)
      else (Memory.getBytes s.mem s.on.a s.on.b, false)) ∧
  (∀ (s : State) (addr : Nat) (bs : List Byte), addr % 64 + bs.length ≤ 64 → addr + bs.length ≤ 2 ^ 39 →
    s.claimed addr bs.length = false → s.poison = [] → (∀ p ∈ s.vdevs, p.2.track = false) → Memory.wf s.mem = true →
    ∃ t, exec (.hostCxlMemWrite addr bs) s = .next t ∧ Memory.getBytes t.mem addr bs.length = bs ∧
      ∀ a, a < addr ∨ addr + bs.length ≤ a → Memory.get t.mem a = Memory.get s.mem a) ∧
  (∀ (s : State) (m : MemKind) (addr : Nat), (m = .lpddr ∨ m = .slice) →
    let n := (s.platform.corrected.get (errorKey m addr) []).length + 1
    exec (.correctedError m addr) s = .next (({ s with platform := { s.platform with
        corrected := s.platform.corrected.set (errorKey m addr) (s.cpNow :: s.platform.corrected.get (errorKey m addr) []) } }).post 0
      { type_ := 6, a := BitVec.ofNat 64 addr, b := BitVec.ofNat 64 n }).fire) ∧
  (∀ (s : State) (m : MemKind), (m = .lpddr ∨ m = .slice ∨ m = .systemSram) →
    exec (.patrolScrub m) s = .next { s with platform := { s.platform with scrubs := s.platform.scrubs + 1 } }.fire) ∧
  (∀ s : State, 16 ≤ s.errorsToday .systemSram s.on.a → s.errorsToday .slice s.on.a < 16 → (∀ c ∈ s.platform.jobs, c / 96 ≠ s.on.a / (6 * 2 ^ 20)) →
    ∃ t, exec .sramRowRepair s = .next t ∧ t.mem = s.mem ∧ t.platform.repairedRows = s.on.a :: s.platform.repairedRows ∧
      t.platform.corrected.find (errorKey .systemSram s.on.a) = none) ∧
  (∀ s : State, s.on.a < 32 → s.platform.channelLimit < s.channelErrors s.on.a → (∀ c ∈ s.platform.sparedChannels, c / 16 ≠ s.on.a / 16) →
    exec .channelSparing s = .next { s with platform := { s.platform with
      sparedChannels := s.on.a :: s.platform.sparedChannels } }.fire) ∧
  (∀ s : State, (s.channelErrors s.on.a ≤ s.platform.channelLimit ∨ ∃ c ∈ s.platform.sparedChannels, c / 16 = s.on.a / 16) →
    exec .channelSparing s = .next s)

/-- Register writes (04_memory R62, R63; 11_fabric R185; 17_command R283, R293, R296): each field as its register keeps it; a new root or
keys invalidate the whole virtual device; a write of FAB_WTAB or FAB_ITAB empties the window-entry caches; a write of EVBASE restarts
the ring; a ring size outside 6 to 16 leaves the ring off. -/
def Sys2Proof.Claims.RegisterWrites : Prop :=
  Writes .xlateRootWrite (fun x v => invalidating { v with root := bitsIn x 55 17 ||| bitsIn x 0 0 }) ∧
  Writes .xlateKeysWrite (fun x v => invalidating { v with keys := bitsIn x 31 0 }) ∧
  (∀ (vd : Nat) (x : W64) (s : State),
    let v := s.vdev vd
    let go := fun u : VDev => exec (.xlateInvCtlWrite vd x) s = .next (s.setVdev vd u).fire
    v.live = true →
    (x.toNat / 2 ^ 4 % 2 ^ 28 ≠ 0 → go { v with invErr := true }) ∧
    (x.toNat / 2 ^ 4 % 2 ^ 28 = 0 → x.getLsbD 0 = false → go { v with invErr := v.invErr && !x.getLsbD 3 }) ∧
    (x.toNat / 2 ^ 4 % 2 ^ 28 = 0 → x.getLsbD 0 = true → (v.invBusy = true ∨ 2 ≤ x.toNat / 2 % 4 ∨ (x.toNat / 2 % 4 = 0 ∧ x.toNat / 2 ^ 32 = 0)) →
      go { v with invErr := true }) ∧
    (x.toNat / 2 ^ 4 % 2 ^ 28 = 0 → x.getLsbD 0 = true → v.invBusy = false → x.toNat / 2 % 4 = 0 → x.toNat / 2 ^ 32 ≠ 0 →
      go { v with invErr := v.invErr && !x.getLsbD 3, invCount := BitVec.ofNat 32 (x.toNat / 2 ^ 32), invScope := 0,
                  invBusy := true, invPage := v.invVa.toNat / 2 ^ 16 % 2 ^ 40, invAll := false }) ∧
    (x.toNat / 2 ^ 4 % 2 ^ 28 = 0 → x.getLsbD 0 = true → v.invBusy = false → x.toNat / 2 % 4 = 1 →
      go (invalidating { v with
        invErr := v.invErr && !x.getLsbD 3, invCount := BitVec.ofNat 32 (x.toNat / 2 ^ 32), invScope := 1 }))) ∧
  (∀ (vd : Nat) (x : W64) (s : State), (s.vdev vd).live = true →
    let s1 := { s with clusters := s.clusters.mapKV (fun _ c => { c with windows := c.windows.filter (fun w => w.1 != vd) }) }
    exec (.fabWtabWrite vd x) s = .next (s1.setVdev vd { s.vdev vd with fabWtab := bitsIn x 55 0 }).fire ∧
    exec (.fabItabWrite vd x) s = .next (s1.setVdev vd { s.vdev vd with fabItab := bitsIn x 55 16 ||| bitsIn x 11 0 }).fire) ∧
  Writes .evbaseWrite (fun x v => { v with evBase := bitsIn x 55 6, evStuck := false, evWidx := 0, evFresh := true }) ∧
  Writes .evctlWrite (fun x v =>
    let n := x.toNat % 32
    let on := x.getLsbD 16 && decide (6 ≤ n) && decide (n ≤ 16)
    let u := { v with evEn := on, evVec := BitVec.ofNat 8 (x.toNat / 2 ^ 8), evLog2n := n, evStuck := false }
    if n ≠ v.evLog2n ∨ (on = true ∧ v.evEn = false) then { u with evWidx := 0, evFresh := true } else u) ∧
  Writes .caplenWrite (fun x v =>
    { v with capLen := BitVec.ofNat 32 x.toNat, capOn := decide (x.toNat % 2 ^ 32 ≠ 0),
             capture := if x.toNat % 2 ^ 32 = 0 then v.capture else [] }) ∧
  (∀ (x : W64) (vd : Nat) (s : State), (s.vdev vd).live = true →
    exec (.registerWrite vd 0x1008 x) s = .next (s.setVdev vd { s.vdev vd with fabCoord := bitsIn x 59 0 }).fire ∧
    exec (.registerWrite vd 0x2010 x) s = .next (s.setVdev vd { s.vdev vd with stowBase := bitsIn x 55 16 }).fire ∧
    exec (.registerWrite vd 0x2018 x) s = .next (s.setVdev vd { s.vdev vd with stowLen := BitVec.ofNat 32 x.toNat }).fire ∧
    (∀ i < 48, exec (.registerWrite vd (0x2080 + 8 * i) x) s =
      .next (s.setVdev vd { s.vdev vd with drain := (s.vdev vd).drain.set i (x.toNat % 2 ^ 48) }).fire) ∧
    exec (.registerWrite vd 0x7FF8 x) s = .next (s.setVdev vd (s.vdev vd)).fire)

/-- INVALIDATION_COMPLETE (04_memory R63): no TLB of a core or a cluster holds an entry of the virtual device whose leaf, of any size, maps a
page of the range, every other entry stays, the pointer cache holds none of its pointers, walks of pages of the range have been made anew,
no L1 holds dirty bytes of the virtual device (what old entries translated has reached its target), and BUSY reads 0; it waits while copies
move data by translations made before, and while a claim holds up a write-back. -/
def Sys2Proof.Claims.Invalidations : Prop :=
  ∀ s : State, (s.vdev s.on.a).invBusy = true →
    let vd := s.on.a
    let v := s.vdev vd
    ((s.copyTranslated vd = true ∨ (s.vdL1 vd).any s.dirtyClaimed = true) → exec .invalidationComplete s = .next s) ∧
    (s.copyTranslated vd = false → (s.vdL1 vd).any s.dirtyClaimed = false → ∃ t, exec .invalidationComplete s = .next t ∧
      (t.vdev vd).invBusy = false ∧ (∀ p ∈ t.pointers, p.1 ≠ vd) ∧ (∀ p ∈ s.pointers, p.1 ≠ vd → p ∈ t.pointers) ∧
      (∀ core, invalidated vd v (s.core core).tlb (t.core core).tlb) ∧ (∀ cl, invalidated vd v (s.cluster cl).tlb (t.cluster cl).tlb) ∧
      (∀ w ∈ t.walks, w.vd = vd → pageInRange v w.page → t.walk vd (w.page * 2 ^ 16) = .leaf w.leaf w.at_ w.size) ∧
      ((∀ core, ((s.core core).l1.map (·.line)).Nodup) → ∀ core, ∀ l ∈ (t.core core).l1, l.vd = vd → l.dirty = 0) ∧
      (s.vdL1 vd = [] → t.mem = s.mem))

/-- The event ring (17_command R283, R293), in host or in device memory: the entry's 32 bytes go to its place, then WIDX counts it; an event that finds events waiting, or the ring
off, waits in the buffer, a queue error as OVERFLOW; BUFFERED_EVENT_POST moves the oldest into the ring. -/
def Sys2Proof.Claims.EventRing : Prop :=
  (∀ (s : State) (vd at_ : Nat) (e : W64) (ev : Event),
    let v := s.vdev vd
    let frame := e.toNat / 2 ^ 16 % 2 ^ 40 * 2 ^ 16
    let pa := if e.toNat / 2 ^ 62 = 1 then 2 ^ 56 + frame else frame
    let w := v.evWidx
    v.evEn = true → v.evStuck = false → v.evFresh = false → v.evBuffer = [] → v.evLog2n = 6 → v.evBase.toNat % 65536 = 0 →
    v.evBase.toNat < sliceBase → permOk e .load = true → permOk e .store = true → keyOk v.keys e .load = true →
    keyOk v.keys e .store = true → e.getLsbD 7 = true → e.getLsbD 8 = true →
    (e.toNat / 2 ^ 62 = 1 ∨ (e.toNat / 2 ^ 62 = 0 ∧ frame + 65536 ≤ 2 ^ 39 ∧ ∀ p ∈ s.vdevs, p.2.track = false)) →
    s.poison = [] → Memory.wf s.mem = true →
    (∀ (m : List Host.Cell) (a : Nat), (∀ x, x < pa ∨ pa + 65536 ≤ x → Memory.get m x = Memory.get s.mem x) →
      v.evBase.toNat ≤ a → a < v.evBase.toNat + 65536 → ({ s with mem := m } : State).walk vd a = .leaf e at_ 0) →
    w - leValue (Memory.getBytes s.mem (pa + 8) 8) ≠ 64 →
    let t := s.post vd ev
    Memory.getBytes t.mem (pa + 64 + 32 * (w % 64)) 32 = ev.bytes ∧ Memory.getBytes t.mem pa 8 = leBytes 8 (w + 1) ∧
    t.vdevs = s.vdevs.set vd { v with evWidx := w + 1 } ∧
    (∀ a, pa + 8 ≤ a → (a < pa + 64 + 32 * (w % 64) ∨ pa + 96 + 32 * (w % 64) ≤ a) → Memory.get t.mem a = Memory.get s.mem a) ∧
    (∀ a < pa, Memory.get t.mem a = Memory.get s.mem a)) ∧
  (∀ (s : State) (vd : Nat) (ev : Event), (s.vdev vd).evEn = false ∨ ((s.vdev vd).evBuffer ≠ [] ∧ ev.type_ ≠ 2) →
    s.post vd ev = s.setVdev vd { s.vdev vd with
      evBuffer := (s.vdev vd).evBuffer ++ [if ev.type_ = 2 then { type_ := 3, queue := ev.queue } else ev] }) ∧
  (∀ (s s1 : State) (ev : Event) (rest : List Event), (s.vdev s.on.a).evBuffer = ev :: rest → s.ringPut s.on.a ev = .done s1 →
    exec .bufferedEventPost s = .next (s1.setVdev s.on.a { s1.vdev s.on.a with evBuffer := rest }).fire)

/-- Queue control (17_command R284, R291; log entry 65) and the team-fault interface (15_faults R262, 17_command R283): RESET empties a queue in
every state, which then waits at no segment; ACK of a HALTED queue lets it run; EN starts and stops it. TFCMD resumes the held or reporting
groups of a team as RTE would, resident or saved, one that would go on at an address that is no multiple of 4 being held (log entry 27), or
aborts the team; a team that is not so is not touched. -/
def Sys2Proof.Claims.QueueControl : Prop :=
  Controls .qctlAck (fun v => v.getLsbD 7 = true) ∧ Controls .qctlEnable (fun v => v.getLsbD 5 = true) ∧
  Controls .qctlDisable (fun v => v.getLsbD 5 = false) ∧
  (∀ (vd q : Nat) (v : W64) (s : State), q < 64 → (s.vdev vd).live = true →
    (v.getLsbD 8 = false → exec (.qctlReset vd q v) s = .next s) ∧
    (v.getLsbD 8 = true → ∃ t, exec (.qctlReset vd q v) s = .next t ∧ t.mem = s.mem ∧ t.teams = s.teams ∧ t.groups = s.groups ∧
      (t.vdev vd).queues = (s.vdev vd).queues.set q (controlled ((s.vdev vd).queues.get q {}) v) ∧
      ∀ n, t.seg vd n = { s.seg vd n with waiting := (s.seg vd n).waiting.filter (fun w => match w with
        | .packet d m _ => !(d == vd && m == q)
        | .group _ => true
        | .team _ => true) })) ∧
  (∀ (vd tk k : Nat) (x : W64) (s : State), x.toNat / 2 ^ 48 % 4 = 1 → s.tfLive vd x = some tk → (s.team tk).groups = [k] →
    ∃ t, exec (.tfcmdResume vd x) s = .next t ∧
      ((∀ a ∈ (s.group k).resumeAt, a.toNat % 4 = 0) → t.mem = s.mem ∧ t.group k = (s.group k).leaveTrap ∧
        (t.vdev vd).tfCmd = BitVec.ofNat 64 (x.toNat % 2 ^ 50)) ∧
      ((∃ a ∈ (s.group k).resumeAt, a.toNat % 4 ≠ 0) → t.group k = { s.group k with held := true } ∧
        (t.team tk).reported = Cause.code .misaligned)) ∧
  (∀ (vd tk : Nat) (x : W64) (s : State) (y : SavedTeam), x.toNat / 2 ^ 48 % 4 = 1 → s.tfLive vd x = none → s.tfSaved vd x = some tk →
    (s.vdev vd).saved.find tk = some y → (∀ g ∈ y.groups, ∀ a ∈ g.2.resumeAt, a.toNat % 4 = 0) →
    ∃ t, exec (.tfcmdResume vd x) s = .next t ∧ t.mem = s.mem ∧ (t.vdev vd).saved.find tk = some { y with
      groups := y.groups.mapKV (fun _ g => if g.held || g.report then g.leaveTrap else g) }) ∧
  (∀ (vd tk : Nat) (x : W64) (s : State), x.toNat / 2 ^ 48 % 4 = 2 → s.tfLive vd x = some tk → s.dirtyClaimed (s.team tk).core = false →
    (s.launch (s.team tk).launch).failed = none →
    ∃ t, exec (.tfcmdAbort vd x) s = .next t ∧ teamGone s t tk ∧
      ((s.team tk).groups.any (fun k => (s.group k).held) = true →
        (t.launch (s.team tk).launch).failed = some (causeOfCode (s.team tk).reported)) ∧
      (∀ k, (s.team tk).groups = [k] → (s.group k).held = false → (s.group k).report = true →
        (t.launch (s.team tk).launch).failed = some (causeOfCode (s.group k).trapcause))) ∧
  (∀ (vd : Nat) (x : W64) (s : State), (s.vdev vd).live = true → s.tfLive vd x = none → s.tfSaved vd x = none →
    (x.toNat / 2 ^ 48 % 4 = 1 → ∃ t, exec (.tfcmdResume vd x) s = .next t ∧ t.mem = s.mem ∧ t.teams = s.teams ∧ t.groups = s.groups) ∧
    (x.toNat / 2 ^ 48 % 4 = 2 → ∃ t, exec (.tfcmdAbort vd x) s = .next t ∧ t.mem = s.mem ∧ t.teams = s.teams ∧ t.groups = s.groups)) ∧
  (∀ (vd : Nat) (x : W64) (s : State) (tk : Nat), s.tfLive vd x = some tk →
    (s.team tk).vd = vd ∧ (s.team tk).launch = (s.vdev vd).tflSeq.toNat ∧ (s.team tk).index = x.toNat % 2 ^ 48 ∧
    ∃ k ∈ (s.team tk).groups, (s.group k).held = true ∨ (s.group k).report = true) ∧
  (∀ s : State,
    let v := s.vdev s.on.a
    let pa := v.dbm.toNat / 2 ^ 20 % 2 ^ 36 * 2 ^ 20 + 8 * v.dbIdx
    v.live = true → pa + 8 ≤ 2 ^ 39 → Memory.wf s.mem = true → ∃ t, exec .dbdataRead s = .next t ∧
      t.hostReply = (Memory.getBytes s.mem pa 8, false) ∧ Memory.getBytes t.mem pa 8 = List.replicate 8 0 ∧
      ∀ a, a < pa ∨ pa + 8 ≤ a → Memory.get t.mem a = Memory.get s.mem a)

/-- The save area (15_faults R268; 14_scheduling R244): words of its header hold the resident priority, the progress counter, the launch, the team's index and the hint; the first CSRs
of a group's block are `fpm`, `klen` and `abase` (R269). -/
def Sys2Proof.Claims.SaveAreas : Prop :=
  ∀ (x : SavedTeam) (l : Launch) (aging : Bool) (prio : Nat) (g : Group) (o : Option W64),
    let bs := x.bytes l aging prio
    (wordIn bs 8).toNat % 2 ^ 6 = prio % 2 ^ 6 ∧ (wordIn bs 8).getLsbD 6 = aging ∧ (wordIn bs 8).getLsbD 7 = l.idem ∧
    wordIn bs 0x10 = BitVec.ofNat 64 (x.team.progress % 2 ^ 48) ∧
    wordIn bs 0x18 = BitVec.ofNat 64 (x.team.launch % 2 ^ 32 * 2 ^ 32) ∧
    wordIn bs 0x20 = BitVec.ofNat 64 (x.team.index % 2 ^ 48) ∧ wordIn bs 0x28 = BitVec.ofNat 64 l.hint ∧
    wordIn (g.block o) 0 = g.fpm ∧ wordIn (g.block o) 8 = g.klen ∧ wordIn (g.block o) 16 = g.abase

namespace Sys2Proof.Claims

/-! ## Command queues -/

/-- A packet of a kind starts next: its queue is neither stopped nor aborted, and it asks for no signal. -/
def starts (s : State) (p : Packet) (kind : Nat) : Prop :=
  s.startable s.on.a s.on.b = some p ∧ (s.hqueue s.on.a s.on.b).state ≠ .aborted ∧ (p.words.getD 0 0).toNat % 256 = kind ∧
    p.words.getD 1 0 = 0

/-- A packet without a signal retires (17_command R288) from the state `s1`: a journal record of type 7 has its status, an event tells of
another status than NONE or of a refused stow, and the packet leaves its queue. -/
def Retires (i : Instr) (s s1 : State) (p : Packet) (c : Cause) : Prop :=
  let e : Ending :=
    { vd := s.on.a, queue := s.on.b, index := p.index, cookie := BitVec.ofNat 32 ((p.words.getD 0 0).toNat / 2 ^ 32),
      csig := 0, status := c.code, stow := p.stow, launch := p.launch }
  exec i s = .next ((s1.noteEnding e).dropPacket e).fire

/-- A SEGMENT packet starts next, its operation `op`, and no other of its queue has started. -/
def startsSegment (s : State) (p : Packet) (op : Nat) : Prop :=
  starts s p 4 ∧ (p.words.getD 3 0).toNat % 4 = op ∧
    ∀ y ∈ (s.hqueue s.on.a s.on.b).packets, y.started = true → (y.words.getD 0 0).toNat % 256 ≠ 4

/-- A SEGMENT packet that waits is noted at its segment, in the order of arrival (05_slices R76). -/
def WaitsAt (i : Instr) (s : State) (p : Packet) (seg : Nat) : Prop :=
  exec i s = .next ((s.joinQueue s.on.a seg (.packet s.on.a s.on.b p.index)).putPacket s.on.a s.on.b { p with started := true }).fire

/-- Bytes of memory outside `n` bytes at a key are as before. -/
def keepsOutside (s t : State) (key n : Nat) : Prop :=
  ∀ a, a < key ∨ key + n ≤ a → Memory.get t.mem a = Memory.get s.mem a

/-- Writes of memory reach no buffer, no uncorrectable granule and no dirty bitmap. -/
def plainMemory (s : State) : Prop :=
  noBuffers s ∧ Memory.wf s.mem = true ∧ s.poison = [] ∧ ∀ p ∈ s.vdevs, p.2.track = false

end Sys2Proof.Claims

open Sys2Proof Sys2Proof.Machine Sys2Proof.Claims

/-- Accepting packets (17_command R285, R286), and RUN (R300): the packet at QRIDX is journaled and joins its queue; a write index below QRIDX
or more than a ring ahead halts the queue with RESERVED_FIELD; a store of the write index is read again. Writing RUN 0 has every running
team saved; when none is left and no copy runs, the cores' lines are written back and STOPPED reads 1; RUN 1 resumes. -/
def Obligations.CommandQueues : Prop :=
  (∀ (s : State) (w : Nat) (ws : List W64),
    let vd := s.on.a
    let q := s.on.b
    let v := s.vdev vd
    let x := s.hqueue vd q
    let p : Packet := { index := x.ridx, words := ws }
    v.live = true → v.run = true → v.evBuffer.length < 256 → v.capOn = false → x.state = .running → x.en = true →
    s.readIndex vd q = .ok w → x.ridx < w → w ≤ x.ridx + 2 ^ x.log2n → s.ringSlot vd q x.ridx = .ok ws →
    (ws.getD 0 0).getLsbD 9 = false → s.packetBad vd p = none →
    ∃ t, exec .packetAccept s = .next t ∧ t.mem = s.mem ∧ t.groups = s.groups ∧
      t.hqueue vd q = { x with widx := w, ridx := x.ridx + 1, packets := x.packets ++ [p] } ∧
      (t.vdev vd).journal =
        ({ seq := v.jseq + 1, type_ := 1, queue := q, status := 0, index := BitVec.ofNat 32 x.ridx,
           a := BitVec.ofNat 64 ((ws.getD 0 0).toNat % 256 + (ws.getD 0 0).toNat / 2 ^ 32 * 2 ^ 32),
           b := ws.getD 1 0 } :: v.journal).take v.journalSize) ∧
  (∀ (s : State) (w : Nat),
    let vd := s.on.a
    let q := s.on.b
    let x := s.hqueue vd q
    (s.vdev vd).live = true → (s.vdev vd).run = true → (s.vdev vd).evBuffer.length < 256 → x.state = .running →
    x.en = true → s.readIndex vd q = .ok w → (w < x.ridx ∨ x.ridx + 2 ^ x.log2n < w) →
    ∃ t, exec .packetAccept s = .next t ∧ (t.hqueue vd q).state = .halted ∧ (t.hqueue vd q).packets = x.packets ∧
      (t.hqueue vd q).ridx = x.ridx ∧ (t.hqueue vd q).pidx = BitVec.ofNat 32 x.ridx ∧
      (t.hqueue vd q).errCount = min 0xFFFF (x.errCount + 1) ∧
      (t.hqueue vd q).cause = if x.errCount = 0 then Cause.code .reservedField else x.cause) ∧
  (∀ (s : State) (vd q key : Nat) (n : W64), plainMemory s →
    let x := s.hqueue vd q
    s.ioPlace vd x.widxAt.toNat 8 .load = .ok key →
    ∃ t, exec (.writeIndexStore vd q n) s = .next t ∧
      (x.state = .running → x.ridx ≤ n.toNat → n.toNat ≤ x.ridx + 2 ^ x.log2n →
        t.hqueue vd q = { x with widx := n.toNat } ∧ t.load64 key = n ∧ keepsOutside s t key 8) ∧
      (x.state = .stopped → t.hqueue vd q = x ∧ t.load64 key = n ∧ keepsOutside s t key 8)) ∧
  (∀ s : State, (s.vdev s.on.a).live = true → (s.vdev s.on.a).run = true →
    ∃ t, exec .runStop s = .next t ∧ (t.vdev s.on.a).run = false ∧ (t.vdev s.on.a).stopped = false ∧
      ∀ tk, (s.teams.find tk).isSome = true → (s.team tk).vd = s.on.a → (s.team tk).phase = .running →
        (t.team tk).phase = .saving) ∧
  (∀ s : State,
    let v := s.vdev s.on.a
    v.live = true → v.run = false → v.stopped = false → (∀ p ∈ s.teams, p.2.vd ≠ s.on.a) →
    (∀ p ∈ s.copies, p.2.vd = s.on.a → p.2.phase ≠ .running) → (∀ c, s.dirtyClaimed c = false) →
    ∃ t, exec .stopComplete s = .next t ∧ (t.vdev s.on.a).stopped = true ∧ (t.vdev s.on.a).run = false ∧
      (∀ (c : Nat) (l : L1Line), v.clusters.contains (c / 8) = true → (s.core c).l1 = [l] → l.bad = 0 →
        (t.core c).l1 = [{ l with dirty := 0 }])) ∧
  (∀ s : State, (s.vdev s.on.a).live = true → (s.vdev s.on.a).run = false →
    exec .runResume s = .next (s.setVdev s.on.a { s.vdev s.on.a with run := true, stopped := false }).fire)

/-- What packets do when they start, and how they retire (17_command R286 to R292, R303): a LAUNCH becomes the next launch with its packet's and
its kernel record's fields; a BARRIER that holds retires, waits where it does not, and aborts its queue where a signal is negative; in
an aborted queue each packet retires with the abort status; SIGNAL, MARKER and SEGMENT packets act and retire; a retirement adds 1 to
the signal, or writes 0x8000000000000000 to it and posts COMPLETE. -/
def Obligations.Packets : Prop :=
  (∀ (s : State) (p : Packet) (r : KernelRecord), starts s p 1 → p.attachBad = false →
    (p.words.getD 6 0).toNat % 4 = 0 → (s.vdev s.on.a).capOn = false →
    s.kernelRecord s.on.a (p.words.getD 2 0).toNat = .ok r →
    let w := fun n => p.words.getD n 0
    ∃ t l, exec .launch s = .next t ∧ t.launchSeq = s.launchSeq + 1 ∧ t.launches.find (s.launchSeq + 1) = some l ∧ t.mem = s.mem ∧
      l.vd = s.on.a ∧ l.queue = s.on.b ∧ l.packet = p.index ∧ l.cookie = BitVec.ofNat 32 ((w 0).toNat / 2 ^ 32) ∧ l.csig = w 1 ∧
      l.kobj = w 2 ∧ l.grid = ((w 3).toNat % 2 ^ 16, (w 3).toNat / 2 ^ 16 % 2 ^ 16, (w 3).toNat / 2 ^ 32 % 2 ^ 16) ∧
      l.hint = (w 4).toNat ∧ l.prio = (w 5).toNat % 64 ∧ l.idem = (w 5).getLsbD 7 ∧ l.noRestore = (w 5).getLsbD 8 ∧
      l.attach.length = (w 5).toNat / 2 ^ 16 % 16 ∧ l.scratch = (w 5).toNat / 2 ^ 32 % 64 ∧ l.tvec = BitVec.ofNat 56 (w 6).toNat ∧
      l.tcmask = BitVec.ofNat 32 (w 7).toNat ∧ l.code = BitVec.ofNat 56 (r.w.getD 0 0).toNat ∧
      l.entryP = BitVec.ofNat 56 ((r.w.getD 1 0).toNat % 2 ^ 32) ∧ l.nP = (r.w.getD 2 0).toNat % 64 ∧
      l.nC = (r.w.getD 2 0).toNat / 64 % 64 ∧ l.eligible = true ∧ l.started = true ∧
      (t.hqueue s.on.a s.on.b).packets = (s.hqueue s.on.a s.on.b).packets.map (fun y =>
        if y.index = p.index ∧ y.launch = none then { p with started := true, launch := some (s.launchSeq + 1) } else y)) ∧
  (∀ (s : State) (p : Packet), starts s p 2 →
    (s.barrierTest s.on.a p = .holds → Retires .barrier s s p .none) ∧
    (s.barrierTest s.on.a p = .error → Retires .barrier s s p .remoteContained) ∧
    (s.barrierTest s.on.a p = .waits →
      exec .barrier s = .next (s.putPacket s.on.a s.on.b { p with started := true }).fire) ∧
    (s.barrierTest s.on.a p = .negative →
      let x := s.hqueue s.on.a s.on.b
      Retires .barrier s (s.setHqueue s.on.a s.on.b
        { x with state := .aborted, pidx := BitVec.ofNat 32 p.index }) p .softwareTrap) ∧
    (∀ c, s.barrierTest s.on.a p = .fault c → Retires .barrier s s p c)) ∧
  (∀ (s : State) (p : Packet), (s.hqueue s.on.a s.on.b).packets.find? (fun y => y.started && y.kind == 2) = some p →
    p.words.getD 1 0 = 0 → s.barrierTest s.on.a p = .holds → Retires .barrierResolve s s p .none) ∧
  (∀ (s : State) (vd key : Nat) (p : Packet) (e : W64), p.entries = [e] →
    s.ioSignal vd (BitVec.ofNat 64 (e.toNat / 16 % 2 ^ 52 * 16)) .load = .ok key → s.poisoned key 16 = false →
    let v := (s.load64 key).toInt
    let c : Int := (e.toNat / 2 ^ 56 : Nat)
    (v < 0 → s.barrierTest vd p = .negative) ∧
    (0 ≤ v → (s.load64 (key + 8)).getLsbD 32 = true → s.barrierTest vd p = .error) ∧
    (0 ≤ v → (s.load64 (key + 8)).getLsbD 32 = false →
      s.barrierTest vd p =
        if (e.toNat % 16 = 1 ∧ v ≥ c) ∨ (e.toNat % 16 = 2 ∧ v > c) ∨ (e.toNat % 16 = 3 ∧ v = c) ∨
          (3 < e.toNat % 16 ∧ v ≠ c) then .holds else .waits)) ∧
  (∀ (s : State) (p : Packet), (s.hqueue s.on.a s.on.b).state = .aborted → s.startable s.on.a s.on.b = some p →
    p.words.getD 1 0 = 0 → Retires .abortedPacketRetire s s p .softwareTrap) ∧
  (∀ (s s1 : State) (p : Packet), starts s p 3 →
    ((p.words.getD 4 0).getLsbD 0 = false → s.changeSignal s.on.a (p.words.getD 2 0) (.add (p.words.getD 3 0)) = .done s1 →
      Retires .signalAdd s s1 p .none) ∧
    ((p.words.getD 4 0).getLsbD 0 = true → s.changeSignal s.on.a (p.words.getD 2 0) (.set (p.words.getD 3 0)) = .done s1 →
      Retires .signalSet s s1 p .none)) ∧
  (∀ (s : State) (vd key : Nat) (a n : W64), plainMemory s → (s.vdev vd).capture = [] →
    s.ioSignal vd a .atomic = .ok key → sliceBase ≤ a.toNat → s.claimed key 8 = false →
    ∃ t u, s.changeSignal vd a (.add n) = .done t ∧ t.load64 key = s.load64 key + n ∧ keepsOutside s t key 8 ∧
      s.changeSignal vd a (.set n) = .done u ∧ u.load64 key = n ∧ keepsOutside s u key 8) ∧
  (∀ (s : State) (p : Packet), starts s p 5 →
    Retires .marker s (s.journal s.on.a 8 s.on.b 0 p.index (p.words.getD 2 0) (p.words.getD 3 0)) p .none) ∧
  (∀ (s s1 : State) (p : Packet) (st : Nat), startsSegment s p 0 →
    s.stowNamed s.on.a (p.words.getD 2 0) (.packet s.on.a s.on.b p.index) = some (st, s1) →
    if st = 5 then Retires .segmentStow s s1 { p with stow := 0 } .attachMiss
    else Retires .segmentStow s s1 { p with stow := st } .none) ∧
  (∀ (s s1 : State) (p : Packet) (i : Nat) (b : Nat), s.segNamed s.on.a (p.words.getD 2 0) = some i →
    let g := s.seg s.on.a i
    let w := SegWaiter.packet s.on.a s.on.b p.index
    let q := { p with stow := 0 }
    (startsSegment s p 1 → s.dropSeg s.on.a i none w = some (b, s1) → Retires .segmentDrop s s1 q .none) ∧
    (startsSegment s p 0 → g.state = .restoring → WaitsAt .segmentStow s p i) ∧
    (startsSegment s p 1 → (g.state = .stowing ∨ g.state = .restoring) → WaitsAt .segmentDrop s p i) ∧
    (startsSegment s p 2 → (g.state = .local_ ∨ g.state = .resident ∨ g.state = .restoring) →
      Retires .segmentPin s (s.setSeg s.on.a i { g with pin := true }) q .none) ∧
    (startsSegment s p 2 → g.state = .stowed → (s.vdCores s.on.a).contains ((p.words.getD 4 0).toNat % 2 ^ 10) = true →
      exec .segmentPin s = .next ((s.beginRestore s.on.a i ((p.words.getD 4 0).toNat % 2 ^ 10) true).putPacket s.on.a s.on.b
        { p with started := true }).fire) ∧
    (startsSegment s p 2 → g.state = .stowed → (s.vdCores s.on.a).contains ((p.words.getD 4 0).toNat % 2 ^ 10) = false →
      Retires .segmentPin s s q .sliceRange) ∧
    (startsSegment s p 3 → Retires .segmentUnpin s (s.setSeg s.on.a i { g with pin := false }) q .none)) ∧
  (∀ (s : State) (p : Packet), s.segNamed s.on.a (p.words.getD 2 0) = none →
    let q := { p with stow := 0 }
    (startsSegment s p 1 → Retires .segmentDrop s s q .attachMiss) ∧
    (startsSegment s p 2 → Retires .segmentPin s s q .attachMiss) ∧
    (startsSegment s p 3 → Retires .segmentUnpin s s q .attachMiss)) ∧
  (∀ (s : State) (e : Ending) (key : Nat), plainMemory s → s.ioSignal e.vd e.csig .atomic = .ok key → sliceBase ≤ e.csig.toNat →
    s.claimed key 8 = false → e.csig ≠ 0 → (s.vdev e.vd).evEn = false → e.stow = 0 →
    (s.vdev e.vd).capture = [] →
    ∃ t, s.retire e = some t ∧ keepsOutside s t key 8 ∧
      t.load64 key = (if e.status = 0 then s.load64 key + 1 else 0x8000000000000000) ∧
      (t.vdev e.vd).journal =
        ({ seq := (s.vdev e.vd).jseq + 1, type_ := 7, queue := e.queue, status := e.status, index := BitVec.ofNat 32 e.index,
           a := e.value, b := 0 } :: (s.vdev e.vd).journal).take (s.vdev e.vd).journalSize ∧
      (t.vdev e.vd).evBuffer = (s.vdev e.vd).evBuffer ++ (if e.status = 0 then [] else
        [{ type_ := 1, cause := e.status, queue := e.queue, cookie := e.cookie, index := BitVec.ofNat 64 e.index, a := e.value }]))

namespace Sys2Proof.Claims

/-! ## The fabric's other side -/

/-- A request arrives at a live virtual device by a port in service, from a member in good standing, its packet whole and authentic and its tag
not retired, with none before it; replies go out by the port at once. -/
def arrives (s : State) (vd : Nat) (r : FabReq) : Prop :=
  s.on.c = 0 ∧ s.arrivals = [] ∧ (s.vdev vd).live = true ∧ (s.port r.port.val).up = true ∧ (s.port r.port.val).locked = false ∧
    s.contained.contains (r.grid.toNat, r.src.toNat) = false ∧ r.tagFails = false ∧ s.tagRetired vd r.gentag.toNat = false ∧
    (s.port r.port.val).failed = false ∧ s.outbox = [] ∧ (s.port r.port.val).paused.contains 1 = false

/-- The state in which the request's packet has arrived: in protected mode its port has counted the flits, of 232 payload bytes each (11_fabric
R198, R201). -/
def received (s : State) (r : FabReq) : State :=
  let p := s.port r.port.val
  if p.session then s.setPort r.port.val { p with gotFlits := p.gotFlits + max 1 ((24 + r.data.length + 231) / 232) } else s

/-- A reply has gone out by the port on RSP. -/
def replied (s : State) (r : FabReq) (kind : Nat) (bs : List Byte) : List SentPkt :=
  s.sent ++ [{ vc := 1, kind := kind, tag := r.tag, port := r.port.val, data := bs, sentAt := s.portNow }]

/-- The request is answered with an error reply whose one payload byte is the cause. -/
def Refuses (i : Instr) (s : State) (r : FabReq) (c : Cause) : Prop :=
  exec i s = .next ((received s r).sendReply r.port.val r.tag 0x12 [c.code]).fire

/-- A request that may write a slice, under an import that grants `perms`, has its bytes written there, and is acknowledged; one that may
not is answered with its cause. `as` is the request as the import table sees it. -/
def WritesImport (mk : Nat → FabReq → Instr) (perms : List Nat) (ok : FabReq → Prop) (as : FabReq → FabReq) : Prop :=
  ∀ (s : State) (vd : Nat) (r : FabReq), arrives s vd r → ok r →
    (∀ a key, plainMemory s → (s.vdev vd).capture = [] → sliceBase ≤ a →
      s.importAccess vd (as r) { kind := 0, perms := perms, n := r.data.length } .store = .ok (a, [(key, r.data.length)]) →
      s.claimed key r.data.length = false →
      ∃ t, exec (mk vd r) s = .next t ∧ Memory.getBytes t.mem key r.data.length = r.data ∧
        keepsOutside s t key r.data.length ∧ t.sent = replied s r 0x11 [] ∧ t.groups = s.groups) ∧
    (∀ c, c ≠ .none → s.importAccess vd (as r) { kind := 0, perms := perms, n := r.data.length } .store = .error c →
      Refuses (mk vd r) s r c)

/-- What an atomic of 32 bits leaves in memory; AFADD rounds to nearest. -/
def narrowAtomic (op : AtomOp) (old b new : W32) : W32 :=
  match op with
  | .add => old + b
  | .smin => if old.toInt ≤ b.toInt then old else b
  | .smax => if b.toInt ≤ old.toInt then old else b
  | .umin => if old.toNat ≤ b.toNat then old else b
  | .umax => if b.toNat ≤ old.toNat then old else b
  | .and => old &&& b
  | .or => old ||| b
  | .xor => old ^^^ b
  | .xch => b
  | .cas => if old = b then new else old
  | .fadd => (roundFp32 .rn ((fp32 old).add .rn (fp32 b)).1).1

/-- A gathering in which every contribution is present. -/
def complete (s : State) (g : Gathering) : Prop :=
  s.gathering g.at_ = some g ∧ g.fail = none ∧ g.expected = g.got.length ∧ g.held = []

/-- The gatherings at other places. -/
def others (s : State) (k : GathKey) : List Gathering := s.gatherings.filter (fun x => x.at_ != k)

/-- A gathering that holds nothing is open, with the signal whose key is `sig` in a slice, no claim on it and no error recorded. -/
def opensSignal (s : State) (g : Gathering) (sig : Nat) : Prop :=
  plainMemory s ∧ s.gathering g.at_ = some g ∧ g.fail = none ∧ g.got.length < g.expected ∧ g.expected - g.got.length < 2 ^ 16 ∧ g.held = [] ∧
    ∃ ws, s.importEntry g.vd g.at_.grid.toNat g.at_.key.toNat = .ok ws ∧ sliceBase ≤ (ws.getD 3 0).toNat / 16 % 2 ^ 52 * 16 ∧
      s.ioSignal g.vd (BitVec.ofNat 64 ((ws.getD 3 0).toNat / 16 % 2 ^ 52 * 16)) .atomic = .ok sig ∧ s.claimed sig 16 = false ∧
      (s.load64 (sig + 8)).getLsbD 32 = false

/-- The gathering closes with an error: the signal's ERR, cause and number of missing contributions are recorded, HINT is kept. -/
def FailsWith (i : Instr) (s : State) (g : Gathering) (sig : Nat) (c : Cause) : Prop :=
  ∃ t, exec i s = .next t ∧ t.gatherings = others s g.at_ ∧ keepsOutside s t (sig + 8) 8 ∧
    (t.load64 (sig + 8)).toNat = (s.load64 (sig + 8)).toNat % 2 ^ 32 + 2 ^ 32 + c.code.toNat * 2 ^ 40 +
      (g.expected - g.got.length) * 2 ^ 48

/-- What a gathering of an operation makes of the elements `x :: r` at one place of its contributions, in ascending coordinate (03_numbers R50). -/
def gathersTo (op : Nat) (x : Nat) (r : List Nat) (v : Nat) : Prop :=
  let num := fun (n : Nat) => if op = 5 ∨ op = 6 then (BitVec.ofNat 64 n).toInt else (BitVec.ofNat 32 n).toInt
  if op = 0 then v = (r.foldl (fun a y => (roundFp32 .rn ((fp32 a).add .rn (fp32 (BitVec.ofNat 32 y))).1).1) (BitVec.ofNat 32 x)).toNat
  else if op = 1 then v = (x :: r).sum % 2 ^ 32
  else if op = 2 then v = (x :: r).sum % 2 ^ 64
  else if op = 3 ∨ op = 5 then v ∈ x :: r ∧ ∀ y ∈ x :: r, num v ≤ num y
  else v ∈ x :: r ∧ ∀ y ∈ x :: r, num y ≤ num v

end Sys2Proof.Claims

open Sys2Proof Sys2Proof.Machine Sys2Proof.Claims

/-- Requests performed under an import (11_fabric R189 to R193, 06_copy R360): a read is answered with the bytes, a write, a multicast write and
a bulk write are acknowledged, an atomic answers with the old value, an addition to a signal is acknowledged, and each error is an
error reply with its cause; a request that meets a claim waits (06_copy R89). A reply goes out on RSP, or waits while the port is paused. A
packet of a contained source, or at a port out of service, is discarded; one that fails its tag in protected mode locks the port (R201); one
with a retired tag, or an atomic of no such operation or size, is discarded and counted. -/
def Obligations.FabricImports : Prop :=
  (∀ (s : State) (vd a key : Nat) (r : FabReq), arrives s vd r → sliceBase ≤ a →
    s.importAccess vd r { kind := 0, perms := [59], n := r.size.toNat } .load = .ok (a, [(key, r.size.toNat)]) →
    (s.claimed key r.size.toNat = false → exec (.fabricRead vd r) s =
      .next ((received s r).sendReply r.port.val r.tag 0x10 (Memory.getBytes s.mem key r.size.toNat)).fire) ∧
    (s.claimed key r.size.toNat = true → exec (.fabricRead vd r) s =
      .next ({ received s r with arrivals := [(.fabricRead vd r, { a := vd, b := r.src.toNat + 1, c := 1 })] } : State).fire)) ∧
  (∀ (s : State) (vd : Nat) (r : FabReq) (c : Cause), arrives s vd r → c ≠ .none →
    s.importAccess vd r { kind := 0, perms := [59], n := r.size.toNat } .load = .error c → Refuses (.fabricRead vd r) s r c) ∧
  WritesImport .fabricWrite [58] (fun _ => True) id ∧ WritesImport .fabricMulticastWrite [58, 56] (fun _ => True) id ∧
  WritesImport .fabricBulkWrite [58] (fun r => r.op ≠ 0xC) (fun r => { r with bulk := true }) ∧
  (∀ (s : State) (vd a key : Nat) (r : FabReq) (op : AtomOp), arrives s vd r → plainMemory s → (s.vdev vd).capture = [] →
    sliceBase ≤ a →
    [AtomOp.add, .smin, .smax, .umin, .umax, .and, .or, .xor, .xch, .cas, .fadd][r.op.toNat]? = some op →
    s.importAccess vd r { kind := 0, perms := [57], n := r.size.toNat } .atomic = .ok (a, [(key, r.size.toNat)]) →
    s.claimed key r.size.toNat = false →
    let arg := fun i => leValue ((r.data.drop (i * r.size.toNat)).take r.size.toNat)
    (r.size = 4 → ∃ t, exec (.fabricAtomic vd r) s = .next t ∧ keepsOutside s t key 4 ∧
      t.sent = replied s r 0x10 (leBytes 4 (s.load32 key).toNat) ∧
      t.load32 key = narrowAtomic op (s.load32 key) (BitVec.ofNat 32 (arg 0)) (BitVec.ofNat 32 (arg 1))) ∧
    (r.size = 8 → op ≠ .fadd → ∃ t, exec (.fabricAtomic vd r) s = .next t ∧ keepsOutside s t key 8 ∧
      t.sent = replied s r 0x10 (leBytes 8 (s.load64 key).toNat) ∧
      t.load64 key = wideAtomic op (s.load64 key) (BitVec.ofNat 64 (arg 0)) (BitVec.ofNat 64 (arg 1)))) ∧
  (∀ (s : State) (vd key : Nat) (r : FabReq) (ws : List W64), arrives s vd r → plainMemory s → (s.vdev vd).capture = [] →
    s.importCheck vd r { kind := 3, perms := [57], n := 8 } = .ok ws →
    let a := (ws.getD 1 0).toNat % 2 ^ 56 + r.offset.toNat
    sliceBase ≤ a → s.ioSignal vd (BitVec.ofNat 64 a) .atomic = .ok key → s.claimed key 8 = false →
    ∃ t, exec (.fabricSignalAdd vd r) s = .next t ∧ keepsOutside s t key 8 ∧ t.sent = replied s r 0x11 [] ∧
      t.load64 key = s.load64 key + BitVec.ofNat 64 (leValue (r.data.take 8))) ∧
  (∀ (s : State) (vd i : Nat) (r : FabReq) (ws : List W64), arrives s vd r → r.op = 0xC → (s.vdev vd).capture = [] →
    s.importCheck vd r { kind := 0, perms := [58], n := r.data.length - 8 } = .ok ws →
    s.segAtBase vd (BitVec.ofNat 64 ((ws.getD 1 0).toNat % 2 ^ 56 + r.offset.toNat)) = some i →
    let g := s.seg vd i
    let c := leValue (r.data.take 8)
    let put := fun (s : State) => s.cmbResult (s.cmbAt vd g) (c % 2 ^ 24) (c / 2 ^ 48 % 2 ^ 16) r.gentag.toNat (r.data.drop 8)
    (s.load64 g.base).getLsbD 63 = true → g.cluster = false → s.claimed g.base (bufferBytes (s.load64 g.base)) = false →
    (put s).releaseHeld (s.cmbAt vd g) = false →
    exec (.fabricBulkWrite vd r) s = .next ((put (received s r)).sendReply r.port.val r.tag 0x11 []).fire) ∧
  (∀ (s : State) (port kind : Nat) (tag : BitVec 16) (bs : List Byte),
    let p := s.port port
    let x : SentPkt := { vc := 1, kind := kind, tag := tag, port := port, data := bs }
    (p.paused.contains 1 = true → s.sendReply port tag kind bs = { s with outbox := s.outbox ++ [x] }) ∧
    (p.paused.contains 1 = false → s.outbox = [] → p.session = false →
      s.sendReply port tag kind bs = { s with sent := s.sent ++ [{ x with sentAt := s.portNow }] }) ∧
    (p.paused.contains 1 = false → s.outbox = [] → p.session = true →
      s.sendReply port tag kind bs = ({ s with sent := s.sent ++ [{ x with sentAt := s.portNow }] } : State).setPort port
        { p with sentFlits := p.sentFlits + max 1 ((bs.length + 231) / 232) })) ∧
  (∀ (s : State) (vd : Nat) (r : FabReq), s.on.c = 0 → (s.vdev vd).live = true →
    let p := s.port r.port.val
    let out := p.up = false ∨ p.locked = true ∨ s.contained.contains (r.grid.toNat, r.src.toNat) = true
    (out → exec (.fabricWrite vd r) s = .next s) ∧
    (¬ out → p.session = true → r.tagFails = true → exec (.fabricWrite vd r) s = .next (s.setPort r.port.val
      { p with locked := true, draining := some false, failed := false, session := false }).fire) ∧
    (¬ out → r.tagFails = false → s.tagRetired vd r.gentag.toNat = true → exec (.fabricWrite vd r) s =
      .next (s.setPort r.port.val { p with discarded := p.discarded + 1 }).fire) ∧
    (10 < r.op.toNat ∨ (r.size ≠ 4 ∧ (r.size ≠ 8 ∨ r.op.toNat = 10)) → exec (.fabricAtomic vd r) s =
      .next (s.setPort r.port.val { p with discarded := p.discarded + 1 }).fire))

/-- Spawn records and gatherings that arrive (13_execution R238, R241; 11_fabric R194, R195, R197; 03_numbers R50): a record joins its open bin
with room, waits at a full one, and is refused where there is no such bin; a gathering opens, counts each contribution once, and when all are
present its result is written and its region's signal rises by their number; a timer or containment closes it with the signal's error word. -/
def Obligations.RecordsAndGatherings : Prop :=
  (∀ (s : State) (vd : Nat) (r : FabReq) (ws : List W64), arrives s vd r → (s.vdev vd).capture = [] →
    s.importCheck vd r { kind := 2, perms := [58], n := r.data.length } = .ok ws →
    let k := (ws.getD 1 0).toNat % 2 ^ 32
    let bin := r.offset.toNat / 64
    let b := (s.launch k).bin bin
    let bytes := arrivedRecord bin r.data
    let known := (s.launches.find k).isSome = true ∧ (s.launch k).retired = false ∧ (s.launch k).vd = vd ∧ (s.launch k).declares bin = true
    (known → b.size = bytes.length → b.open_ = true → (s.vdev vd).heldRecords = [] → b.records.length < binRoom →
      exec (.fabricSpawnRecord vd r) s =
        .next (((received s r).addRecord k bin r.gentag.toNat bytes).sendReply r.port.val r.tag 0x11 []).fire) ∧
    (known → b.size = bytes.length → b.open_ = true → (s.vdev vd).heldRecords = [] → binRoom ≤ b.records.length →
      exec (.fabricSpawnRecord vd r) s = .next ((received s r).setVdev vd { s.vdev vd with
        heldRecords := [{ launch := k, bin := bin, bytes := bytes, gentag := r.gentag, tag := r.tag, port := r.port.val }] }).fire) ∧
    (¬ known → Refuses (.fabricSpawnRecord vd r) s r .windowKey) ∧
    (known → b.size ≠ bytes.length → Refuses (.fabricSpawnRecord vd r) s r .windowPerm) ∧
    (known → b.size = bytes.length → b.open_ = false → Refuses (.fabricSpawnRecord vd r) s r .queueClosed)) ∧
  (∀ (bin : Nat) (bs : List Byte), 8 ≤ bs.length →
    let h := leValue (bs.take 8)
    let code := if bs.length = 16 then 0 else if bs.length = 32 then 1 else 2
    (arrivedRecord bin bs).drop 8 = bs.drop 8 ∧
      leValue ((arrivedRecord bin bs).take 8) = h / 2 ^ 21 * 2 ^ 21 + bin % 64 * 2 ^ 15 + code * 4 + 2) ∧
  (∀ (s : State) (m : GathMsg) (vd : Nat), s.gatherVd m.at_ = some vd → s.contained = [] →
    contributionOk (s.vdev vd).axes m = true →
    let put := fun (g : Gathering) => exec (.gatheringContribution m) s = .next ({ s with gatherings := s.gatherings.map (fun x =>
      if x.at_ = g.at_ then g else x) } : State).fire
    (s.gathering m.at_ = none →
      exec (.gatheringContribution m) s = .next ({ s with gatherings := s.gatherings ++
        [{ at_ := m.at_, vd := vd, op := m.op.val, size := m.size.val, pattern := m.pattern,
           expected := patCount (s.vdev vd).axes m.pattern, got := [(m.src, m.data)] }] } : State).fire) ∧
    (∀ g, s.gathering m.at_ = some g → g.fail = none →
      let same := g.op = m.op.val ∧ g.size = m.size.val ∧ g.pattern = m.pattern
      (¬ same → exec (.gatheringContribution m) s = .next s) ∧
      (same → g.got.find m.src = none → g.got.length < g.expected → put { g with got := g.got.set m.src m.data }) ∧
      (same → ((g.got.find m.src).isSome = true ∨ g.expected ≤ g.got.length) → put { g with held := g.held ++ [m] }))) ∧
  (∀ (s : State) (g : Gathering) (ws : List W64) (a key sig : Nat), plainMemory s → complete s g → (s.vdev g.vd).capture = [] →
    s.importEntry g.vd g.at_.grid.toNat g.at_.key.toNat = .ok ws → (ws.getD 0 0).getLsbD 55 = true →
    let n := 8 * 2 ^ g.size
    let at_ := (ws.getD 3 0).toNat / 16 % 2 ^ 52 * 16
    g.result.length = n → sliceBase ≤ a → sliceBase ≤ at_ →
    s.importAccess g.vd g.asRequest { kind := 0, perms := [55], n := n } .store = .ok (a, [(key, n)]) →
    s.ioSignal g.vd (BitVec.ofNat 64 at_) .atomic = .ok sig → (key + n ≤ sig ∨ sig + 16 ≤ key) →
    s.claimed key n = false → s.claimed sig 16 = false → s.claimed sig 8 = false →
    ∃ t, exec (.fabricReduction g.vd g.at_) s = .next t ∧ t.gatherings = others s g.at_ ∧
      Memory.getBytes t.mem key n = g.result ∧ t.load64 sig = s.load64 sig + BitVec.ofNat 64 g.expected ∧
      (∀ x, (x < key ∨ key + n ≤ x) → (x < sig ∨ sig + 8 ≤ x) → Memory.get t.mem x = Memory.get s.mem x)) ∧
  (∀ (g : Gathering) (w n : Nat) (p : Nat × List Byte) (r : List (Nat × List Byte)), g.op ≤ 6 → g.got = p :: r →
    (∀ x ∈ p :: r, x.2.length = w * n) → w = (if g.op = 2 ∨ g.op = 5 ∨ g.op = 6 then 8 else 4) →
    g.result.length = w * n ∧
      ∀ i < n,
        let e := fun (bs : List Byte) => leValue ((bs.drop (w * i)).take w)
        gathersTo g.op (e p.2) (r.map (fun x => e x.2)) (e g.result)) ∧
  (∀ (s : State) (g : Gathering) (sig : Nat), opensSignal s g sig →
    FailsWith (.reductionTimerExpiry g.vd g.at_) s g sig .remoteTimeout ∧
    ∀ m, s.contained = [] → s.gatherings = [g] → (∀ x ∈ s.slots, x.2.busy = false) → m < gridTotal (s.vdev g.vd).axes →
      patWithin (s.vdev g.vd).axes g.pattern m = true → g.got.find m = none →
      FailsWith (.containment g.at_.grid m) s g sig .remoteContained)

/-- Containment and ports (11_fabric R184, R197, R199 to R201): a contained member's outstanding requests complete with REMOTE_CONTAINED; a port
enters or leaves service once nothing is outstanding, with a new session in protected mode; pauses, and what they hold back; folds, lane swaps;
a flit that fails is replayed once, and a second tag failure in protected mode locks the port, which returns by re-attestation alone. -/
def Obligations.ContainmentAndPorts : Prop :=
  (∀ (s : State) (grid : BitVec 16) (m : Nat), s.contained.contains (grid.toNat, m) = false → s.gatherings = [] → s.arrivals = [] →
    let s1 := { s with contained := (grid.toNat, m) :: s.contained }
    let due := s.slots.keysWhere (fun _ x => x.busy && x.grid.toNat == grid.toNat && x.targets.contains m)
    (due = [] → exec (.containment grid m) s = .next s1.fire) ∧
    (∀ i, due = [i] → exec (.containment grid m) s =
      .next (s1.replyFor i m (.error (Cause.code .remoteContained))).fire)) ∧
  (∀ (s : State) (grid : BitVec 16) (m : Nat), s.contained.contains (grid.toNat, m) = true →
    exec (.containmentCleared grid m) s =
      .next ({ s with contained := s.contained.filter (fun x => x != (grid.toNat, m)) } : State).fire) ∧
  (∀ (s : State) (n : Fin 16) (up : Bool),
    let p := s.port n.val
    (p.draining.getD p.up ≠ up → (up = true → p.locked = false) →
      exec (.portServiceChange n up) s = .next (s.setPort n.val { p with draining := some up }).fire) ∧
    (up = true → p.locked = true → exec (.portServiceChange n up) s = .next s)) ∧
  (∀ s : State, (∀ p ∈ s.slots, p.2.busy = false) → ∀ n up, s.ports.find n = some up → ∀ b, up.draining = some b →
    s.portStep.ports.find n = some { up with
      up := b, draining := none, session := b && s.platform.protected_, sentFlits := if b then 0 else up.sentFlits,
      gotFlits := if b then 0 else up.gotFlits }) ∧
  (∀ (s : State) (n : Fin 16) (banks : Nat),
    let p := s.port n.val
    (3 ≤ banks → p.folds < 6 - banks →
      exec (.portFold n banks) s = .next (s.setPort n.val { p with folds := 6 - banks }).fire) ∧
    (banks < 3 → p.folds < 6 - banks →
      exec (.portFold n banks) s = .next (s.setPort n.val { p with folds := 3, draining := some false }).fire)) ∧
  (∀ (s : State) (n : Fin 16),
    let p := s.port n.val
    (p.spareUsed = false → exec (.fabricLaneSwap n) s = .next (s.setPort n.val { p with spareUsed := true }).fire) ∧
    (p.spareUsed = true → 2 < p.lanes →
      exec (.fabricLaneSwap n) s = .next (s.setPort n.val { p with lanes := p.lanes - 1 }).fire) ∧
    (p.spareUsed = true → 0 < p.lanes → p.lanes ≤ 2 →
      exec (.fabricLaneSwap n) s = .next (s.setPort n.val { p with lanes := p.lanes - 1, draining := some false }).fire)) ∧
  (∀ (s : State) (n : Fin 16) (vc : Fin 6),
    let p := s.port n.val
    (p.paused.contains vc.val = false →
      exec (.linkPause n vc) s = .next (s.setPort n.val { p with paused := vc.val :: p.paused }).fire) ∧
    (p.paused.contains vc.val = true →
      let s1 := s.setPort n.val { p with paused := p.paused.filter (fun x => x != vc.val) }
      (s.outbox = [] → exec (.linkResume n vc) s = .next s1.fire) ∧
      (∀ x : SentPkt, s.outbox = [x] → x.port = n.val → x.vc = vc.val → p.folds = 0 → p.session = false →
        exec (.linkResume n vc) s = .next ({ s1 with outbox := [], sent := s.sent ++ [{ x with sentAt := s.portNow }] } : State).fire))) ∧
  (∀ (s : State) (n : Fin 16), (s.port n.val).locked = true → exec (.reattestation n) s =
    .next (s.setPort n.val { s.port n.val with locked := false, failed := false, draining := some true }).fire) ∧
  (∀ (s : State) (n : Nat),
    let p := s.port n
    p.up = true → p.locked = false →
    (p.failed = false → p.session = true →
      s.linkError n true = (s.setPort n { p with failed := true, replays := p.replays + 1 }).fire) ∧
    (p.failed = false → s.linkError n false = (s.setPort n { p with failed := true, replays := p.replays + 1 }).fire) ∧
    (p.failed = true → p.session = true →
      s.linkError n true = (s.setPort n { p with locked := true, draining := some false, failed := false, session := false }).fire) ∧
    (p.session = false → s.linkError n true = s))

/-- The module's management (17_command R294, R301, 18_platform R308 to R310): heartbeats, a take-over that every live virtual device's journal
tells, firmware that is verified and not below the rollback counter, sensors that lower the clock by 62.5 MHz or begin the stop, requests
that are answered. What an SPDM answer or a fault log says, and that a stopped boot is reported as the number 0, are the model's choice (log
entry 99). -/
def Obligations.Management : Prop :=
  (∀ s : State, s.platform.beatAt + 100000 ≤ s.cpNow → exec .heartbeat s = .next ({ s with platform :=
    { s.platform with heartbeats := s.platform.heartbeats + 1, beatAt := s.cpNow } } : State).fire) ∧
  (∀ s : State,
    let p := s.platform
    let due := s.on.a = 1 ∨ p.beatAt + 600000 ≤ s.cpNow ∨ ∃ v, p.staged = some (v, false)
    (due → FMap.rising s.vdevs = true → ∃ t, exec .standbyTakeover s = .next t ∧
      t.platform.active = 1 - p.active ∧ t.platform.takeovers = p.takeovers + 1 ∧ t.platform.firmware = p.standby ∧
      t.platform.standby = p.firmware ∧ t.groups = s.groups ∧
      ∀ vd v, s.vdevs.find vd = some v → v.live = true →
        (t.vdev vd).journal = ({ seq := v.jseq + 1, type_ := 9 } :: v.journal).take v.journalSize) ∧
    (¬ due → exec .standbyTakeover s = .next s)) ∧
  (∀ (s : State) (n : Nat) (signed : Bool),
    let p := s.platform
    (signed = true → p.rollback ≤ n → p.bootFailed = false →
      exec (.firmwareUpdate n signed) s = .next ({ s with platform := { p with staged := some (n, false), standby := n } } : State).fire) ∧
    (signed = true → p.rollback ≤ n → p.bootFailed = true →
      exec (.firmwareUpdate n signed) s = .next ({ s with platform := { p with firmware := n, signed := true } } : State).fire) ∧
    ((signed = false ∨ n < p.rollback) → exec (.firmwareUpdate n signed) s = .next s) ∧
    (p.staged = some (n, true) → s.updateStep = ({ s with platform := { p with standby := n, staged := none } } : State).fire)) ∧
  (∀ (s : State) (r : SensorReading),
    let p := s.platform
    let junction := (r.dies ++ r.ioDie).foldl max 0
    let power : Bool := decide (p.powerCap < r.power) || (p.overPower && decide (98 * p.powerCap < 100 * r.power))
    let heat : Bool := decide (400 ≤ junction) || (p.overHot && decide (388 ≤ junction))
    ∃ t, exec (.sensorSample r) s = .next t ∧ t.platform.sensors = some r ∧
      t.platform.refreshDouble = decide (95 ≤ r.channels.foldl max 0) ∧ t.platform.overPower = power ∧ t.platform.overHot = heat ∧
      t.platform.clockKHz =
        (if (power = true ∨ heat = true) ∧ 625000 < p.clockKHz then p.clockKHz - 62500 else p.clockKHz) ∧
      (junction < 440 → r.outlet < 260 → t.platform.leaving = p.leaving ∧ t.groups = s.groups ∧ t.teams = s.teams) ∧
      ((440 ≤ junction ∨ 260 ≤ r.outlet) → p.leaving = none → t.platform.leaving = some false ∧
        ∀ vd v, s.vdevs.find vd = some v → v.live = true → v.run = true → (t.vdev vd).run = false)) ∧
  (∀ (s : State) (r : SpdmReq), ∃ a, exec (.spdmRequest r) s = .next ({ s with platform :=
    { s.platform with spdm := s.platform.spdm + 1, answers := a :: s.platform.answers } } : State).fire) ∧
  (∀ (s : State) (m : PldmMsg),
    let p := s.platform
    let answers := fun (a : List Nat) => exec (.platformMonitoringAndControl m) s =
      .next ({ s with platform := { p with answers := a :: p.answers } } : State).fire
    (p.bootFailed = true → answers [0]) ∧
    (p.bootFailed = false → m = .readSensors → ∀ r, p.sensors = some r →
      answers (r.dies ++ r.ioDie ++ r.channels ++ [r.inlet, r.outlet, r.power] ++ r.rails.flatMap (fun x => [x.1, x.2]))) ∧
    (p.bootFailed = false → m = .readSensors → p.sensors = none → answers []) ∧
    (p.bootFailed = false → m = .readFaultLog → ∃ a, answers a) ∧
    (∀ w, p.bootFailed = false → m = .setPowerCap w →
      (1200 ≤ w ∧ w ≤ 2400 → exec (.platformMonitoringAndControl m) s =
        .next ({ s with platform := { p with powerCap := w } } : State).fire) ∧
      (w < 1200 ∨ 2400 < w → exec (.platformMonitoringAndControl m) s = .next s)))

/-- Cores, virtual devices and the module (01_machine R15, 05_slices R72, 15_faults R271, 17_command R298, 18_platform R307, R311, R312): a
substitution is triggered, has the core's team saved for the spare, and once the core is free takes one; the fourth uncorrectable error within
24 hours triggers one; a lost core's team ends its launch with UNCORRECTABLE unless it is
idempotent; a virtual device takes and returns whole clusters; a module that leaves stops every virtual device; a boot and a hot reset
leave every register at its reset value and a core that no spare replaced out of service, a hot reset the contents of device memory, both the
host's; an image without signature, or older than the rollback counter, stops the boot. -/
def Obligations.CoresAndResets : Prop :=
  (∀ s : State,
    let core := s.on.a
    let p := s.platform
    core < 768 →
    (p.jobs.contains core = false → exec .spareCoreSubstitution s =
      .next ({ s with platform := { p with jobs := p.jobs ++ [core] } } : State).fire) ∧
    (p.jobs = [core] → (s.core core).out = true → s.coreTeams core = [] → (s.core core).l1 = [] → (∀ v ∈ s.vdevs, v.2.saved = []) →
      exec .spareCoreSubstitution s = .next (if p.spares.get (core / 96) 0 < 4 then
          ({ s.setCore core { s.core core with l1 := [], tlb := [], out := false, errors := [] } with platform :=
            { p with jobs := [], spares := p.spares.set (core / 96) (p.spares.get (core / 96) 0 + 1) } } : State).fire
        else
          ({ s.setCore core { s.core core with out := true } with platform := { p with jobs := [] } } : State).fire)) ∧
    (∀ tk, p.jobs = [core] → s.coreTeams core = [tk] → (s.team tk).phase = .running →
      ∃ t, exec .spareCoreSubstitution s = .next t ∧ (t.core core).out = true ∧ (t.team tk).phase = .saving ∧
        (t.team tk).onto = some core)) ∧
  (∀ s : State,
    let core := s.on.a
    let c := s.core core
    let errors := s.cpNow :: c.errors.filter (fun t => decide (s.cpNow < t + 86400000000000))
    core < 768 →
    (s.coreTeams core = [] → s.platform.jobs.contains core = true → exec .coreLostToUncorrectableFault s =
      .next (s.setCore core { c with l1 := [], tlb := [], out := true, errors := errors }).fire) ∧
    (∀ tk, s.coreTeams core = [tk] → (s.launch (s.team tk).launch).idem = false →
      (s.launch (s.team tk).launch).failed = none →
      ∃ t, exec .coreLostToUncorrectableFault s = .next t ∧ teamGone s t tk ∧
        (t.launch (s.team tk).launch).failed = some .uncorrectable) ∧
    (s.platform.jobs.contains core = false → ((s.coreError core).core core).errors = errors ∧
      (s.coreError core).platform.jobs = s.platform.jobs ++ (if 4 ≤ errors.length then [core] else []))) ∧
  (∀ s : State, s.platform.leaving = none → s.platform.removed = false →
    ∃ t, exec .moduleReplacement s = .next t ∧ t.platform.leaving = some true ∧
      ∀ vd v, s.vdevs.find vd = some v → v.live = true → v.run = true → (t.vdev vd).run = false) ∧
  (∀ (s : State) (vd : Nat) (cs : List Nat) (mib pa len : Nat),
    let z := s.vdev 0
    vd ≠ 0 → vd ≤ 15 → (s.vdev vd).live = false → cs ≠ [] → cs.eraseDups.length = cs.length →
    (∀ c ∈ cs, z.clusters.contains c = true) → mib ≠ 0 →
    s.vdevs.foldl (fun n v => if v.2.live then n + v.2.journalMiB else n) 0 + mib ≤ 32 → pa % 2 ^ 16 = 0 →
    pa + len * 2 ^ 16 ≤ 2 ^ 39 → (∀ c ∈ cs, ∀ i < 8, s.idleCore (c * 8 + i) = true) →
    ∃ t, exec (.virtualDeviceCreation vd cs mib pa len) s = .next t ∧
      t.vdev vd = { live := true, clusters := (List.range 96).filter cs.contains, journalMiB := mib,
                    stowBase := BitVec.ofNat 64 pa, stowLen := BitVec.ofNat 32 len } ∧
      (t.vdev 0).clusters = z.clusters.filter (fun c => !cs.contains c)) ∧
  (∀ s : State,
    let vd := s.on.a
    let v := s.vdev vd
    vd ≠ 0 → v.live = true →
    (∃ t, exec .virtualDeviceDestruction s = .next t ∧ t.vdev vd = {} ∧
      (t.vdev 0).clusters = (List.range 96).filter (fun c => (s.vdev 0).clusters.contains c || v.clusters.contains c) ∧
      ∀ tk, (s.team tk).vd = vd → t.teams.find tk = none) ∧
    (∃ t, exec .vfFunctionLevelReset s = .next t ∧
      t.vdev vd = { live := true, clusters := v.clusters, journalMiB := v.journalMiB } ∧
      (∀ u, u ≠ vd → t.vdev u = s.vdev u) ∧ ∀ tk, (s.team tk).vd = vd → t.teams.find tk = none)) ∧
  (∀ s : State, ∃ t u, exec .powerGoodBoot s = .next t ∧ exec .cxlHotReset s = .next u ∧
    t.vdevs = State.reset.vdevs ∧ u.vdevs = State.reset.vdevs ∧ t.groups = [] ∧ u.groups = [] ∧ t.teams = [] ∧ u.teams = [] ∧
    t.launches = [] ∧ u.launches = [] ∧ t.copies = [] ∧ u.copies = [] ∧ t.slots = [] ∧ u.slots = [] ∧
    t.platform.power = true ∧ u.platform.power = true ∧
    t.platform.bootFailed = (!s.platform.signed || decide (s.platform.firmware < s.platform.rollback)) ∧
    u.platform.bootFailed = (!s.platform.signed || decide (s.platform.firmware < s.platform.rollback)) ∧
    (FMap.rising s.cores = true → ∀ c, t.core c = u.core c ∧
      t.core c = if (s.core c).out = true ∧ s.platform.jobs.contains c = false then { out := true } else {}) ∧
    (∀ a, Memory.get t.mem a = if 2 ^ 56 ≤ a then Memory.get s.mem a else 0) ∧
    (∀ a, Memory.get u.mem a = if sliceBase ≤ a ∧ a < 0x00FF000000000000 then 0 else Memory.get s.mem a))

namespace Sys2Proof.Claims

/-! ## The whole machine -/

/-- What a lane-set word that writes register `n` leaves as it is: every byte of memory and every part of the machine but the groups; every
register and state but the destination's in the threads that act, and every thread's predicates, return stack, fault record and status;
the group's registers, conditions, queues, trap registers and `fpm` but for its sticky flags; every other group. -/
def keepsLane (s t : State) (acting : List Nat) (n : Nat) : Prop :=
  s.sameButGroups t ∧
    (∀ th m, (m ≠ n ∨ acting.contains th = false) →
      (t.grp.thread th).reg m = (s.grp.thread th).reg m ∧ (t.grp.thread th).regState m = (s.grp.thread th).regState m) ∧
    (∀ th, (t.grp.thread th).preds = (s.grp.thread th).preds ∧ (t.grp.thread th).stack = (s.grp.thread th).stack ∧
      (t.grp.thread th).fault = (s.grp.thread th).fault ∧ (t.grp.thread th).st = (s.grp.thread th).st) ∧
    (∀ th, s.grp.run.contains th = false → (t.grp.thread th).pc = (s.grp.thread th).pc) ∧
    t.grp.g = s.grp.g ∧ t.grp.gst = s.grp.gst ∧ t.grp.conds = s.grp.conds ∧ t.grp.fault = s.grp.fault ∧ t.grp.trap = s.grp.trap ∧
    t.grp.trapcause = s.grp.trapcause ∧ t.grp.trapaddr = s.grp.trapaddr ∧ t.grp.trappc = s.grp.trappc ∧
    t.grp.trapmask = s.grp.trapmask ∧ t.grp.tvec = s.grp.tvec ∧ t.grp.tcmask = s.grp.tcmask ∧ t.grp.klen = s.grp.klen ∧
    t.grp.abase = s.grp.abase ∧ t.grp.regctr = s.grp.regctr ∧ t.grp.ops = s.grp.ops ∧ t.grp.rm = s.grp.rm ∧ t.grp.sat = s.grp.sat ∧
    t.grp.queues = s.grp.queues ∧
    t.grp.wsel = s.grp.wsel ∧ t.grp.wpat = s.grp.wpat ∧ t.grp.gentag = s.grp.gentag ∧ t.grp.rerrCause = s.grp.rerrCause ∧
    t.grp.rerrCount = s.grp.rerrCount ∧ (∀ k, k ≠ s.cur → t.group k = s.group k)

/-- The words that a function makes keep all but their destination register, from every state in which they are ready. -/
def LaneFrame {f : Type} (mks : List (f → Instr)) (w : f → LaneWord) (d : f → Opnd) : Prop :=
  ∀ mk ∈ mks, ∀ (x : f) (n : Fin 56) (s t : State), d x = .reg n → (w x).srcs.all (fun o => !o.o.isPort) = true →
    s.laneReady (w x) = true → exec (mk x) s = .next t → keepsLane s t ((w x).acting s.grp) n.val

/-- The shape of a conversion. -/
def cvtWord (f : LaneCvt) : LaneWord :=
  { sourceless f.d f.pg f.ng with blocks := blockOf f.d 1 ++ blockOf f.a 1, srcs := [{ o := f.a, trap := f.ea }] }

/-- What a group-set word that writes register `n` leaves as it is: all but the group, every thread's registers, states, predicates,
stack and record, every other group register, every queue, condition and trap register, and every other group. -/
def keepsGroup (s t : State) (n : Nat) : Prop :=
  s.sameButGroups t ∧
    (∀ th, { t.grp.thread th with pc := 0 } = { s.grp.thread th with pc := 0 }) ∧
    (∀ m, m ≠ n → t.grp.reg m = s.grp.reg m ∧ t.grp.regState m = s.grp.regState m) ∧
    t.grp.conds = s.grp.conds ∧ t.grp.fault = s.grp.fault ∧ t.grp.trap = s.grp.trap ∧ t.grp.trapcause = s.grp.trapcause ∧
    t.grp.trapaddr = s.grp.trapaddr ∧ t.grp.trappc = s.grp.trappc ∧ t.grp.trapmask = s.grp.trapmask ∧ t.grp.tvec = s.grp.tvec ∧
    t.grp.tcmask = s.grp.tcmask ∧ t.grp.fpm = s.grp.fpm ∧ t.grp.klen = s.grp.klen ∧ t.grp.abase = s.grp.abase ∧
    t.grp.regctr = s.grp.regctr ∧ t.grp.ops = s.grp.ops ∧ t.grp.queues = s.grp.queues ∧
    t.grp.wsel = s.grp.wsel ∧ t.grp.wpat = s.grp.wpat ∧ t.grp.gentag = s.grp.gentag ∧ t.grp.rerrCause = s.grp.rerrCause ∧
    t.grp.rerrCount = s.grp.rerrCount ∧ (∀ k, k ≠ s.cur → t.group k = s.group k)

/-- What the issue of a word leaves beside the word's meaning: the step's state is that of `o` with the marks of the choice. -/
def marked (s1 : State) (k : Nat) (o : Host.Outcome State Fault Refusal) : Host.Outcome State Fault Refusal :=
  match o with
  | .next t => .next (s1.issued k true t)
  | .fault f => .fault f
  | .refused r => .refused r

/-- Two states are alike but for marks of scheduling: WSAT, YIELD and the times at which a core's classes issued (14_scheduling R251, R253,
R256). -/
def alikeButMarks (t u : State) : Prop :=
  u = { t with groups := u.groups, cores := u.cores } ∧
    (∀ k, { u.group k with threads := [], yielded := none } = { t.group k with threads := [], yielded := none }) ∧
    (∀ k th, { (u.group k).thread th with wsat := false } = { (t.group k).thread th with wsat := false }) ∧
    (∀ c, { u.core c with classAt := [] } = { t.core c with classAt := [] })

/-- A state in which group `k` takes the next step: it heads the agenda, under power. -/
def nextIsGroup (s : State) (k : Nat) : Prop :=
  ∃ r, s.agenda = .issue k :: r ∧ s.platform.power = true ∧ s.platform.bootFailed = false

end Sys2Proof.Claims

open Sys2Proof Sys2Proof.Machine Sys2Proof.Claims

/-- The machine right after reset (18_platform R307; 17_command R283, R284; 04_memory R62; 06_copy R95): slices are zero, no team, launch, copy
or request stands, every fabric port is out of service, the physical function is live, every register of it and of its queues has
its reset value. That it owns all clusters is the model's choice (log entry 5), as is that device memory reads 0 (log entry 1). -/
def Obligations.ResetState : Prop :=
  let s := State.reset
  let v := s.vdev 0
  Memory.wf s.mem = true ∧ (∀ a, Memory.get s.mem a = 0) ∧ s.poison = [] ∧ s.groups = [] ∧ s.teams = [] ∧ s.launches = [] ∧
  s.copies = [] ∧ s.claims = [] ∧ s.slots = [] ∧ s.gatherings = [] ∧ s.arrivals = [] ∧ s.outbox = [] ∧ s.contained = [] ∧ s.walks = [] ∧ s.pointers = [] ∧
  (∀ p, (s.port p).up = false ∧ (s.port p).locked = false ∧ (s.port p).paused = [] ∧ (s.port p).session = false) ∧
  (∀ c, (s.core c).l1 = [] ∧ (s.core c).tlb = [] ∧ (s.core c).out = false) ∧
  (∀ u, u ≠ 0 → (s.vdev u).live = false) ∧ v.live = true ∧ v.run = true ∧ v.stopped = false ∧ v.clusters = List.range 96 ∧
  v.root = 0 ∧ v.keys = 0 ∧ v.invVa = 0 ∧ v.invCount = 0 ∧ v.invScope = 0 ∧ v.invBusy = false ∧ v.invErr = false ∧ v.fabGrid = 0 ∧ v.fabCoord = 0 ∧ v.fabWtab = 0 ∧
  v.fabItab = 0 ∧ v.evEn = false ∧ v.evBase = 0 ∧ v.evLog2n = 6 ∧ v.evVec = 0 ∧ v.evBuffer = [] ∧ v.evWidx = 0 ∧ v.stowBase = 0 ∧ v.stowLen = 0 ∧ v.dbm = 0 ∧ v.track = false ∧
  v.dbIdx = 0 ∧ v.tflSeq = 0 ∧ v.tfCmd = 0 ∧ (∀ p, v.drain.get p 65536 = 65536) ∧ v.capBase = 0 ∧ v.capLen = 0 ∧ v.capOn = false ∧
  v.jseq = 0 ∧ v.dseq = 0 ∧ v.retired = [] ∧ v.heldRecords = [] ∧ v.segs = [] ∧ v.saved = [] ∧ v.journal = [] ∧
  (∀ q, s.hqueue 0 q = { state := .stopped, en := false, base := 0, log2n := 4, age := false, widxAt := 0, widx := 0, ridx := 0,
                         pidx := 0, errCount := 0, cause := 0, packets := [] }) ∧
  s.platform.power = true ∧ s.platform.bootFailed = false ∧ s.platform.clockKHz = 1250000 ∧ s.platform.powerCap = 2400 ∧
  s.platform.hostAtomics = 0 ∧ s.platform.atomicEnable = false ∧ s.platform.active = 0 ∧ s.platform.protected_ = false ∧
  s.platform.jobs = []

/-- Every step keeps the memory in its canonical form, whatever the state: addresses rise and no byte is listed that reads 0. -/
def Obligations.StepKeepsMemoryCanonical : Prop :=
  ∀ s t : State, Memory.wf s.mem = true → step s = .next t → Memory.wf t.mem = true

/-- A step runs what stands at the program counter (02_encoding R17, R24): when the bytes that group `k` fetches at its issue address decode to
an instruction that it may run, the step is exec of that instruction, in the state in which time has passed, the group is the executing
one, its run mask is formed, and the fetch has left its marks, followed by the marks of the choice; an unassigned word is an ILLEGAL_OPCODE,
and a word with a reserved field is rejected with RESERVED_FIELD, or with PRIVILEGED where it is a privileged one. An event of the agenda is
its instruction's meaning. -/
def Obligations.StepRunsDecoded : Prop :=
  (∀ (s : State) (k : Nat) (pc : VA) (w : W32) (r : List Action), nextIsGroup s k → s.agenda = .issue k :: r →
    let s0 := { s.elapse with agenda := r }
    let s1 := s0.begin k
    let s2 := s1.touchFetch k pc
    s0.mayIssue k = true → s0.promiseDue k = none → s1.grp.issuePc = some pc → s1.fetchWaits k pc = false →
    s1.fetchWord k pc = .ok w →
    (∀ i, decode w = .ok i → s2.grp.wordPrivileged i = false → s2.heldByAcquire k w = false → step s = marked s1 k (exec i s2)) ∧
    (∀ i, decode w = .ok i → s2.grp.wordPrivileged i = true → step s = marked s1 k (.next (s2.rejectWord w .privileged))) ∧
    (decode w = .error .illegalOpcode → step s = marked s1 k (exec (.illegalOpcodeWord w) s2)) ∧
    (∀ i, decode w = .error (.reservedField i) →
      step s = marked s1 k (.next (s2.rejectWord w (if s2.grp.wordPrivileged i then .privileged else .reservedField))))) ∧
  (∀ (s : State) (k : Nat), (s.begin k).cur = k ∧ (s.begin k).mem = s.mem ∧ (s.begin k).teams = s.teams ∧
    (∀ t, (s.begin k).grp.thread t = (s.group k).thread t) ∧ (s.begin k).grp.g = (s.group k).g ∧
    ∀ t < 32, (s.begin k).grp.trap = false → (s.begin k).grp.runmask.getLsbD t = (s.group k).run.contains t) ∧
  (∀ (s1 t : State) (k : Nat), alikeButMarks t (s1.issued k true t)) ∧
  (∀ (s : State) (i : Instr) (on : On) (r : List Action), s.agenda = .event i on :: r → s.platform.power = true →
    s.platform.bootFailed = false → step s = exec i { s.elapse with agenda := r, on := on }) ∧
  (∀ s : State, s.platform.power = false → s.agenda = [] → step s = .fault .powerOff)

/-- Words of the spec's own examples and encoding tables decode to the instructions that they stand for (02_encoding R18 to R29; 08_compute
R130, R136, R139, R141, R143; 13_execution R234). -/
def Obligations.DecodedWords : Prop :=
  decode 0x230C1080 = .ok (.ffma { d := .reg 3, a := .reg 1, b := .reg 2, pg := 0, ng := false, ea := false, eb := false }) ∧
  decode 0x702FFFFD = .ok (.br { pg := 1, ng := false, off := BitVec.ofInt 20 (-3) }) ∧
  decode 0x990FFFFC = .ok (.gloop { d := .reg 3, imm := BitVec.ofInt 18 (-4) }) ∧
  decode 0x9B000000 = .ok (.gret { cg := 0, ng := false }) ∧
  decode 0x800C1081 = .ok (.gadd { d := .reg 3, a := .reg 1, b := .reg 2, cg := 0, ng := false, ea := false, eb := false, w := true }) ∧
  decode 0x8C584141 =
    .ok (.gcmp { cd := 1, cc := .ltu, a := .reg 4, b := .reg 5, cg := 0, ng := false, ea := false, eb := false, w := true }) ∧
  decode 0x900BFFFF = .ok (.gaddi { d := .reg 2, imm := BitVec.ofInt 18 (-1) }) ∧
  decode 0x961461C0 =
    .ok (.gdivu { d := .reg 5, a := .reg 6, b := .reg 7, cg := 0, ng := false, ea := false, eb := false, w := false }) ∧
  decode 0x3A182100 =
    .ok (.cvtf8 { d := .reg 6, a := .reg 2, rnd := .fpm, sat := true, fmt := 0, pg := 0, ng := false, ea := false }) ∧
  decode 0x7C140000 = .ok (.waite { d := .reg 5, pg := 0, ng := false })

/-- Decoding what has been encoded gives it back, for every well-formed instruction that has a word: every operand, at every value that
its encoding admits. -/
def Obligations.DecodeOfEncode : Prop :=
  ∀ (i : Instr) (n : Nat), i.wf = true → i.enc = some n → n < 2 ^ 32 ∧ decode (BitVec.ofNat 32 n) = .ok i

/-- A word that decodes is the encoding of what it decodes to, and that is well-formed: no two words stand for one instruction, and no bit of a
word is ignored. -/
def Obligations.EncodeOfDecode : Prop :=
  ∀ (w : W32) (i : Instr), decode w = .ok i → i.wf = true ∧ i.enc = some w.toNat

/-- The frame of the lane-set words that compute one value per thread, with register operands. -/
def Obligations.LaneFrames : Prop :=
  LaneFrame [.iadd, .isub, .imul, .imulhs, .imulhu, .imin, .imax, .umin, .umax, .andv, .orv, .xorv, .andn, .shl, .shr, .sar, .bfx,
    .fadd, .fsub, .fmul, .fmin, .fmax, .badd2, .bmul2, .bmax2, .hadd2, .hmul2] binWord (·.d) ∧
  LaneFrame [.bfi, .ffma, .bfma2, .hfma2] triWord (·.d) ∧
  LaneFrame [.iabs, .popc, .clz, .brev, .fcls, .frcp, .frsq, .fsqrt, .fexp2, .flog2] unWord (·.d) ∧
  LaneFrame [.iaddi, .andi, .shli, .shri] immWord (·.d) ∧
  LaneFrame [.cvtif, .cvtfi, .cvtfb, .cvtbf, .cvtfh, .cvthf, .cvtf8, .cvt8f, .cvtfn, .cvtnf] cvtWord (·.d)

/-- The frame of the group-set words that compute one value, with register operands. -/
def Obligations.GroupFrames : Prop :=
  ∀ (s t : State) (n a b : Fin 56),
    (∀ mk ∈ [Instr.gadd, .gsub, .gmul, .gmin, .gmax, .gand, .gor, .gxor, .gshl, .gshr, .gsar, .gmulh, .gdivu, .gremu],
      ∀ f : GrpBin, f.d = .reg n → f.a = .reg a → f.b = .reg b → s.groupReady (gbinWord s.grp f) = true → exec (mk f) s = .next t →
        keepsGroup s t n.val) ∧
    (∀ mk ∈ [Instr.gpopc, .gclz], ∀ f : GrpUn, f.d = .reg n → f.a = .reg a → s.groupReady (gunWord s.grp f) = true →
      exec (mk f) s = .next t → keepsGroup s t n.val) ∧
    (∀ f : GrpImm, f.d = .reg n →
      (s.groupReady { srcs := [{ o := f.d }], dest := destOf f.d 1 } = true →
        (exec (.gaddi f) s = .next t ∨ exec (.gmovh f) s = .next t) → keepsGroup s t n.val) ∧
      (s.groupReady { srcs := [], dest := destOf f.d 1 } = true → exec (.gmovi f) s = .next t → keepsGroup s t n.val))

/-- FMIN and FMAX (08_compute R131): a NaN operand is missing, two NaNs give the canonical one, −0 lies below +0, equal operands give va, and
no flag is set. FCLS (R133): exactly the bit of the class is set. Their words hold their opcodes. -/
def Obligations.FloatOrderAndClass : Prop :=
  FloatOrderRules Performs ∧
  (∀ a : W32, fp32 a = .nan ↔ 0x7F800000 < a.toNat % 2 ^ 31) ∧
  HasCode Instr.fmin 0x24 ∧ HasCode Instr.fmax 0x25 ∧ HasCode Instr.fcls 0x27

/-- GSHL, GSHR and GSAR shift by all W bits of gb (08_compute R140); GDIVU and GREMU divide unsigned W-bit values, and of a divisor 0 give
2^W − 1 and the dividend (R142). Their words hold their opcodes. -/
def Obligations.GroupShiftsAndDivisions : Prop :=
  GroupBinary .gshl (fun w a b => if bitsOf w ≤ b.toNat then 0 else BitVec.ofNat 64 (a.toNat * 2 ^ b.toNat)) ∧
  GroupBinary .gshr (fun w a b => if bitsOf w ≤ b.toNat then 0 else BitVec.ofNat 64 (a.toNat / 2 ^ b.toNat)) ∧
  GroupBinary .gsar (fun w a b =>
    if bitsOf w ≤ b.toNat then (if signedW w a < 0 then BitVec.allOnes 64 else 0)
    else BitVec.ofInt 64 (signedW w a / 2 ^ b.toNat)) ∧
  GroupBinary .gdivu (fun _ a b => if b.toNat = 0 then BitVec.allOnes 64 else BitVec.ofNat 64 (a.toNat / b.toNat)) ∧
  GroupBinary .gremu (fun _ a b =>
    if b.toNat = 0 then a else BitVec.ofNat 64 (a.toNat - b.toNat * (a.toNat / b.toNat))) ∧
  HasCode Instr.gshl 0x89 ∧ HasCode Instr.gshr 0x8A ∧ HasCode Instr.gsar 0x8B ∧ HasCode Instr.gdivu 0x96 ∧ HasCode Instr.gremu 0x97 ∧
  decode 0x961461C0 =
    .ok (.gdivu { d := .reg 5, a := .reg 6, b := .reg 7, cg := 0, ng := false, ea := false, eb := false, w := false })

/-- The numbers of 03_numbers: exact sums and products, rounding and encoding in each format, and what the spec fixes of reciprocals, exponentials and logarithms (R38 to R48, 08_compute R134, R389). -/
def Obligations.Numbers : Prop := Claims.ExactNumbers ∧ Claims.Transcendentals

/-- CSR words, and words of the maps beside the opcode table: identity, lists, synchronisation, teams and administration (15_faults R263, R373, R374, R376, R378; 08_compute R358, R392; 12_consistency R351, R352; 11_fabric R348, R397; 05_slices R336; 10_table R365, R370). PROBE in trap context follows R378 rather than R30, which is the model's choice (log entry 77). -/
def Obligations.SystemAndTeamWords : Prop := Claims.CsrWords ∧ Claims.PlainWords ∧ Claims.TeamWords ∧ Claims.ListWords ∧ Claims.SyncWords ∧ Claims.AdminWords

/-- The integer words of the lane set (08_compute R124 to R126, R129, R356): two-source, one-source and immediate forms, whenever ready. -/
def Obligations.IntegerArithmetic : Prop := Claims.IntegerWords ∧ Claims.UnaryAndImmediateWords

/-- The floating-point words of the lane set (08_compute R130 to R135, R389 to R391): single, transcendental, packed, dual-shift and scaled forms, whenever ready. -/
def Obligations.FloatArithmetic : Prop := Claims.FloatWords ∧ Claims.PackedAndScaledWords

/-- SEL, PMOV vd and GETID (07_registers R116, R117; 08_compute R128); MKEMP, MKFUL, WAITE, NOP and YIELD (07_registers R115, R118; 13_execution R234). -/
def Obligations.SelectionsAndStates : Prop := Claims.SelectPackAndIdentify ∧ Claims.RegisterStateWords

/-- The group set's integer, move and compare words (08_compute R139 to R143, R341, R342), and each of its words whose guard is false (02_encoding R19). -/
def Obligations.GroupArithmetic : Prop := Claims.GroupIntegerWords ∧ Claims.GroupMoveAndCompareWords ∧ Claims.UnguardedGroupWords

/-- What a source says, what becomes of each thread of a lane-set word whose sources cannot all be read, and when such a word waits or is rejected (07_registers R103, R110, R111; 02_encoding R21, R24; 15_faults R261). -/
def Obligations.SourcesAndFates : Prop := Claims.SourceVerdicts ∧ Claims.LaneFates ∧ Claims.LaneWaits ∧ Claims.LaneWordRejected

/-- Taking an exception, the group-set words that take one at a source, and GTRAP, TRAP and BKPT (13_execution R235; 15_faults R258, R259, R261). -/
def Obligations.TrapEntryAndSources : Prop := Claims.TrapEntry ∧ Claims.GroupWordTraps ∧ Claims.SoftwareTrap ∧ Claims.ThreadTraps

/-- Memory as a list of cells: what was written reads back, the rest is as before, the form stays canonical, and canonical memories that read alike are equal. -/
def Obligations.MemoryLaws : Prop := Claims.MemoryReadsBackWhatWasWritten ∧ Claims.CanonicalMemoriesAreEqual

/-- Lane loads from slices leave their registers PENDING, and LONG_LATENCY_COMPLETE makes them FULL or FAULTED (07_registers R101, R102; 09_access R145, R152, R153). -/
def Obligations.LoadsAndTheirCompletion : Prop := Claims.LaneLoads ∧ Claims.LongLatencyCompletes

/-- One access wherever it goes, the checks of an access in their order, and the prefetch words, to which a failed check is no fault (04_memory R53 to R59; 09_access R145, R148, R156, R159). -/
def Obligations.AccessesAndChecks : Prop := Claims.DeviceAccesses ∧ Claims.AccessChecks ∧ Claims.Prefetches

/-- Arrivals at a completion barrier, when a phase has passed, and CBINIT, CBARV, CBWAIT and CBTEST (06_copy R95 to R98). -/
def Obligations.Barriers : Prop := Claims.BarrierArrivals ∧ Claims.BarrierWords

/-- Remote words of the group set (11_fabric R190 to R193; 12_consistency R219), and those on signals. -/
def Obligations.RemoteGroupWords : Prop := Claims.RemoteGroupForms ∧ Claims.SignalWords

/-- Operand-queue words, and the affine generators that fill a queue (07_registers R108 to R114). -/
def Obligations.Queues : Prop := Claims.QueueWords ∧ Claims.AffineGeneration

/-- Threads arrive at a collective, and it forms when its participants are there (13_execution R231 to R233). -/
def Obligations.Collectives : Prop := Claims.CollectiveArrivals ∧ Claims.CollectivesForm

/-- What a formed collective gives each participant (13_execution R231 to R233; 03_numbers R51). -/
def Obligations.CollectiveResults : Prop := Claims.Exchanges ∧ Claims.Reductions

/-- Request tags, replies and the timers of tags (11_fabric R196, R202). -/
def Obligations.RequestsAndReplies : Prop := Claims.RequestTags ∧ Claims.Replies ∧ Claims.TagTimers

/-- CPYC and CPYST; copy commands claim, run, move their rows, release and complete, and a missed promise traps (06_copy R87 to R92). -/
def Obligations.CopyCommands : Prop := Claims.CopyControlWords ∧ Claims.CopyClaims ∧ Claims.CopyRows ∧ Claims.CopiesRun ∧ Claims.MissedPromises

/-- The words of the table unit, and the steps that it runs (10_table R165 to R182). -/
def Obligations.TableUnit : Prop := Claims.TableWords ∧ Claims.TableSteps

/-- EXIT (13_execution R236, R237), and words that name no instruction (02_encoding R31). -/
def Obligations.ExitsAndIllegalWords : Prop := Claims.Exits ∧ Claims.IllegalOpcodes

/-- SPAWN and SPAWNG (13_execution R238 to R241; 05_slices R385). -/
def Obligations.SpawnWords : Prop := Claims.Spawns ∧ Claims.GroupSpawns

/-- Events of bins, and the deadlines of combine buffers and held records (13_execution R239 to R241; 16_experts R277). -/
def Obligations.BinsAndDeadlines : Prop := Claims.BinEvents ∧ Claims.Deadlines

/-- Placement's timers, how a team leaves its core, and its save area (13_execution R237; 14_scheduling R246, R249; 15_faults R265 to R268). -/
def Obligations.TeamsLeave : Prop := Claims.PlacementTimers ∧ Claims.TeamEnds ∧ Claims.SaveAreas

/-- Writes of the register blocks, and the invalidation that one starts (04_memory R62, R63; 11_fabric R185; 17_command R283). -/
def Obligations.RegistersAndInvalidations : Prop := Claims.RegisterWrites ∧ Claims.Invalidations

/-- The event ring, queue control and the team-fault interface (15_faults R262; 17_command R284, R291, R293). -/
def Obligations.EventsAndQueueControl : Prop := Claims.EventRing ∧ Claims.QueueControl
end

