-- ==== Sys2Proof/Laws/Encoding.lean ====
section
/-! SUPPORT. Encoding: every field of a word is read back from the word that its encoder writes, and the word fits below
its opcode byte. -/

namespace Sys2Proof

theorem Opnd.enc_lt (x : Opnd) : x.enc < 64 := by cases x <;> simp only [Opnd.enc] <;> omega
@[simp] theorem Opnd.dec_enc (x : Opnd) : Opnd.dec x.enc = x := by
  cases x with
  | reg n => simp [Opnd.enc, Opnd.dec]
  | port q => revert q; decide
theorem bitNat_lt (b : Bool) : bitNat b < 2 := by cases b <;> decide
/-- A bit that is read as it was written. -/
theorem natBit_of {w i : Nat} {b : Bool} (h : w / 2 ^ i % 2 = bitNat b) : natBit w i = b := by
  cases b <;> simp [natBit, h, bitNat]
/-- A small number that is read as it was written. -/
theorem fin_of {n : Nat} [NeZero n] {m : Nat} {x : Fin n} (h : m = x.val) : Fin.ofNat n m = x := by
  subst h; simp
/-- An immediate that is read as it was written. -/
theorem bv_of {n m : Nat} {x : BitVec n} (h : m = x.toNat) : BitVec.ofNat n m = x := by subst h; simp
theorem IntCond.enc_lt (x : IntCond) : x.enc < 6 := by cases x <;> decide
@[simp] theorem IntCond.dec_enc (x : IntCond) : IntCond.dec x.enc = x := by cases x <;> rfl
theorem FltCond.enc_lt (x : FltCond) : x.enc < 8 := by cases x <;> decide
@[simp] theorem FltCond.dec_enc (x : FltCond) : FltCond.dec x.enc = x := by cases x <;> rfl
theorem GrpCond.enc_lt (x : GrpCond) : x.enc < 10 := by cases x <;> decide
@[simp] theorem GrpCond.dec_enc (x : GrpCond) : GrpCond.dec x.enc = x := by cases x <;> rfl
theorem Scope.enc_lt (x : Scope) : x.enc < 4 := by cases x <;> decide
@[simp] theorem Scope.dec_enc (x : Scope) : Scope.dec x.enc = x := by cases x <;> rfl
theorem Strength.enc_lt (x : Strength) : x.enc < 4 := by cases x <;> decide
@[simp] theorem Strength.dec_enc (x : Strength) : Strength.dec x.enc = x := by cases x <;> rfl
theorem CvtRound.enc_lt (x : CvtRound) : x.enc < 5 := by cases x <;> decide
@[simp] theorem CvtRound.dec_enc (x : CvtRound) : CvtRound.dec x.enc = x := by cases x <;> rfl
theorem VoteMode.enc_lt (x : VoteMode) : x.enc < 3 := by cases x <;> decide
@[simp] theorem VoteMode.dec_enc (x : VoteMode) : VoteMode.dec x.enc = x := by cases x <;> rfl
theorem RedOp.enc_lt (x : RedOp) : x.enc < 8 := by cases x <;> decide
@[simp] theorem RedOp.dec_enc (x : RedOp) : RedOp.dec x.enc = x := by cases x <;> rfl
theorem AtomOp.enc_lt (x : AtomOp) : x.enc < 11 := by cases x <;> decide
@[simp] theorem AtomOp.dec_enc (x : AtomOp) : AtomOp.dec x.enc = x := by cases x <;> rfl
theorem RecSize.enc_lt (x : RecSize) : x.enc < 3 := by cases x <;> decide
@[simp] theorem RecSize.dec_enc (x : RecSize) : RecSize.dec x.enc = x := by cases x <;> rfl
theorem IntCond.encSig_lt (x : IntCond) : x.encSig < 6 := by cases x <;> decide
@[simp] theorem IntCond.decSig_encSig (x : IntCond) : IntCond.decSig x.encSig = x := by cases x <;> rfl

/-- A field of a word written as a sum of fields. -/
theorem field_of {w lo n hi mid low : Nat} (e : w = (hi * 2 ^ n + mid) * 2 ^ lo + low) (h1 : mid < 2 ^ n) (h2 : low < 2 ^ lo) :
    natField w lo n = mid := by
  unfold natField
  rw [e, Nat.add_comm, Nat.add_mul_div_right _ _ (Nat.two_pow_pos lo), Nat.div_eq_of_lt h2, Nat.zero_add, Nat.add_comm, Nat.add_mul_mod_self_right,
    Nat.mod_eq_of_lt h1]
theorem bit_of {w lo hi low : Nat} {b : Bool} (e : w = (hi * 2 + bitNat b) * 2 ^ lo + low) (h2 : low < 2 ^ lo) : natBit w lo = b :=
  natBit_of (field_of (n := 1) (hi := hi) (low := low) (by omega) (bitNat_lt b) h2)
theorem op_of {w c8 low : Nat} (e : w = c8 * 2 ^ 24 + low) (h : low < 2 ^ 24) : w / 2 ^ 24 = c8 := by
  rw [e, Nat.add_comm, Nat.add_mul_div_right _ _ (Nat.two_pow_pos 24), Nat.div_eq_of_lt h, Nat.zero_add]

@[simp] theorem LaneBin.dec_enc (c8 : Nat) (f : LaneBin) : LaneBin.dec (f.enc c8) = f := by
  obtain ⟨d, a, b, pg, ng, ea, eb⟩ := f
  have h_d := d.enc_lt; have h_a := a.enc_lt; have h_b := b.enc_lt; have h_pg := pg.isLt; have h_ng := bitNat_lt ng; have h_ea := bitNat_lt ea; have h_eb := bitNat_lt eb
  simp only [LaneBin.dec, LaneBin.enc, LaneBin.mk.injEq]
  exact ⟨(congrArg Opnd.dec (field_of (hi := c8 * 2 ^ 0) (low := a.enc * 2 ^ 12 + b.enc * 2 ^ 6 + pg.val * 2 ^ 3 + bitNat ng * 2 ^ 2 + bitNat ea * 2 ^ 1 + bitNat eb) (by omega) (by omega) (by omega))).trans d.dec_enc,
    (congrArg Opnd.dec (field_of (hi := c8 * 2 ^ 6 + d.enc) (low := b.enc * 2 ^ 6 + pg.val * 2 ^ 3 + bitNat ng * 2 ^ 2 + bitNat ea * 2 ^ 1 + bitNat eb) (by omega) (by omega) (by omega))).trans a.dec_enc,
    (congrArg Opnd.dec (field_of (hi := c8 * 2 ^ 12 + d.enc * 2 ^ 6 + a.enc) (low := pg.val * 2 ^ 3 + bitNat ng * 2 ^ 2 + bitNat ea * 2 ^ 1 + bitNat eb) (by omega) (by omega) (by omega))).trans b.dec_enc,
    fin_of (field_of (hi := c8 * 2 ^ 18 + d.enc * 2 ^ 12 + a.enc * 2 ^ 6 + b.enc) (low := bitNat ng * 2 ^ 2 + bitNat ea * 2 ^ 1 + bitNat eb) (by omega) (by omega) (by omega)),
    bit_of (hi := c8 * 2 ^ 21 + d.enc * 2 ^ 15 + a.enc * 2 ^ 9 + b.enc * 2 ^ 3 + pg.val) (low := bitNat ea * 2 ^ 1 + bitNat eb) (by omega) (by omega),
    bit_of (hi := c8 * 2 ^ 22 + d.enc * 2 ^ 16 + a.enc * 2 ^ 10 + b.enc * 2 ^ 4 + pg.val * 2 ^ 1 + bitNat ng) (low := bitNat eb) (by omega) (by omega),
    bit_of (hi := c8 * 2 ^ 23 + d.enc * 2 ^ 17 + a.enc * 2 ^ 11 + b.enc * 2 ^ 5 + pg.val * 2 ^ 2 + bitNat ng * 2 ^ 1 + bitNat ea) (low := 0) (by omega) (by omega)⟩
theorem LaneBin.enc_op (c8 : Nat) (f : LaneBin) : f.enc c8 / 2 ^ 24 = c8 := by
  obtain ⟨d, a, b, pg, ng, ea, eb⟩ := f
  have h_d := d.enc_lt; have h_a := a.enc_lt; have h_b := b.enc_lt; have h_pg := pg.isLt; have h_ng := bitNat_lt ng; have h_ea := bitNat_lt ea; have h_eb := bitNat_lt eb
  simp only [LaneBin.enc]
  exact op_of (low := d.enc * 2 ^ 18 + a.enc * 2 ^ 12 + b.enc * 2 ^ 6 + pg.val * 2 ^ 3 + bitNat ng * 2 ^ 2 + bitNat ea * 2 ^ 1 + bitNat eb) (by omega) (by omega)

@[simp] theorem LaneUn.dec_enc (c8 : Nat) (f : LaneUn) : LaneUn.dec (f.enc c8) = f := by
  obtain ⟨d, a, pg, ng, ea⟩ := f
  have h_d := d.enc_lt; have h_a := a.enc_lt; have h_pg := pg.isLt; have h_ng := bitNat_lt ng; have h_ea := bitNat_lt ea
  simp only [LaneUn.dec, LaneUn.enc, LaneUn.mk.injEq]
  exact ⟨(congrArg Opnd.dec (field_of (hi := c8 * 2 ^ 0) (low := a.enc * 2 ^ 12 + pg.val * 2 ^ 3 + bitNat ng * 2 ^ 2 + bitNat ea * 2 ^ 1) (by omega) (by omega) (by omega))).trans d.dec_enc,
    (congrArg Opnd.dec (field_of (hi := c8 * 2 ^ 6 + d.enc) (low := pg.val * 2 ^ 3 + bitNat ng * 2 ^ 2 + bitNat ea * 2 ^ 1) (by omega) (by omega) (by omega))).trans a.dec_enc,
    fin_of (field_of (hi := c8 * 2 ^ 18 + d.enc * 2 ^ 12 + a.enc * 2 ^ 6) (low := bitNat ng * 2 ^ 2 + bitNat ea * 2 ^ 1) (by omega) (by omega) (by omega)),
    bit_of (hi := c8 * 2 ^ 21 + d.enc * 2 ^ 15 + a.enc * 2 ^ 9 + pg.val) (low := bitNat ea * 2 ^ 1) (by omega) (by omega),
    bit_of (hi := c8 * 2 ^ 22 + d.enc * 2 ^ 16 + a.enc * 2 ^ 10 + pg.val * 2 ^ 1 + bitNat ng) (low := 0) (by omega) (by omega)⟩
theorem LaneUn.enc_op (c8 : Nat) (f : LaneUn) : f.enc c8 / 2 ^ 24 = c8 := by
  obtain ⟨d, a, pg, ng, ea⟩ := f
  have h_d := d.enc_lt; have h_a := a.enc_lt; have h_pg := pg.isLt; have h_ng := bitNat_lt ng; have h_ea := bitNat_lt ea
  simp only [LaneUn.enc]
  exact op_of (low := d.enc * 2 ^ 18 + a.enc * 2 ^ 12 + pg.val * 2 ^ 3 + bitNat ng * 2 ^ 2 + bitNat ea * 2 ^ 1) (by omega) (by omega)

@[simp] theorem LaneICmp.dec_enc (c8 : Nat) (f : LaneICmp) : LaneICmp.dec (f.enc c8) = f := by
  obtain ⟨pd, cc, a, b, pg, ng, ea, eb⟩ := f
  have h_pd := pd.isLt; have h_cc := cc.enc_lt; have h_a := a.enc_lt; have h_b := b.enc_lt; have h_pg := pg.isLt; have h_ng := bitNat_lt ng; have h_ea := bitNat_lt ea; have h_eb := bitNat_lt eb
  simp only [LaneICmp.dec, LaneICmp.enc, LaneICmp.mk.injEq]
  exact ⟨fin_of (field_of (hi := c8 * 2 ^ 0) (low := cc.enc * 2 ^ 18 + a.enc * 2 ^ 12 + b.enc * 2 ^ 6 + pg.val * 2 ^ 3 + bitNat ng * 2 ^ 2 + bitNat ea * 2 ^ 1 + bitNat eb) (by omega) (by omega) (by omega)),
    (congrArg IntCond.dec (field_of (hi := c8 * 2 ^ 3 + pd.val) (low := a.enc * 2 ^ 12 + b.enc * 2 ^ 6 + pg.val * 2 ^ 3 + bitNat ng * 2 ^ 2 + bitNat ea * 2 ^ 1 + bitNat eb) (by omega) (by omega) (by omega))).trans cc.dec_enc,
    (congrArg Opnd.dec (field_of (hi := c8 * 2 ^ 6 + pd.val * 2 ^ 3 + cc.enc) (low := b.enc * 2 ^ 6 + pg.val * 2 ^ 3 + bitNat ng * 2 ^ 2 + bitNat ea * 2 ^ 1 + bitNat eb) (by omega) (by omega) (by omega))).trans a.dec_enc,
    (congrArg Opnd.dec (field_of (hi := c8 * 2 ^ 12 + pd.val * 2 ^ 9 + cc.enc * 2 ^ 6 + a.enc) (low := pg.val * 2 ^ 3 + bitNat ng * 2 ^ 2 + bitNat ea * 2 ^ 1 + bitNat eb) (by omega) (by omega) (by omega))).trans b.dec_enc,
    fin_of (field_of (hi := c8 * 2 ^ 18 + pd.val * 2 ^ 15 + cc.enc * 2 ^ 12 + a.enc * 2 ^ 6 + b.enc) (low := bitNat ng * 2 ^ 2 + bitNat ea * 2 ^ 1 + bitNat eb) (by omega) (by omega) (by omega)),
    bit_of (hi := c8 * 2 ^ 21 + pd.val * 2 ^ 18 + cc.enc * 2 ^ 15 + a.enc * 2 ^ 9 + b.enc * 2 ^ 3 + pg.val) (low := bitNat ea * 2 ^ 1 + bitNat eb) (by omega) (by omega),
    bit_of (hi := c8 * 2 ^ 22 + pd.val * 2 ^ 19 + cc.enc * 2 ^ 16 + a.enc * 2 ^ 10 + b.enc * 2 ^ 4 + pg.val * 2 ^ 1 + bitNat ng) (low := bitNat eb) (by omega) (by omega),
    bit_of (hi := c8 * 2 ^ 23 + pd.val * 2 ^ 20 + cc.enc * 2 ^ 17 + a.enc * 2 ^ 11 + b.enc * 2 ^ 5 + pg.val * 2 ^ 2 + bitNat ng * 2 ^ 1 + bitNat ea) (low := 0) (by omega) (by omega)⟩
theorem LaneICmp.enc_op (c8 : Nat) (f : LaneICmp) : f.enc c8 / 2 ^ 24 = c8 := by
  obtain ⟨pd, cc, a, b, pg, ng, ea, eb⟩ := f
  have h_pd := pd.isLt; have h_cc := cc.enc_lt; have h_a := a.enc_lt; have h_b := b.enc_lt; have h_pg := pg.isLt; have h_ng := bitNat_lt ng; have h_ea := bitNat_lt ea; have h_eb := bitNat_lt eb
  simp only [LaneICmp.enc]
  exact op_of (low := pd.val * 2 ^ 21 + cc.enc * 2 ^ 18 + a.enc * 2 ^ 12 + b.enc * 2 ^ 6 + pg.val * 2 ^ 3 + bitNat ng * 2 ^ 2 + bitNat ea * 2 ^ 1 + bitNat eb) (by omega) (by omega)

@[simp] theorem LaneFCmp.dec_enc (c8 : Nat) (f : LaneFCmp) : LaneFCmp.dec (f.enc c8) = f := by
  obtain ⟨pd, cc, a, b, pg, ng, ea, eb⟩ := f
  have h_pd := pd.isLt; have h_cc := cc.enc_lt; have h_a := a.enc_lt; have h_b := b.enc_lt; have h_pg := pg.isLt; have h_ng := bitNat_lt ng; have h_ea := bitNat_lt ea; have h_eb := bitNat_lt eb
  simp only [LaneFCmp.dec, LaneFCmp.enc, LaneFCmp.mk.injEq]
  exact ⟨fin_of (field_of (hi := c8 * 2 ^ 0) (low := cc.enc * 2 ^ 18 + a.enc * 2 ^ 12 + b.enc * 2 ^ 6 + pg.val * 2 ^ 3 + bitNat ng * 2 ^ 2 + bitNat ea * 2 ^ 1 + bitNat eb) (by omega) (by omega) (by omega)),
    (congrArg FltCond.dec (field_of (hi := c8 * 2 ^ 3 + pd.val) (low := a.enc * 2 ^ 12 + b.enc * 2 ^ 6 + pg.val * 2 ^ 3 + bitNat ng * 2 ^ 2 + bitNat ea * 2 ^ 1 + bitNat eb) (by omega) (by omega) (by omega))).trans cc.dec_enc,
    (congrArg Opnd.dec (field_of (hi := c8 * 2 ^ 6 + pd.val * 2 ^ 3 + cc.enc) (low := b.enc * 2 ^ 6 + pg.val * 2 ^ 3 + bitNat ng * 2 ^ 2 + bitNat ea * 2 ^ 1 + bitNat eb) (by omega) (by omega) (by omega))).trans a.dec_enc,
    (congrArg Opnd.dec (field_of (hi := c8 * 2 ^ 12 + pd.val * 2 ^ 9 + cc.enc * 2 ^ 6 + a.enc) (low := pg.val * 2 ^ 3 + bitNat ng * 2 ^ 2 + bitNat ea * 2 ^ 1 + bitNat eb) (by omega) (by omega) (by omega))).trans b.dec_enc,
    fin_of (field_of (hi := c8 * 2 ^ 18 + pd.val * 2 ^ 15 + cc.enc * 2 ^ 12 + a.enc * 2 ^ 6 + b.enc) (low := bitNat ng * 2 ^ 2 + bitNat ea * 2 ^ 1 + bitNat eb) (by omega) (by omega) (by omega)),
    bit_of (hi := c8 * 2 ^ 21 + pd.val * 2 ^ 18 + cc.enc * 2 ^ 15 + a.enc * 2 ^ 9 + b.enc * 2 ^ 3 + pg.val) (low := bitNat ea * 2 ^ 1 + bitNat eb) (by omega) (by omega),
    bit_of (hi := c8 * 2 ^ 22 + pd.val * 2 ^ 19 + cc.enc * 2 ^ 16 + a.enc * 2 ^ 10 + b.enc * 2 ^ 4 + pg.val * 2 ^ 1 + bitNat ng) (low := bitNat eb) (by omega) (by omega),
    bit_of (hi := c8 * 2 ^ 23 + pd.val * 2 ^ 20 + cc.enc * 2 ^ 17 + a.enc * 2 ^ 11 + b.enc * 2 ^ 5 + pg.val * 2 ^ 2 + bitNat ng * 2 ^ 1 + bitNat ea) (low := 0) (by omega) (by omega)⟩
theorem LaneFCmp.enc_op (c8 : Nat) (f : LaneFCmp) : f.enc c8 / 2 ^ 24 = c8 := by
  obtain ⟨pd, cc, a, b, pg, ng, ea, eb⟩ := f
  have h_pd := pd.isLt; have h_cc := cc.enc_lt; have h_a := a.enc_lt; have h_b := b.enc_lt; have h_pg := pg.isLt; have h_ng := bitNat_lt ng; have h_ea := bitNat_lt ea; have h_eb := bitNat_lt eb
  simp only [LaneFCmp.enc]
  exact op_of (low := pd.val * 2 ^ 21 + cc.enc * 2 ^ 18 + a.enc * 2 ^ 12 + b.enc * 2 ^ 6 + pg.val * 2 ^ 3 + bitNat ng * 2 ^ 2 + bitNat ea * 2 ^ 1 + bitNat eb) (by omega) (by omega)

@[simp] theorem LaneImm.dec_enc (c8 : Nat) (f : LaneImm) : LaneImm.dec (f.enc c8) = f := by
  obtain ⟨d, a, imm, pg⟩ := f
  have h_d := d.enc_lt; have h_a := a.enc_lt; have h_imm := imm.isLt; have h_pg := pg.isLt
  simp only [LaneImm.dec, LaneImm.enc, LaneImm.mk.injEq]
  exact ⟨(congrArg Opnd.dec (field_of (hi := c8 * 2 ^ 0) (low := a.enc * 2 ^ 12 + imm.toNat * 2 ^ 3 + pg.val) (by omega) (by omega) (by omega))).trans d.dec_enc,
    (congrArg Opnd.dec (field_of (hi := c8 * 2 ^ 6 + d.enc) (low := imm.toNat * 2 ^ 3 + pg.val) (by omega) (by omega) (by omega))).trans a.dec_enc,
    bv_of (field_of (hi := c8 * 2 ^ 12 + d.enc * 2 ^ 6 + a.enc) (low := pg.val) (by omega) (by omega) (by omega)),
    fin_of (field_of (hi := c8 * 2 ^ 21 + d.enc * 2 ^ 15 + a.enc * 2 ^ 9 + imm.toNat) (low := 0) (by omega) (by omega) (by omega))⟩
theorem LaneImm.enc_op (c8 : Nat) (f : LaneImm) : f.enc c8 / 2 ^ 24 = c8 := by
  obtain ⟨d, a, imm, pg⟩ := f
  have h_d := d.enc_lt; have h_a := a.enc_lt; have h_imm := imm.isLt; have h_pg := pg.isLt
  simp only [LaneImm.enc]
  exact op_of (low := d.enc * 2 ^ 18 + a.enc * 2 ^ 12 + imm.toNat * 2 ^ 3 + pg.val) (by omega) (by omega)

@[simp] theorem LaneLea.dec_enc (c8 : Nat) (f : LaneLea) : LaneLea.dec (f.enc c8) = f := by
  obtain ⟨d, a, sh, b, pg⟩ := f
  have h_d := d.enc_lt; have h_a := a.enc_lt; have h_sh := sh.isLt; have h_b := b.enc_lt; have h_pg := pg.isLt
  simp only [LaneLea.dec, LaneLea.enc, LaneLea.mk.injEq]
  exact ⟨(congrArg Opnd.dec (field_of (hi := c8 * 2 ^ 0) (low := a.enc * 2 ^ 12 + sh.val * 2 ^ 9 + b.enc * 2 ^ 3 + pg.val) (by omega) (by omega) (by omega))).trans d.dec_enc,
    (congrArg Opnd.dec (field_of (hi := c8 * 2 ^ 6 + d.enc) (low := sh.val * 2 ^ 9 + b.enc * 2 ^ 3 + pg.val) (by omega) (by omega) (by omega))).trans a.dec_enc,
    fin_of (field_of (hi := c8 * 2 ^ 12 + d.enc * 2 ^ 6 + a.enc) (low := b.enc * 2 ^ 3 + pg.val) (by omega) (by omega) (by omega)),
    (congrArg Opnd.dec (field_of (hi := c8 * 2 ^ 15 + d.enc * 2 ^ 9 + a.enc * 2 ^ 3 + sh.val) (low := pg.val) (by omega) (by omega) (by omega))).trans b.dec_enc,
    fin_of (field_of (hi := c8 * 2 ^ 21 + d.enc * 2 ^ 15 + a.enc * 2 ^ 9 + sh.val * 2 ^ 6 + b.enc) (low := 0) (by omega) (by omega) (by omega))⟩
theorem LaneLea.enc_op (c8 : Nat) (f : LaneLea) : f.enc c8 / 2 ^ 24 = c8 := by
  obtain ⟨d, a, sh, b, pg⟩ := f
  have h_d := d.enc_lt; have h_a := a.enc_lt; have h_sh := sh.isLt; have h_b := b.enc_lt; have h_pg := pg.isLt
  simp only [LaneLea.enc]
  exact op_of (low := d.enc * 2 ^ 18 + a.enc * 2 ^ 12 + sh.val * 2 ^ 9 + b.enc * 2 ^ 3 + pg.val) (by omega) (by omega)

@[simp] theorem LaneMovi.dec_enc (c8 : Nat) (f : LaneMovi) : LaneMovi.dec (f.enc c8) = f := by
  obtain ⟨d, imm, pg⟩ := f
  have h_d := d.enc_lt; have h_imm := imm.isLt; have h_pg := pg.isLt
  simp only [LaneMovi.dec, LaneMovi.enc, LaneMovi.mk.injEq]
  exact ⟨(congrArg Opnd.dec (field_of (hi := c8 * 2 ^ 0) (low := imm.toNat * 2 ^ 3 + pg.val) (by omega) (by omega) (by omega))).trans d.dec_enc,
    bv_of (field_of (hi := c8 * 2 ^ 6 + d.enc) (low := pg.val) (by omega) (by omega) (by omega)),
    fin_of (field_of (hi := c8 * 2 ^ 21 + d.enc * 2 ^ 15 + imm.toNat) (low := 0) (by omega) (by omega) (by omega))⟩
theorem LaneMovi.enc_op (c8 : Nat) (f : LaneMovi) : f.enc c8 / 2 ^ 24 = c8 := by
  obtain ⟨d, imm, pg⟩ := f
  have h_d := d.enc_lt; have h_imm := imm.isLt; have h_pg := pg.isLt
  simp only [LaneMovi.enc]
  exact op_of (low := d.enc * 2 ^ 18 + imm.toNat * 2 ^ 3 + pg.val) (by omega) (by omega)

@[simp] theorem LaneCvt.dec_enc (c8 : Nat) (f : LaneCvt) : LaneCvt.dec (f.enc c8) = f := by
  obtain ⟨d, a, rnd, sat, fmt, pg, ng, ea⟩ := f
  have h_d := d.enc_lt; have h_a := a.enc_lt; have h_rnd := rnd.enc_lt; have h_sat := bitNat_lt sat; have h_fmt := fmt.isLt; have h_pg := pg.isLt; have h_ng := bitNat_lt ng; have h_ea := bitNat_lt ea
  simp only [LaneCvt.dec, LaneCvt.enc, LaneCvt.mk.injEq]
  exact ⟨(congrArg Opnd.dec (field_of (hi := c8 * 2 ^ 0) (low := a.enc * 2 ^ 12 + rnd.enc * 2 ^ 9 + bitNat sat * 2 ^ 8 + fmt.val * 2 ^ 6 + pg.val * 2 ^ 3 + bitNat ng * 2 ^ 2 + bitNat ea * 2 ^ 1) (by omega) (by omega) (by omega))).trans d.dec_enc,
    (congrArg Opnd.dec (field_of (hi := c8 * 2 ^ 6 + d.enc) (low := rnd.enc * 2 ^ 9 + bitNat sat * 2 ^ 8 + fmt.val * 2 ^ 6 + pg.val * 2 ^ 3 + bitNat ng * 2 ^ 2 + bitNat ea * 2 ^ 1) (by omega) (by omega) (by omega))).trans a.dec_enc,
    (congrArg CvtRound.dec (field_of (hi := c8 * 2 ^ 12 + d.enc * 2 ^ 6 + a.enc) (low := bitNat sat * 2 ^ 8 + fmt.val * 2 ^ 6 + pg.val * 2 ^ 3 + bitNat ng * 2 ^ 2 + bitNat ea * 2 ^ 1) (by omega) (by omega) (by omega))).trans rnd.dec_enc,
    bit_of (hi := c8 * 2 ^ 15 + d.enc * 2 ^ 9 + a.enc * 2 ^ 3 + rnd.enc) (low := fmt.val * 2 ^ 6 + pg.val * 2 ^ 3 + bitNat ng * 2 ^ 2 + bitNat ea * 2 ^ 1) (by omega) (by omega),
    fin_of (field_of (hi := c8 * 2 ^ 16 + d.enc * 2 ^ 10 + a.enc * 2 ^ 4 + rnd.enc * 2 ^ 1 + bitNat sat) (low := pg.val * 2 ^ 3 + bitNat ng * 2 ^ 2 + bitNat ea * 2 ^ 1) (by omega) (by omega) (by omega)),
    fin_of (field_of (hi := c8 * 2 ^ 18 + d.enc * 2 ^ 12 + a.enc * 2 ^ 6 + rnd.enc * 2 ^ 3 + bitNat sat * 2 ^ 2 + fmt.val) (low := bitNat ng * 2 ^ 2 + bitNat ea * 2 ^ 1) (by omega) (by omega) (by omega)),
    bit_of (hi := c8 * 2 ^ 21 + d.enc * 2 ^ 15 + a.enc * 2 ^ 9 + rnd.enc * 2 ^ 6 + bitNat sat * 2 ^ 5 + fmt.val * 2 ^ 3 + pg.val) (low := bitNat ea * 2 ^ 1) (by omega) (by omega),
    bit_of (hi := c8 * 2 ^ 22 + d.enc * 2 ^ 16 + a.enc * 2 ^ 10 + rnd.enc * 2 ^ 7 + bitNat sat * 2 ^ 6 + fmt.val * 2 ^ 4 + pg.val * 2 ^ 1 + bitNat ng) (low := 0) (by omega) (by omega)⟩
theorem LaneCvt.enc_op (c8 : Nat) (f : LaneCvt) : f.enc c8 / 2 ^ 24 = c8 := by
  obtain ⟨d, a, rnd, sat, fmt, pg, ng, ea⟩ := f
  have h_d := d.enc_lt; have h_a := a.enc_lt; have h_rnd := rnd.enc_lt; have h_sat := bitNat_lt sat; have h_fmt := fmt.isLt; have h_pg := pg.isLt; have h_ng := bitNat_lt ng; have h_ea := bitNat_lt ea
  simp only [LaneCvt.enc]
  exact op_of (low := d.enc * 2 ^ 18 + a.enc * 2 ^ 12 + rnd.enc * 2 ^ 9 + bitNat sat * 2 ^ 8 + fmt.val * 2 ^ 6 + pg.val * 2 ^ 3 + bitNat ng * 2 ^ 2 + bitNat ea * 2 ^ 1) (by omega) (by omega)

@[simp] theorem LaneColl.dec_enc (c8 : Nat) (f : LaneColl) : LaneColl.dec (f.enc c8) = f := by
  obtain ⟨d, a, b, v, tg, ea⟩ := f
  have h_d := d.enc_lt; have h_a := a.enc_lt; have h_b := b.enc_lt; have h_v := v.isLt; have h_tg := bitNat_lt tg; have h_ea := bitNat_lt ea
  simp only [LaneColl.dec, LaneColl.enc, LaneColl.mk.injEq]
  exact ⟨(congrArg Opnd.dec (field_of (hi := c8 * 2 ^ 0) (low := a.enc * 2 ^ 12 + b.enc * 2 ^ 6 + v.val * 2 ^ 3 + bitNat tg * 2 ^ 2 + bitNat ea * 2 ^ 1) (by omega) (by omega) (by omega))).trans d.dec_enc,
    (congrArg Opnd.dec (field_of (hi := c8 * 2 ^ 6 + d.enc) (low := b.enc * 2 ^ 6 + v.val * 2 ^ 3 + bitNat tg * 2 ^ 2 + bitNat ea * 2 ^ 1) (by omega) (by omega) (by omega))).trans a.dec_enc,
    (congrArg Opnd.dec (field_of (hi := c8 * 2 ^ 12 + d.enc * 2 ^ 6 + a.enc) (low := v.val * 2 ^ 3 + bitNat tg * 2 ^ 2 + bitNat ea * 2 ^ 1) (by omega) (by omega) (by omega))).trans b.dec_enc,
    fin_of (field_of (hi := c8 * 2 ^ 18 + d.enc * 2 ^ 12 + a.enc * 2 ^ 6 + b.enc) (low := bitNat tg * 2 ^ 2 + bitNat ea * 2 ^ 1) (by omega) (by omega) (by omega)),
    bit_of (hi := c8 * 2 ^ 21 + d.enc * 2 ^ 15 + a.enc * 2 ^ 9 + b.enc * 2 ^ 3 + v.val) (low := bitNat ea * 2 ^ 1) (by omega) (by omega),
    bit_of (hi := c8 * 2 ^ 22 + d.enc * 2 ^ 16 + a.enc * 2 ^ 10 + b.enc * 2 ^ 4 + v.val * 2 ^ 1 + bitNat tg) (low := 0) (by omega) (by omega)⟩
theorem LaneColl.enc_op (c8 : Nat) (f : LaneColl) : f.enc c8 / 2 ^ 24 = c8 := by
  obtain ⟨d, a, b, v, tg, ea⟩ := f
  have h_d := d.enc_lt; have h_a := a.enc_lt; have h_b := b.enc_lt; have h_v := v.isLt; have h_tg := bitNat_lt tg; have h_ea := bitNat_lt ea
  simp only [LaneColl.enc]
  exact op_of (low := d.enc * 2 ^ 18 + a.enc * 2 ^ 12 + b.enc * 2 ^ 6 + v.val * 2 ^ 3 + bitNat tg * 2 ^ 2 + bitNat ea * 2 ^ 1) (by omega) (by omega)

@[simp] theorem LaneGred.dec_enc (c8 : Nat) (f : LaneGred) : LaneGred.dec (f.enc c8) = f := by
  obtain ⟨d, a, b, op, tg, ea⟩ := f
  have h_d := d.enc_lt; have h_a := a.enc_lt; have h_b := b.enc_lt; have h_op := op.enc_lt; have h_tg := bitNat_lt tg; have h_ea := bitNat_lt ea
  simp only [LaneGred.dec, LaneGred.enc, LaneGred.mk.injEq]
  exact ⟨(congrArg Opnd.dec (field_of (hi := c8 * 2 ^ 0) (low := a.enc * 2 ^ 12 + b.enc * 2 ^ 6 + op.enc * 2 ^ 3 + bitNat tg * 2 ^ 2 + bitNat ea * 2 ^ 1) (by omega) (by omega) (by omega))).trans d.dec_enc,
    (congrArg Opnd.dec (field_of (hi := c8 * 2 ^ 6 + d.enc) (low := b.enc * 2 ^ 6 + op.enc * 2 ^ 3 + bitNat tg * 2 ^ 2 + bitNat ea * 2 ^ 1) (by omega) (by omega) (by omega))).trans a.dec_enc,
    (congrArg Opnd.dec (field_of (hi := c8 * 2 ^ 12 + d.enc * 2 ^ 6 + a.enc) (low := op.enc * 2 ^ 3 + bitNat tg * 2 ^ 2 + bitNat ea * 2 ^ 1) (by omega) (by omega) (by omega))).trans b.dec_enc,
    (congrArg RedOp.dec (field_of (hi := c8 * 2 ^ 18 + d.enc * 2 ^ 12 + a.enc * 2 ^ 6 + b.enc) (low := bitNat tg * 2 ^ 2 + bitNat ea * 2 ^ 1) (by omega) (by omega) (by omega))).trans op.dec_enc,
    bit_of (hi := c8 * 2 ^ 21 + d.enc * 2 ^ 15 + a.enc * 2 ^ 9 + b.enc * 2 ^ 3 + op.enc) (low := bitNat ea * 2 ^ 1) (by omega) (by omega),
    bit_of (hi := c8 * 2 ^ 22 + d.enc * 2 ^ 16 + a.enc * 2 ^ 10 + b.enc * 2 ^ 4 + op.enc * 2 ^ 1 + bitNat tg) (low := 0) (by omega) (by omega)⟩
theorem LaneGred.enc_op (c8 : Nat) (f : LaneGred) : f.enc c8 / 2 ^ 24 = c8 := by
  obtain ⟨d, a, b, op, tg, ea⟩ := f
  have h_d := d.enc_lt; have h_a := a.enc_lt; have h_b := b.enc_lt; have h_op := op.enc_lt; have h_tg := bitNat_lt tg; have h_ea := bitNat_lt ea
  simp only [LaneGred.enc]
  exact op_of (low := d.enc * 2 ^ 18 + a.enc * 2 ^ 12 + b.enc * 2 ^ 6 + op.enc * 2 ^ 3 + bitNat tg * 2 ^ 2 + bitNat ea * 2 ^ 1) (by omega) (by omega)

@[simp] theorem LaneVote.dec_enc (c8 : Nat) (f : LaneVote) : LaneVote.dec (f.enc c8) = f := by
  obtain ⟨pd, mode, ps, b, tg⟩ := f
  have h_pd := pd.isLt; have h_mode := mode.enc_lt; have h_ps := ps.isLt; have h_b := b.enc_lt; have h_tg := bitNat_lt tg
  simp only [LaneVote.dec, LaneVote.enc, LaneVote.mk.injEq]
  exact ⟨fin_of (field_of (hi := c8 * 2 ^ 0) (low := mode.enc * 2 ^ 18 + ps.val * 2 ^ 15 + b.enc * 2 ^ 6 + bitNat tg * 2 ^ 2) (by omega) (by omega) (by omega)),
    (congrArg VoteMode.dec (field_of (hi := c8 * 2 ^ 3 + pd.val) (low := ps.val * 2 ^ 15 + b.enc * 2 ^ 6 + bitNat tg * 2 ^ 2) (by omega) (by omega) (by omega))).trans mode.dec_enc,
    fin_of (field_of (hi := c8 * 2 ^ 6 + pd.val * 2 ^ 3 + mode.enc) (low := b.enc * 2 ^ 6 + bitNat tg * 2 ^ 2) (by omega) (by omega) (by omega)),
    (congrArg Opnd.dec (field_of (hi := c8 * 2 ^ 12 + pd.val * 2 ^ 9 + mode.enc * 2 ^ 6 + ps.val * 2 ^ 3) (low := bitNat tg * 2 ^ 2) (by omega) (by omega) (by omega))).trans b.dec_enc,
    bit_of (hi := c8 * 2 ^ 21 + pd.val * 2 ^ 18 + mode.enc * 2 ^ 15 + ps.val * 2 ^ 12 + b.enc * 2 ^ 3) (low := 0) (by omega) (by omega)⟩
theorem LaneVote.enc_op (c8 : Nat) (f : LaneVote) : f.enc c8 / 2 ^ 24 = c8 := by
  obtain ⟨pd, mode, ps, b, tg⟩ := f
  have h_pd := pd.isLt; have h_mode := mode.enc_lt; have h_ps := ps.isLt; have h_b := b.enc_lt; have h_tg := bitNat_lt tg
  simp only [LaneVote.enc]
  exact op_of (low := pd.val * 2 ^ 21 + mode.enc * 2 ^ 18 + ps.val * 2 ^ 15 + b.enc * 2 ^ 6 + bitNat tg * 2 ^ 2) (by omega) (by omega)

@[simp] theorem LaneBallot.dec_enc (c8 : Nat) (f : LaneBallot) : LaneBallot.dec (f.enc c8) = f := by
  obtain ⟨d, ps, b, tg⟩ := f
  have h_d := d.enc_lt; have h_ps := ps.isLt; have h_b := b.enc_lt; have h_tg := bitNat_lt tg
  simp only [LaneBallot.dec, LaneBallot.enc, LaneBallot.mk.injEq]
  exact ⟨(congrArg Opnd.dec (field_of (hi := c8 * 2 ^ 0) (low := ps.val * 2 ^ 15 + b.enc * 2 ^ 6 + bitNat tg * 2 ^ 2) (by omega) (by omega) (by omega))).trans d.dec_enc,
    fin_of (field_of (hi := c8 * 2 ^ 6 + d.enc) (low := b.enc * 2 ^ 6 + bitNat tg * 2 ^ 2) (by omega) (by omega) (by omega)),
    (congrArg Opnd.dec (field_of (hi := c8 * 2 ^ 12 + d.enc * 2 ^ 6 + ps.val * 2 ^ 3) (low := bitNat tg * 2 ^ 2) (by omega) (by omega) (by omega))).trans b.dec_enc,
    bit_of (hi := c8 * 2 ^ 21 + d.enc * 2 ^ 15 + ps.val * 2 ^ 12 + b.enc * 2 ^ 3) (low := 0) (by omega) (by omega)⟩
theorem LaneBallot.enc_op (c8 : Nat) (f : LaneBallot) : f.enc c8 / 2 ^ 24 = c8 := by
  obtain ⟨d, ps, b, tg⟩ := f
  have h_d := d.enc_lt; have h_ps := ps.isLt; have h_b := b.enc_lt; have h_tg := bitNat_lt tg
  simp only [LaneBallot.enc]
  exact op_of (low := d.enc * 2 ^ 18 + ps.val * 2 ^ 15 + b.enc * 2 ^ 6 + bitNat tg * 2 ^ 2) (by omega) (by omega)

@[simp] theorem LaneBar.dec_enc (c8 : Nat) (f : LaneBar) : LaneBar.dec (f.enc c8) = f := by
  obtain ⟨b, tg⟩ := f
  have h_b := b.enc_lt; have h_tg := bitNat_lt tg
  simp only [LaneBar.dec, LaneBar.enc, LaneBar.mk.injEq]
  exact ⟨(congrArg Opnd.dec (field_of (hi := c8 * 2 ^ 12) (low := bitNat tg * 2 ^ 2) (by omega) (by omega) (by omega))).trans b.dec_enc,
    bit_of (hi := c8 * 2 ^ 21 + b.enc * 2 ^ 3) (low := 0) (by omega) (by omega)⟩
theorem LaneBar.enc_op (c8 : Nat) (f : LaneBar) : f.enc c8 / 2 ^ 24 = c8 := by
  obtain ⟨b, tg⟩ := f
  have h_b := b.enc_lt; have h_tg := bitNat_lt tg
  simp only [LaneBar.enc]
  exact op_of (low := b.enc * 2 ^ 6 + bitNat tg * 2 ^ 2) (by omega) (by omega)

@[simp] theorem LaneOne.dec_enc (c8 : Nat) (f : LaneOne) : LaneOne.dec (f.enc c8) = f := by
  obtain ⟨d, pg, ng⟩ := f
  have h_d := d.enc_lt; have h_pg := pg.isLt; have h_ng := bitNat_lt ng
  simp only [LaneOne.dec, LaneOne.enc, LaneOne.mk.injEq]
  exact ⟨(congrArg Opnd.dec (field_of (hi := c8 * 2 ^ 0) (low := pg.val * 2 ^ 3 + bitNat ng * 2 ^ 2) (by omega) (by omega) (by omega))).trans d.dec_enc,
    fin_of (field_of (hi := c8 * 2 ^ 18 + d.enc * 2 ^ 12) (low := bitNat ng * 2 ^ 2) (by omega) (by omega) (by omega)),
    bit_of (hi := c8 * 2 ^ 21 + d.enc * 2 ^ 15 + pg.val) (low := 0) (by omega) (by omega)⟩
theorem LaneOne.enc_op (c8 : Nat) (f : LaneOne) : f.enc c8 / 2 ^ 24 = c8 := by
  obtain ⟨d, pg, ng⟩ := f
  have h_d := d.enc_lt; have h_pg := pg.isLt; have h_ng := bitNat_lt ng
  simp only [LaneOne.enc]
  exact op_of (low := d.enc * 2 ^ 18 + pg.val * 2 ^ 3 + bitNat ng * 2 ^ 2) (by omega) (by omega)

@[simp] theorem LaneSrc.dec_enc (c8 : Nat) (f : LaneSrc) : LaneSrc.dec (f.enc c8) = f := by
  obtain ⟨a, pg, ng, ea⟩ := f
  have h_a := a.enc_lt; have h_pg := pg.isLt; have h_ng := bitNat_lt ng; have h_ea := bitNat_lt ea
  simp only [LaneSrc.dec, LaneSrc.enc, LaneSrc.mk.injEq]
  exact ⟨(congrArg Opnd.dec (field_of (hi := c8 * 2 ^ 6) (low := pg.val * 2 ^ 3 + bitNat ng * 2 ^ 2 + bitNat ea * 2 ^ 1) (by omega) (by omega) (by omega))).trans a.dec_enc,
    fin_of (field_of (hi := c8 * 2 ^ 18 + a.enc * 2 ^ 6) (low := bitNat ng * 2 ^ 2 + bitNat ea * 2 ^ 1) (by omega) (by omega) (by omega)),
    bit_of (hi := c8 * 2 ^ 21 + a.enc * 2 ^ 9 + pg.val) (low := bitNat ea * 2 ^ 1) (by omega) (by omega),
    bit_of (hi := c8 * 2 ^ 22 + a.enc * 2 ^ 10 + pg.val * 2 ^ 1 + bitNat ng) (low := 0) (by omega) (by omega)⟩
theorem LaneSrc.enc_op (c8 : Nat) (f : LaneSrc) : f.enc c8 / 2 ^ 24 = c8 := by
  obtain ⟨a, pg, ng, ea⟩ := f
  have h_a := a.enc_lt; have h_pg := pg.isLt; have h_ng := bitNat_lt ng; have h_ea := bitNat_lt ea
  simp only [LaneSrc.enc]
  exact op_of (low := a.enc * 2 ^ 12 + pg.val * 2 ^ 3 + bitNat ng * 2 ^ 2 + bitNat ea * 2 ^ 1) (by omega) (by omega)

@[simp] theorem LaneGetid.dec_enc (c8 : Nat) (f : LaneGetid) : LaneGetid.dec (f.enc c8) = f := by
  obtain ⟨d, sel, pg⟩ := f
  have h_d := d.enc_lt; have h_sel := sel.isLt; have h_pg := pg.isLt
  simp only [LaneGetid.dec, LaneGetid.enc, LaneGetid.mk.injEq]
  exact ⟨(congrArg Opnd.dec (field_of (hi := c8 * 2 ^ 0) (low := sel.toNat * 2 ^ 3 + pg.val) (by omega) (by omega) (by omega))).trans d.dec_enc,
    bv_of (field_of (hi := c8 * 2 ^ 12 + d.enc * 2 ^ 6) (low := pg.val) (by omega) (by omega) (by omega)),
    fin_of (field_of (hi := c8 * 2 ^ 21 + d.enc * 2 ^ 15 + sel.toNat) (low := 0) (by omega) (by omega) (by omega))⟩
theorem LaneGetid.enc_op (c8 : Nat) (f : LaneGetid) : f.enc c8 / 2 ^ 24 = c8 := by
  obtain ⟨d, sel, pg⟩ := f
  have h_d := d.enc_lt; have h_sel := sel.isLt; have h_pg := pg.isLt
  simp only [LaneGetid.enc]
  exact op_of (low := d.enc * 2 ^ 18 + sel.toNat * 2 ^ 3 + pg.val) (by omega) (by omega)

@[simp] theorem LaneMem.dec_enc (c8 : Nat) (f : LaneMem) : LaneMem.dec (f.enc c8) = f := by
  obtain ⟨d, a, off, sc, st, pg⟩ := f
  have h_d := d.enc_lt; have h_a := a.enc_lt; have h_off := off.isLt; have h_sc := sc.enc_lt; have h_st := st.enc_lt; have h_pg := pg.isLt
  simp only [LaneMem.dec, LaneMem.enc, LaneMem.mk.injEq]
  exact ⟨(congrArg Opnd.dec (field_of (hi := c8 * 2 ^ 0) (low := a.enc * 2 ^ 12 + off.toNat * 2 ^ 6 + sc.enc * 2 ^ 4 + st.enc * 2 ^ 2 + pg.val) (by omega) (by omega) (by omega))).trans d.dec_enc,
    (congrArg Opnd.dec (field_of (hi := c8 * 2 ^ 6 + d.enc) (low := off.toNat * 2 ^ 6 + sc.enc * 2 ^ 4 + st.enc * 2 ^ 2 + pg.val) (by omega) (by omega) (by omega))).trans a.dec_enc,
    bv_of (field_of (hi := c8 * 2 ^ 12 + d.enc * 2 ^ 6 + a.enc) (low := sc.enc * 2 ^ 4 + st.enc * 2 ^ 2 + pg.val) (by omega) (by omega) (by omega)),
    (congrArg Scope.dec (field_of (hi := c8 * 2 ^ 18 + d.enc * 2 ^ 12 + a.enc * 2 ^ 6 + off.toNat) (low := st.enc * 2 ^ 2 + pg.val) (by omega) (by omega) (by omega))).trans sc.dec_enc,
    (congrArg Strength.dec (field_of (hi := c8 * 2 ^ 20 + d.enc * 2 ^ 14 + a.enc * 2 ^ 8 + off.toNat * 2 ^ 2 + sc.enc) (low := pg.val) (by omega) (by omega) (by omega))).trans st.dec_enc,
    fin_of (field_of (hi := c8 * 2 ^ 22 + d.enc * 2 ^ 16 + a.enc * 2 ^ 10 + off.toNat * 2 ^ 4 + sc.enc * 2 ^ 2 + st.enc) (low := 0) (by omega) (by omega) (by omega))⟩
theorem LaneMem.enc_op (c8 : Nat) (f : LaneMem) : f.enc c8 / 2 ^ 24 = c8 := by
  obtain ⟨d, a, off, sc, st, pg⟩ := f
  have h_d := d.enc_lt; have h_a := a.enc_lt; have h_off := off.isLt; have h_sc := sc.enc_lt; have h_st := st.enc_lt; have h_pg := pg.isLt
  simp only [LaneMem.enc]
  exact op_of (low := d.enc * 2 ^ 18 + a.enc * 2 ^ 12 + off.toNat * 2 ^ 6 + sc.enc * 2 ^ 4 + st.enc * 2 ^ 2 + pg.val) (by omega) (by omega)

@[simp] theorem LaneMemIdx.dec_enc (c8 : Nat) (f : LaneMemIdx) : LaneMemIdx.dec (f.enc c8) = f := by
  obtain ⟨d, a, b, sc, st, pg⟩ := f
  have h_d := d.enc_lt; have h_a := a.enc_lt; have h_b := b.enc_lt; have h_sc := sc.enc_lt; have h_st := st.enc_lt; have h_pg := pg.isLt
  simp only [LaneMemIdx.dec, LaneMemIdx.enc, LaneMemIdx.mk.injEq]
  exact ⟨(congrArg Opnd.dec (field_of (hi := c8 * 2 ^ 0) (low := a.enc * 2 ^ 12 + b.enc * 2 ^ 6 + sc.enc * 2 ^ 4 + st.enc * 2 ^ 2 + pg.val) (by omega) (by omega) (by omega))).trans d.dec_enc,
    (congrArg Opnd.dec (field_of (hi := c8 * 2 ^ 6 + d.enc) (low := b.enc * 2 ^ 6 + sc.enc * 2 ^ 4 + st.enc * 2 ^ 2 + pg.val) (by omega) (by omega) (by omega))).trans a.dec_enc,
    (congrArg Opnd.dec (field_of (hi := c8 * 2 ^ 12 + d.enc * 2 ^ 6 + a.enc) (low := sc.enc * 2 ^ 4 + st.enc * 2 ^ 2 + pg.val) (by omega) (by omega) (by omega))).trans b.dec_enc,
    (congrArg Scope.dec (field_of (hi := c8 * 2 ^ 18 + d.enc * 2 ^ 12 + a.enc * 2 ^ 6 + b.enc) (low := st.enc * 2 ^ 2 + pg.val) (by omega) (by omega) (by omega))).trans sc.dec_enc,
    (congrArg Strength.dec (field_of (hi := c8 * 2 ^ 20 + d.enc * 2 ^ 14 + a.enc * 2 ^ 8 + b.enc * 2 ^ 2 + sc.enc) (low := pg.val) (by omega) (by omega) (by omega))).trans st.dec_enc,
    fin_of (field_of (hi := c8 * 2 ^ 22 + d.enc * 2 ^ 16 + a.enc * 2 ^ 10 + b.enc * 2 ^ 4 + sc.enc * 2 ^ 2 + st.enc) (low := 0) (by omega) (by omega) (by omega))⟩
theorem LaneMemIdx.enc_op (c8 : Nat) (f : LaneMemIdx) : f.enc c8 / 2 ^ 24 = c8 := by
  obtain ⟨d, a, b, sc, st, pg⟩ := f
  have h_d := d.enc_lt; have h_a := a.enc_lt; have h_b := b.enc_lt; have h_sc := sc.enc_lt; have h_st := st.enc_lt; have h_pg := pg.isLt
  simp only [LaneMemIdx.enc]
  exact op_of (low := d.enc * 2 ^ 18 + a.enc * 2 ^ 12 + b.enc * 2 ^ 6 + sc.enc * 2 ^ 4 + st.enc * 2 ^ 2 + pg.val) (by omega) (by omega)

@[simp] theorem LanePref.dec_enc (c8 : Nat) (f : LanePref) : LanePref.dec (f.enc c8) = f := by
  obtain ⟨a, off, pg⟩ := f
  have h_a := a.enc_lt; have h_off := off.isLt; have h_pg := pg.isLt
  simp only [LanePref.dec, LanePref.enc, LanePref.mk.injEq]
  exact ⟨(congrArg Opnd.dec (field_of (hi := c8 * 2 ^ 6) (low := off.toNat * 2 ^ 6 + pg.val) (by omega) (by omega) (by omega))).trans a.dec_enc,
    bv_of (field_of (hi := c8 * 2 ^ 12 + a.enc) (low := pg.val) (by omega) (by omega) (by omega)),
    fin_of (field_of (hi := c8 * 2 ^ 22 + a.enc * 2 ^ 10 + off.toNat * 2 ^ 4) (low := 0) (by omega) (by omega) (by omega))⟩
theorem LanePref.enc_op (c8 : Nat) (f : LanePref) : f.enc c8 / 2 ^ 24 = c8 := by
  obtain ⟨a, off, pg⟩ := f
  have h_a := a.enc_lt; have h_off := off.isLt; have h_pg := pg.isLt
  simp only [LanePref.enc]
  exact op_of (low := a.enc * 2 ^ 12 + off.toNat * 2 ^ 6 + pg.val) (by omega) (by omega)

@[simp] theorem LaneRemote.dec_enc (c8 : Nat) (f : LaneRemote) : LaneRemote.dec (f.enc c8) = f := by
  obtain ⟨d, a, off, st, pg⟩ := f
  have h_d := d.enc_lt; have h_a := a.enc_lt; have h_off := off.isLt; have h_st := st.enc_lt; have h_pg := pg.isLt
  simp only [LaneRemote.dec, LaneRemote.enc, LaneRemote.mk.injEq]
  exact ⟨(congrArg Opnd.dec (field_of (hi := c8 * 2 ^ 0) (low := a.enc * 2 ^ 12 + off.toNat * 2 ^ 6 + st.enc * 2 ^ 2 + pg.val) (by omega) (by omega) (by omega))).trans d.dec_enc,
    (congrArg Opnd.dec (field_of (hi := c8 * 2 ^ 6 + d.enc) (low := off.toNat * 2 ^ 6 + st.enc * 2 ^ 2 + pg.val) (by omega) (by omega) (by omega))).trans a.dec_enc,
    bv_of (field_of (hi := c8 * 2 ^ 12 + d.enc * 2 ^ 6 + a.enc) (low := st.enc * 2 ^ 2 + pg.val) (by omega) (by omega) (by omega)),
    (congrArg Strength.dec (field_of (hi := c8 * 2 ^ 20 + d.enc * 2 ^ 14 + a.enc * 2 ^ 8 + off.toNat * 2 ^ 2) (low := pg.val) (by omega) (by omega) (by omega))).trans st.dec_enc,
    fin_of (field_of (hi := c8 * 2 ^ 22 + d.enc * 2 ^ 16 + a.enc * 2 ^ 10 + off.toNat * 2 ^ 4 + st.enc) (low := 0) (by omega) (by omega) (by omega))⟩
theorem LaneRemote.enc_op (c8 : Nat) (f : LaneRemote) : f.enc c8 / 2 ^ 24 = c8 := by
  obtain ⟨d, a, off, st, pg⟩ := f
  have h_d := d.enc_lt; have h_a := a.enc_lt; have h_off := off.isLt; have h_st := st.enc_lt; have h_pg := pg.isLt
  simp only [LaneRemote.enc]
  exact op_of (low := d.enc * 2 ^ 18 + a.enc * 2 ^ 12 + off.toNat * 2 ^ 6 + st.enc * 2 ^ 2 + pg.val) (by omega) (by omega)

@[simp] theorem LaneRatom.dec_enc (c8 : Nat) (f : LaneRatom) : LaneRatom.dec (f.enc c8) = f := by
  obtain ⟨d, a, b, op, st⟩ := f
  have h_d := d.enc_lt; have h_a := a.enc_lt; have h_b := b.enc_lt; have h_op := op.enc_lt; have h_st := st.enc_lt
  simp only [LaneRatom.dec, LaneRatom.enc, LaneRatom.mk.injEq]
  exact ⟨(congrArg Opnd.dec (field_of (hi := c8 * 2 ^ 0) (low := a.enc * 2 ^ 12 + b.enc * 2 ^ 6 + op.enc * 2 ^ 2 + st.enc) (by omega) (by omega) (by omega))).trans d.dec_enc,
    (congrArg Opnd.dec (field_of (hi := c8 * 2 ^ 6 + d.enc) (low := b.enc * 2 ^ 6 + op.enc * 2 ^ 2 + st.enc) (by omega) (by omega) (by omega))).trans a.dec_enc,
    (congrArg Opnd.dec (field_of (hi := c8 * 2 ^ 12 + d.enc * 2 ^ 6 + a.enc) (low := op.enc * 2 ^ 2 + st.enc) (by omega) (by omega) (by omega))).trans b.dec_enc,
    (congrArg AtomOp.dec (field_of (hi := c8 * 2 ^ 18 + d.enc * 2 ^ 12 + a.enc * 2 ^ 6 + b.enc) (low := st.enc) (by omega) (by omega) (by omega))).trans op.dec_enc,
    (congrArg Strength.dec (field_of (hi := c8 * 2 ^ 22 + d.enc * 2 ^ 16 + a.enc * 2 ^ 10 + b.enc * 2 ^ 4 + op.enc) (low := 0) (by omega) (by omega) (by omega))).trans st.dec_enc⟩
theorem LaneRatom.enc_op (c8 : Nat) (f : LaneRatom) : f.enc c8 / 2 ^ 24 = c8 := by
  obtain ⟨d, a, b, op, st⟩ := f
  have h_d := d.enc_lt; have h_a := a.enc_lt; have h_b := b.enc_lt; have h_op := op.enc_lt; have h_st := st.enc_lt
  simp only [LaneRatom.enc]
  exact op_of (low := d.enc * 2 ^ 18 + a.enc * 2 ^ 12 + b.enc * 2 ^ 6 + op.enc * 2 ^ 2 + st.enc) (by omega) (by omega)

@[simp] theorem LaneBr.dec_enc (c8 : Nat) (f : LaneBr) : LaneBr.dec (f.enc c8) = f := by
  obtain ⟨pg, ng, off⟩ := f
  have h_pg := pg.isLt; have h_ng := bitNat_lt ng; have h_off := off.isLt
  simp only [LaneBr.dec, LaneBr.enc, LaneBr.mk.injEq]
  exact ⟨fin_of (field_of (hi := c8 * 2 ^ 0) (low := bitNat ng * 2 ^ 20 + off.toNat) (by omega) (by omega) (by omega)),
    bit_of (hi := c8 * 2 ^ 3 + pg.val) (low := off.toNat) (by omega) (by omega),
    bv_of (field_of (hi := c8 * 2 ^ 4 + pg.val * 2 ^ 1 + bitNat ng) (low := 0) (by omega) (by omega) (by omega))⟩
theorem LaneBr.enc_op (c8 : Nat) (f : LaneBr) : f.enc c8 / 2 ^ 24 = c8 := by
  obtain ⟨pg, ng, off⟩ := f
  have h_pg := pg.isLt; have h_ng := bitNat_lt ng; have h_off := off.isLt
  simp only [LaneBr.enc]
  exact op_of (low := pg.val * 2 ^ 21 + bitNat ng * 2 ^ 20 + off.toNat) (by omega) (by omega)

@[simp] theorem LaneGuard.dec_enc (c8 : Nat) (f : LaneGuard) : LaneGuard.dec (f.enc c8) = f := by
  obtain ⟨pg, ng⟩ := f
  have h_pg := pg.isLt; have h_ng := bitNat_lt ng
  simp only [LaneGuard.dec, LaneGuard.enc, LaneGuard.mk.injEq]
  exact ⟨fin_of (field_of (hi := c8 * 2 ^ 18) (low := bitNat ng * 2 ^ 2) (by omega) (by omega) (by omega)),
    bit_of (hi := c8 * 2 ^ 21 + pg.val) (low := 0) (by omega) (by omega)⟩
theorem LaneGuard.enc_op (c8 : Nat) (f : LaneGuard) : f.enc c8 / 2 ^ 24 = c8 := by
  obtain ⟨pg, ng⟩ := f
  have h_pg := pg.isLt; have h_ng := bitNat_lt ng
  simp only [LaneGuard.enc]
  exact op_of (low := pg.val * 2 ^ 3 + bitNat ng * 2 ^ 2) (by omega) (by omega)

@[simp] theorem LaneExit.dec_enc (c8 : Nat) (f : LaneExit) : LaneExit.dec (f.enc c8) = f := by
  obtain ⟨sc, pg⟩ := f
  have h_sc := sc.enc_lt; have h_pg := pg.isLt
  simp only [LaneExit.dec, LaneExit.enc, LaneExit.mk.injEq]
  exact ⟨(congrArg Scope.dec (field_of (hi := c8 * 2 ^ 18) (low := pg.val) (by omega) (by omega) (by omega))).trans sc.dec_enc,
    fin_of (field_of (hi := c8 * 2 ^ 22 + sc.enc * 2 ^ 2) (low := 0) (by omega) (by omega) (by omega))⟩
theorem LaneExit.enc_op (c8 : Nat) (f : LaneExit) : f.enc c8 / 2 ^ 24 = c8 := by
  obtain ⟨sc, pg⟩ := f
  have h_sc := sc.enc_lt; have h_pg := pg.isLt
  simp only [LaneExit.enc]
  exact op_of (low := sc.enc * 2 ^ 4 + pg.val) (by omega) (by omega)

@[simp] theorem LaneSpawn.dec_enc (c8 : Nat) (f : LaneSpawn) : LaneSpawn.dec (f.enc c8) = f := by
  obtain ⟨size, a, b, pg, ng, ea⟩ := f
  have h_size := size.enc_lt; have h_a := a.enc_lt; have h_b := b.enc_lt; have h_pg := pg.isLt; have h_ng := bitNat_lt ng; have h_ea := bitNat_lt ea
  simp only [LaneSpawn.dec, LaneSpawn.enc, LaneSpawn.mk.injEq]
  exact ⟨(congrArg RecSize.dec (field_of (hi := c8 * 2 ^ 0) (low := a.enc * 2 ^ 12 + b.enc * 2 ^ 6 + pg.val * 2 ^ 3 + bitNat ng * 2 ^ 2 + bitNat ea * 2 ^ 1) (by omega) (by omega) (by omega))).trans size.dec_enc,
    (congrArg Opnd.dec (field_of (hi := c8 * 2 ^ 6 + size.enc * 2 ^ 4) (low := b.enc * 2 ^ 6 + pg.val * 2 ^ 3 + bitNat ng * 2 ^ 2 + bitNat ea * 2 ^ 1) (by omega) (by omega) (by omega))).trans a.dec_enc,
    (congrArg Opnd.dec (field_of (hi := c8 * 2 ^ 12 + size.enc * 2 ^ 10 + a.enc) (low := pg.val * 2 ^ 3 + bitNat ng * 2 ^ 2 + bitNat ea * 2 ^ 1) (by omega) (by omega) (by omega))).trans b.dec_enc,
    fin_of (field_of (hi := c8 * 2 ^ 18 + size.enc * 2 ^ 16 + a.enc * 2 ^ 6 + b.enc) (low := bitNat ng * 2 ^ 2 + bitNat ea * 2 ^ 1) (by omega) (by omega) (by omega)),
    bit_of (hi := c8 * 2 ^ 21 + size.enc * 2 ^ 19 + a.enc * 2 ^ 9 + b.enc * 2 ^ 3 + pg.val) (low := bitNat ea * 2 ^ 1) (by omega) (by omega),
    bit_of (hi := c8 * 2 ^ 22 + size.enc * 2 ^ 20 + a.enc * 2 ^ 10 + b.enc * 2 ^ 4 + pg.val * 2 ^ 1 + bitNat ng) (low := 0) (by omega) (by omega)⟩
theorem LaneSpawn.enc_op (c8 : Nat) (f : LaneSpawn) : f.enc c8 / 2 ^ 24 = c8 := by
  obtain ⟨size, a, b, pg, ng, ea⟩ := f
  have h_size := size.enc_lt; have h_a := a.enc_lt; have h_b := b.enc_lt; have h_pg := pg.isLt; have h_ng := bitNat_lt ng; have h_ea := bitNat_lt ea
  simp only [LaneSpawn.enc]
  exact op_of (low := size.enc * 2 ^ 22 + a.enc * 2 ^ 12 + b.enc * 2 ^ 6 + pg.val * 2 ^ 3 + bitNat ng * 2 ^ 2 + bitNat ea * 2 ^ 1) (by omega) (by omega)

@[simp] theorem GrpBin.dec_enc (c8 : Nat) (f : GrpBin) : GrpBin.dec (f.enc c8) = f := by
  obtain ⟨d, a, b, cg, ng, ea, eb, w⟩ := f
  have h_d := d.enc_lt; have h_a := a.enc_lt; have h_b := b.enc_lt; have h_cg := cg.isLt; have h_ng := bitNat_lt ng; have h_ea := bitNat_lt ea; have h_eb := bitNat_lt eb; have h_w := bitNat_lt w
  simp only [GrpBin.dec, GrpBin.enc, GrpBin.mk.injEq]
  exact ⟨(congrArg Opnd.dec (field_of (hi := c8 * 2 ^ 0) (low := a.enc * 2 ^ 12 + b.enc * 2 ^ 6 + cg.val * 2 ^ 4 + bitNat ng * 2 ^ 3 + bitNat ea * 2 ^ 2 + bitNat eb * 2 ^ 1 + bitNat w) (by omega) (by omega) (by omega))).trans d.dec_enc,
    (congrArg Opnd.dec (field_of (hi := c8 * 2 ^ 6 + d.enc) (low := b.enc * 2 ^ 6 + cg.val * 2 ^ 4 + bitNat ng * 2 ^ 3 + bitNat ea * 2 ^ 2 + bitNat eb * 2 ^ 1 + bitNat w) (by omega) (by omega) (by omega))).trans a.dec_enc,
    (congrArg Opnd.dec (field_of (hi := c8 * 2 ^ 12 + d.enc * 2 ^ 6 + a.enc) (low := cg.val * 2 ^ 4 + bitNat ng * 2 ^ 3 + bitNat ea * 2 ^ 2 + bitNat eb * 2 ^ 1 + bitNat w) (by omega) (by omega) (by omega))).trans b.dec_enc,
    fin_of (field_of (hi := c8 * 2 ^ 18 + d.enc * 2 ^ 12 + a.enc * 2 ^ 6 + b.enc) (low := bitNat ng * 2 ^ 3 + bitNat ea * 2 ^ 2 + bitNat eb * 2 ^ 1 + bitNat w) (by omega) (by omega) (by omega)),
    bit_of (hi := c8 * 2 ^ 20 + d.enc * 2 ^ 14 + a.enc * 2 ^ 8 + b.enc * 2 ^ 2 + cg.val) (low := bitNat ea * 2 ^ 2 + bitNat eb * 2 ^ 1 + bitNat w) (by omega) (by omega),
    bit_of (hi := c8 * 2 ^ 21 + d.enc * 2 ^ 15 + a.enc * 2 ^ 9 + b.enc * 2 ^ 3 + cg.val * 2 ^ 1 + bitNat ng) (low := bitNat eb * 2 ^ 1 + bitNat w) (by omega) (by omega),
    bit_of (hi := c8 * 2 ^ 22 + d.enc * 2 ^ 16 + a.enc * 2 ^ 10 + b.enc * 2 ^ 4 + cg.val * 2 ^ 2 + bitNat ng * 2 ^ 1 + bitNat ea) (low := bitNat w) (by omega) (by omega),
    bit_of (hi := c8 * 2 ^ 23 + d.enc * 2 ^ 17 + a.enc * 2 ^ 11 + b.enc * 2 ^ 5 + cg.val * 2 ^ 3 + bitNat ng * 2 ^ 2 + bitNat ea * 2 ^ 1 + bitNat eb) (low := 0) (by omega) (by omega)⟩
theorem GrpBin.enc_op (c8 : Nat) (f : GrpBin) : f.enc c8 / 2 ^ 24 = c8 := by
  obtain ⟨d, a, b, cg, ng, ea, eb, w⟩ := f
  have h_d := d.enc_lt; have h_a := a.enc_lt; have h_b := b.enc_lt; have h_cg := cg.isLt; have h_ng := bitNat_lt ng; have h_ea := bitNat_lt ea; have h_eb := bitNat_lt eb; have h_w := bitNat_lt w
  simp only [GrpBin.enc]
  exact op_of (low := d.enc * 2 ^ 18 + a.enc * 2 ^ 12 + b.enc * 2 ^ 6 + cg.val * 2 ^ 4 + bitNat ng * 2 ^ 3 + bitNat ea * 2 ^ 2 + bitNat eb * 2 ^ 1 + bitNat w) (by omega) (by omega)

@[simp] theorem GrpUn.dec_enc (c8 : Nat) (f : GrpUn) : GrpUn.dec (f.enc c8) = f := by
  obtain ⟨d, a, cg, ng, ea, w⟩ := f
  have h_d := d.enc_lt; have h_a := a.enc_lt; have h_cg := cg.isLt; have h_ng := bitNat_lt ng; have h_ea := bitNat_lt ea; have h_w := bitNat_lt w
  simp only [GrpUn.dec, GrpUn.enc, GrpUn.mk.injEq]
  exact ⟨(congrArg Opnd.dec (field_of (hi := c8 * 2 ^ 0) (low := a.enc * 2 ^ 12 + cg.val * 2 ^ 4 + bitNat ng * 2 ^ 3 + bitNat ea * 2 ^ 2 + bitNat w) (by omega) (by omega) (by omega))).trans d.dec_enc,
    (congrArg Opnd.dec (field_of (hi := c8 * 2 ^ 6 + d.enc) (low := cg.val * 2 ^ 4 + bitNat ng * 2 ^ 3 + bitNat ea * 2 ^ 2 + bitNat w) (by omega) (by omega) (by omega))).trans a.dec_enc,
    fin_of (field_of (hi := c8 * 2 ^ 18 + d.enc * 2 ^ 12 + a.enc * 2 ^ 6) (low := bitNat ng * 2 ^ 3 + bitNat ea * 2 ^ 2 + bitNat w) (by omega) (by omega) (by omega)),
    bit_of (hi := c8 * 2 ^ 20 + d.enc * 2 ^ 14 + a.enc * 2 ^ 8 + cg.val) (low := bitNat ea * 2 ^ 2 + bitNat w) (by omega) (by omega),
    bit_of (hi := c8 * 2 ^ 21 + d.enc * 2 ^ 15 + a.enc * 2 ^ 9 + cg.val * 2 ^ 1 + bitNat ng) (low := bitNat w) (by omega) (by omega),
    bit_of (hi := c8 * 2 ^ 23 + d.enc * 2 ^ 17 + a.enc * 2 ^ 11 + cg.val * 2 ^ 3 + bitNat ng * 2 ^ 2 + bitNat ea * 2 ^ 1) (low := 0) (by omega) (by omega)⟩
theorem GrpUn.enc_op (c8 : Nat) (f : GrpUn) : f.enc c8 / 2 ^ 24 = c8 := by
  obtain ⟨d, a, cg, ng, ea, w⟩ := f
  have h_d := d.enc_lt; have h_a := a.enc_lt; have h_cg := cg.isLt; have h_ng := bitNat_lt ng; have h_ea := bitNat_lt ea; have h_w := bitNat_lt w
  simp only [GrpUn.enc]
  exact op_of (low := d.enc * 2 ^ 18 + a.enc * 2 ^ 12 + cg.val * 2 ^ 4 + bitNat ng * 2 ^ 3 + bitNat ea * 2 ^ 2 + bitNat w) (by omega) (by omega)

@[simp] theorem GrpCmp.dec_enc (c8 : Nat) (f : GrpCmp) : GrpCmp.dec (f.enc c8) = f := by
  obtain ⟨cd, cc, a, b, cg, ng, ea, eb, w⟩ := f
  have h_cd := cd.isLt; have h_cc := cc.enc_lt; have h_a := a.enc_lt; have h_b := b.enc_lt; have h_cg := cg.isLt; have h_ng := bitNat_lt ng; have h_ea := bitNat_lt ea; have h_eb := bitNat_lt eb; have h_w := bitNat_lt w
  simp only [GrpCmp.dec, GrpCmp.enc, GrpCmp.mk.injEq]
  exact ⟨fin_of (field_of (hi := c8 * 2 ^ 0) (low := cc.enc * 2 ^ 18 + a.enc * 2 ^ 12 + b.enc * 2 ^ 6 + cg.val * 2 ^ 4 + bitNat ng * 2 ^ 3 + bitNat ea * 2 ^ 2 + bitNat eb * 2 ^ 1 + bitNat w) (by omega) (by omega) (by omega)),
    (congrArg GrpCond.dec (field_of (hi := c8 * 2 ^ 2 + cd.val) (low := a.enc * 2 ^ 12 + b.enc * 2 ^ 6 + cg.val * 2 ^ 4 + bitNat ng * 2 ^ 3 + bitNat ea * 2 ^ 2 + bitNat eb * 2 ^ 1 + bitNat w) (by omega) (by omega) (by omega))).trans cc.dec_enc,
    (congrArg Opnd.dec (field_of (hi := c8 * 2 ^ 6 + cd.val * 2 ^ 4 + cc.enc) (low := b.enc * 2 ^ 6 + cg.val * 2 ^ 4 + bitNat ng * 2 ^ 3 + bitNat ea * 2 ^ 2 + bitNat eb * 2 ^ 1 + bitNat w) (by omega) (by omega) (by omega))).trans a.dec_enc,
    (congrArg Opnd.dec (field_of (hi := c8 * 2 ^ 12 + cd.val * 2 ^ 10 + cc.enc * 2 ^ 6 + a.enc) (low := cg.val * 2 ^ 4 + bitNat ng * 2 ^ 3 + bitNat ea * 2 ^ 2 + bitNat eb * 2 ^ 1 + bitNat w) (by omega) (by omega) (by omega))).trans b.dec_enc,
    fin_of (field_of (hi := c8 * 2 ^ 18 + cd.val * 2 ^ 16 + cc.enc * 2 ^ 12 + a.enc * 2 ^ 6 + b.enc) (low := bitNat ng * 2 ^ 3 + bitNat ea * 2 ^ 2 + bitNat eb * 2 ^ 1 + bitNat w) (by omega) (by omega) (by omega)),
    bit_of (hi := c8 * 2 ^ 20 + cd.val * 2 ^ 18 + cc.enc * 2 ^ 14 + a.enc * 2 ^ 8 + b.enc * 2 ^ 2 + cg.val) (low := bitNat ea * 2 ^ 2 + bitNat eb * 2 ^ 1 + bitNat w) (by omega) (by omega),
    bit_of (hi := c8 * 2 ^ 21 + cd.val * 2 ^ 19 + cc.enc * 2 ^ 15 + a.enc * 2 ^ 9 + b.enc * 2 ^ 3 + cg.val * 2 ^ 1 + bitNat ng) (low := bitNat eb * 2 ^ 1 + bitNat w) (by omega) (by omega),
    bit_of (hi := c8 * 2 ^ 22 + cd.val * 2 ^ 20 + cc.enc * 2 ^ 16 + a.enc * 2 ^ 10 + b.enc * 2 ^ 4 + cg.val * 2 ^ 2 + bitNat ng * 2 ^ 1 + bitNat ea) (low := bitNat w) (by omega) (by omega),
    bit_of (hi := c8 * 2 ^ 23 + cd.val * 2 ^ 21 + cc.enc * 2 ^ 17 + a.enc * 2 ^ 11 + b.enc * 2 ^ 5 + cg.val * 2 ^ 3 + bitNat ng * 2 ^ 2 + bitNat ea * 2 ^ 1 + bitNat eb) (low := 0) (by omega) (by omega)⟩
theorem GrpCmp.enc_op (c8 : Nat) (f : GrpCmp) : f.enc c8 / 2 ^ 24 = c8 := by
  obtain ⟨cd, cc, a, b, cg, ng, ea, eb, w⟩ := f
  have h_cd := cd.isLt; have h_cc := cc.enc_lt; have h_a := a.enc_lt; have h_b := b.enc_lt; have h_cg := cg.isLt; have h_ng := bitNat_lt ng; have h_ea := bitNat_lt ea; have h_eb := bitNat_lt eb; have h_w := bitNat_lt w
  simp only [GrpCmp.enc]
  exact op_of (low := cd.val * 2 ^ 22 + cc.enc * 2 ^ 18 + a.enc * 2 ^ 12 + b.enc * 2 ^ 6 + cg.val * 2 ^ 4 + bitNat ng * 2 ^ 3 + bitNat ea * 2 ^ 2 + bitNat eb * 2 ^ 1 + bitNat w) (by omega) (by omega)

@[simp] theorem GrpImm.dec_enc (c8 : Nat) (f : GrpImm) : GrpImm.dec (f.enc c8) = f := by
  obtain ⟨d, imm⟩ := f
  have h_d := d.enc_lt; have h_imm := imm.isLt
  simp only [GrpImm.dec, GrpImm.enc, GrpImm.mk.injEq]
  exact ⟨(congrArg Opnd.dec (field_of (hi := c8 * 2 ^ 0) (low := imm.toNat) (by omega) (by omega) (by omega))).trans d.dec_enc,
    bv_of (field_of (hi := c8 * 2 ^ 6 + d.enc) (low := 0) (by omega) (by omega) (by omega))⟩
theorem GrpImm.enc_op (c8 : Nat) (f : GrpImm) : f.enc c8 / 2 ^ 24 = c8 := by
  obtain ⟨d, imm⟩ := f
  have h_d := d.enc_lt; have h_imm := imm.isLt
  simp only [GrpImm.enc]
  exact op_of (low := d.enc * 2 ^ 18 + imm.toNat) (by omega) (by omega)

@[simp] theorem GrpBr.dec_enc (c8 : Nat) (f : GrpBr) : GrpBr.dec (f.enc c8) = f := by
  obtain ⟨cg, ng, off⟩ := f
  have h_cg := cg.isLt; have h_ng := bitNat_lt ng; have h_off := off.isLt
  simp only [GrpBr.dec, GrpBr.enc, GrpBr.mk.injEq]
  exact ⟨fin_of (field_of (hi := c8 * 2 ^ 0) (low := bitNat ng * 2 ^ 21 + off.toNat) (by omega) (by omega) (by omega)),
    bit_of (hi := c8 * 2 ^ 2 + cg.val) (low := off.toNat) (by omega) (by omega),
    bv_of (field_of (hi := c8 * 2 ^ 4 + cg.val * 2 ^ 2 + bitNat ng * 2 ^ 1) (low := 0) (by omega) (by omega) (by omega))⟩
theorem GrpBr.enc_op (c8 : Nat) (f : GrpBr) : f.enc c8 / 2 ^ 24 = c8 := by
  obtain ⟨cg, ng, off⟩ := f
  have h_cg := cg.isLt; have h_ng := bitNat_lt ng; have h_off := off.isLt
  simp only [GrpBr.enc]
  exact op_of (low := cg.val * 2 ^ 22 + bitNat ng * 2 ^ 21 + off.toNat) (by omega) (by omega)

@[simp] theorem GrpGuard.dec_enc (c8 : Nat) (f : GrpGuard) : GrpGuard.dec (f.enc c8) = f := by
  obtain ⟨cg, ng⟩ := f
  have h_cg := cg.isLt; have h_ng := bitNat_lt ng
  simp only [GrpGuard.dec, GrpGuard.enc, GrpGuard.mk.injEq]
  exact ⟨fin_of (field_of (hi := c8 * 2 ^ 18) (low := bitNat ng * 2 ^ 3) (by omega) (by omega) (by omega)),
    bit_of (hi := c8 * 2 ^ 20 + cg.val) (low := 0) (by omega) (by omega)⟩
theorem GrpGuard.enc_op (c8 : Nat) (f : GrpGuard) : f.enc c8 / 2 ^ 24 = c8 := by
  obtain ⟨cg, ng⟩ := f
  have h_cg := cg.isLt; have h_ng := bitNat_lt ng
  simp only [GrpGuard.enc]
  exact op_of (low := cg.val * 2 ^ 4 + bitNat ng * 2 ^ 3) (by omega) (by omega)

@[simp] theorem GrpQclose.dec_enc (c8 : Nat) (f : GrpQclose) : GrpQclose.dec (f.enc c8) = f := by
  obtain ⟨d, cg, ng⟩ := f
  have h_d := d.enc_lt; have h_cg := cg.isLt; have h_ng := bitNat_lt ng
  simp only [GrpQclose.dec, GrpQclose.enc, GrpQclose.mk.injEq]
  exact ⟨(congrArg Opnd.dec (field_of (hi := c8 * 2 ^ 0) (low := cg.val * 2 ^ 4 + bitNat ng * 2 ^ 3) (by omega) (by omega) (by omega))).trans d.dec_enc,
    fin_of (field_of (hi := c8 * 2 ^ 18 + d.enc * 2 ^ 12) (low := bitNat ng * 2 ^ 3) (by omega) (by omega) (by omega)),
    bit_of (hi := c8 * 2 ^ 20 + d.enc * 2 ^ 14 + cg.val) (low := 0) (by omega) (by omega)⟩
theorem GrpQclose.enc_op (c8 : Nat) (f : GrpQclose) : f.enc c8 / 2 ^ 24 = c8 := by
  obtain ⟨d, cg, ng⟩ := f
  have h_d := d.enc_lt; have h_cg := cg.isLt; have h_ng := bitNat_lt ng
  simp only [GrpQclose.enc]
  exact op_of (low := d.enc * 2 ^ 18 + cg.val * 2 ^ 4 + bitNat ng * 2 ^ 3) (by omega) (by omega)

@[simp] theorem GrpQstat.dec_enc (c8 : Nat) (f : GrpQstat) : GrpQstat.dec (f.enc c8) = f := by
  obtain ⟨d, a, cg, ng⟩ := f
  have h_d := d.enc_lt; have h_a := a.enc_lt; have h_cg := cg.isLt; have h_ng := bitNat_lt ng
  simp only [GrpQstat.dec, GrpQstat.enc, GrpQstat.mk.injEq]
  exact ⟨(congrArg Opnd.dec (field_of (hi := c8 * 2 ^ 0) (low := a.enc * 2 ^ 12 + cg.val * 2 ^ 4 + bitNat ng * 2 ^ 3) (by omega) (by omega) (by omega))).trans d.dec_enc,
    (congrArg Opnd.dec (field_of (hi := c8 * 2 ^ 6 + d.enc) (low := cg.val * 2 ^ 4 + bitNat ng * 2 ^ 3) (by omega) (by omega) (by omega))).trans a.dec_enc,
    fin_of (field_of (hi := c8 * 2 ^ 18 + d.enc * 2 ^ 12 + a.enc * 2 ^ 6) (low := bitNat ng * 2 ^ 3) (by omega) (by omega) (by omega)),
    bit_of (hi := c8 * 2 ^ 20 + d.enc * 2 ^ 14 + a.enc * 2 ^ 8 + cg.val) (low := 0) (by omega) (by omega)⟩
theorem GrpQstat.enc_op (c8 : Nat) (f : GrpQstat) : f.enc c8 / 2 ^ 24 = c8 := by
  obtain ⟨d, a, cg, ng⟩ := f
  have h_d := d.enc_lt; have h_a := a.enc_lt; have h_cg := cg.isLt; have h_ng := bitNat_lt ng
  simp only [GrpQstat.enc]
  exact op_of (low := d.enc * 2 ^ 18 + a.enc * 2 ^ 12 + cg.val * 2 ^ 4 + bitNat ng * 2 ^ 3) (by omega) (by omega)

@[simp] theorem GrpMem.dec_enc (c8 : Nat) (f : GrpMem) : GrpMem.dec (f.enc c8) = f := by
  obtain ⟨d, a, b, sc, st⟩ := f
  have h_d := d.enc_lt; have h_a := a.enc_lt; have h_b := b.enc_lt; have h_sc := sc.enc_lt; have h_st := st.enc_lt
  simp only [GrpMem.dec, GrpMem.enc, GrpMem.mk.injEq]
  exact ⟨(congrArg Opnd.dec (field_of (hi := c8 * 2 ^ 0) (low := a.enc * 2 ^ 12 + b.enc * 2 ^ 6 + sc.enc * 2 ^ 4 + st.enc * 2 ^ 2) (by omega) (by omega) (by omega))).trans d.dec_enc,
    (congrArg Opnd.dec (field_of (hi := c8 * 2 ^ 6 + d.enc) (low := b.enc * 2 ^ 6 + sc.enc * 2 ^ 4 + st.enc * 2 ^ 2) (by omega) (by omega) (by omega))).trans a.dec_enc,
    (congrArg Opnd.dec (field_of (hi := c8 * 2 ^ 12 + d.enc * 2 ^ 6 + a.enc) (low := sc.enc * 2 ^ 4 + st.enc * 2 ^ 2) (by omega) (by omega) (by omega))).trans b.dec_enc,
    (congrArg Scope.dec (field_of (hi := c8 * 2 ^ 18 + d.enc * 2 ^ 12 + a.enc * 2 ^ 6 + b.enc) (low := st.enc * 2 ^ 2) (by omega) (by omega) (by omega))).trans sc.dec_enc,
    (congrArg Strength.dec (field_of (hi := c8 * 2 ^ 20 + d.enc * 2 ^ 14 + a.enc * 2 ^ 8 + b.enc * 2 ^ 2 + sc.enc) (low := 0) (by omega) (by omega) (by omega))).trans st.dec_enc⟩
theorem GrpMem.enc_op (c8 : Nat) (f : GrpMem) : f.enc c8 / 2 ^ 24 = c8 := by
  obtain ⟨d, a, b, sc, st⟩ := f
  have h_d := d.enc_lt; have h_a := a.enc_lt; have h_b := b.enc_lt; have h_sc := sc.enc_lt; have h_st := st.enc_lt
  simp only [GrpMem.enc]
  exact op_of (low := d.enc * 2 ^ 18 + a.enc * 2 ^ 12 + b.enc * 2 ^ 6 + sc.enc * 2 ^ 4 + st.enc * 2 ^ 2) (by omega) (by omega)

@[simp] theorem GrpAtom.dec_enc (c8 : Nat) (f : GrpAtom) : GrpAtom.dec (f.enc c8) = f := by
  obtain ⟨d, a, b, op, st⟩ := f
  have h_d := d.enc_lt; have h_a := a.enc_lt; have h_b := b.enc_lt; have h_op := op.enc_lt; have h_st := st.enc_lt
  simp only [GrpAtom.dec, GrpAtom.enc, GrpAtom.mk.injEq]
  exact ⟨(congrArg Opnd.dec (field_of (hi := c8 * 2 ^ 0) (low := a.enc * 2 ^ 12 + b.enc * 2 ^ 6 + op.enc * 2 ^ 2 + st.enc) (by omega) (by omega) (by omega))).trans d.dec_enc,
    (congrArg Opnd.dec (field_of (hi := c8 * 2 ^ 6 + d.enc) (low := b.enc * 2 ^ 6 + op.enc * 2 ^ 2 + st.enc) (by omega) (by omega) (by omega))).trans a.dec_enc,
    (congrArg Opnd.dec (field_of (hi := c8 * 2 ^ 12 + d.enc * 2 ^ 6 + a.enc) (low := op.enc * 2 ^ 2 + st.enc) (by omega) (by omega) (by omega))).trans b.dec_enc,
    (congrArg AtomOp.dec (field_of (hi := c8 * 2 ^ 18 + d.enc * 2 ^ 12 + a.enc * 2 ^ 6 + b.enc) (low := st.enc) (by omega) (by omega) (by omega))).trans op.dec_enc,
    (congrArg Strength.dec (field_of (hi := c8 * 2 ^ 22 + d.enc * 2 ^ 16 + a.enc * 2 ^ 10 + b.enc * 2 ^ 4 + op.enc) (low := 0) (by omega) (by omega) (by omega))).trans st.dec_enc⟩
theorem GrpAtom.enc_op (c8 : Nat) (f : GrpAtom) : f.enc c8 / 2 ^ 24 = c8 := by
  obtain ⟨d, a, b, op, st⟩ := f
  have h_d := d.enc_lt; have h_a := a.enc_lt; have h_b := b.enc_lt; have h_op := op.enc_lt; have h_st := st.enc_lt
  simp only [GrpAtom.enc]
  exact op_of (low := d.enc * 2 ^ 18 + a.enc * 2 ^ 12 + b.enc * 2 ^ 6 + op.enc * 2 ^ 2 + st.enc) (by omega) (by omega)

@[simp] theorem GrpAgen.dec_enc (c8 : Nat) (f : GrpAgen) : GrpAgen.dec (f.enc c8) = f := by
  obtain ⟨d, a, b, n, w⟩ := f
  have h_d := d.enc_lt; have h_a := a.enc_lt; have h_b := b.enc_lt; have h_n := n.isLt; have h_w := w.isLt
  simp only [GrpAgen.dec, GrpAgen.enc, GrpAgen.mk.injEq]
  exact ⟨(congrArg Opnd.dec (field_of (hi := c8 * 2 ^ 0) (low := a.enc * 2 ^ 12 + b.enc * 2 ^ 6 + n.val * 2 ^ 3 + w.val) (by omega) (by omega) (by omega))).trans d.dec_enc,
    (congrArg Opnd.dec (field_of (hi := c8 * 2 ^ 6 + d.enc) (low := b.enc * 2 ^ 6 + n.val * 2 ^ 3 + w.val) (by omega) (by omega) (by omega))).trans a.dec_enc,
    (congrArg Opnd.dec (field_of (hi := c8 * 2 ^ 12 + d.enc * 2 ^ 6 + a.enc) (low := n.val * 2 ^ 3 + w.val) (by omega) (by omega) (by omega))).trans b.dec_enc,
    fin_of (field_of (hi := c8 * 2 ^ 18 + d.enc * 2 ^ 12 + a.enc * 2 ^ 6 + b.enc) (low := w.val) (by omega) (by omega) (by omega)),
    fin_of (field_of (hi := c8 * 2 ^ 21 + d.enc * 2 ^ 15 + a.enc * 2 ^ 9 + b.enc * 2 ^ 3 + n.val) (low := 0) (by omega) (by omega) (by omega))⟩
theorem GrpAgen.enc_op (c8 : Nat) (f : GrpAgen) : f.enc c8 / 2 ^ 24 = c8 := by
  obtain ⟨d, a, b, n, w⟩ := f
  have h_d := d.enc_lt; have h_a := a.enc_lt; have h_b := b.enc_lt; have h_n := n.isLt; have h_w := w.isLt
  simp only [GrpAgen.enc]
  exact op_of (low := d.enc * 2 ^ 18 + a.enc * 2 ^ 12 + b.enc * 2 ^ 6 + n.val * 2 ^ 3 + w.val) (by omega) (by omega)

@[simp] theorem GrpTwo.dec_enc (c8 : Nat) (f : GrpTwo) : GrpTwo.dec (f.enc c8) = f := by
  obtain ⟨a, b⟩ := f
  have h_a := a.enc_lt; have h_b := b.enc_lt
  simp only [GrpTwo.dec, GrpTwo.enc, GrpTwo.mk.injEq]
  exact ⟨(congrArg Opnd.dec (field_of (hi := c8 * 2 ^ 6) (low := b.enc * 2 ^ 6) (by omega) (by omega) (by omega))).trans a.dec_enc,
    (congrArg Opnd.dec (field_of (hi := c8 * 2 ^ 12 + a.enc) (low := 0) (by omega) (by omega) (by omega))).trans b.dec_enc⟩
theorem GrpTwo.enc_op (c8 : Nat) (f : GrpTwo) : f.enc c8 / 2 ^ 24 = c8 := by
  obtain ⟨a, b⟩ := f
  have h_a := a.enc_lt; have h_b := b.enc_lt
  simp only [GrpTwo.enc]
  exact op_of (low := a.enc * 2 ^ 12 + b.enc * 2 ^ 6) (by omega) (by omega)

@[simp] theorem GrpCbinit.dec_enc (c8 : Nat) (f : GrpCbinit) : GrpCbinit.dec (f.enc c8) = f := by
  obtain ⟨cb, a⟩ := f
  have h_cb := cb.isLt; have h_a := a.enc_lt
  simp only [GrpCbinit.dec, GrpCbinit.enc, GrpCbinit.mk.injEq]
  exact ⟨fin_of (field_of (hi := c8 * 2 ^ 2) (low := a.enc * 2 ^ 12) (by omega) (by omega) (by omega)),
    (congrArg Opnd.dec (field_of (hi := c8 * 2 ^ 6 + cb.val) (low := 0) (by omega) (by omega) (by omega))).trans a.dec_enc⟩
theorem GrpCbinit.enc_op (c8 : Nat) (f : GrpCbinit) : f.enc c8 / 2 ^ 24 = c8 := by
  obtain ⟨cb, a⟩ := f
  have h_cb := cb.isLt; have h_a := a.enc_lt
  simp only [GrpCbinit.enc]
  exact op_of (low := cb.val * 2 ^ 18 + a.enc * 2 ^ 12) (by omega) (by omega)

@[simp] theorem GrpCbarv.dec_enc (c8 : Nat) (f : GrpCbarv) : GrpCbarv.dec (f.enc c8) = f := by
  obtain ⟨cb, a, b, err⟩ := f
  have h_cb := cb.isLt; have h_a := a.enc_lt; have h_b := b.enc_lt; have h_err := bitNat_lt err
  simp only [GrpCbarv.dec, GrpCbarv.enc, GrpCbarv.mk.injEq]
  exact ⟨fin_of (field_of (hi := c8 * 2 ^ 2) (low := a.enc * 2 ^ 12 + b.enc * 2 ^ 6 + bitNat err) (by omega) (by omega) (by omega)),
    (congrArg Opnd.dec (field_of (hi := c8 * 2 ^ 6 + cb.val) (low := b.enc * 2 ^ 6 + bitNat err) (by omega) (by omega) (by omega))).trans a.dec_enc,
    (congrArg Opnd.dec (field_of (hi := c8 * 2 ^ 12 + cb.val * 2 ^ 6 + a.enc) (low := bitNat err) (by omega) (by omega) (by omega))).trans b.dec_enc,
    bit_of (hi := c8 * 2 ^ 23 + cb.val * 2 ^ 17 + a.enc * 2 ^ 11 + b.enc * 2 ^ 5) (low := 0) (by omega) (by omega)⟩
theorem GrpCbarv.enc_op (c8 : Nat) (f : GrpCbarv) : f.enc c8 / 2 ^ 24 = c8 := by
  obtain ⟨cb, a, b, err⟩ := f
  have h_cb := cb.isLt; have h_a := a.enc_lt; have h_b := b.enc_lt; have h_err := bitNat_lt err
  simp only [GrpCbarv.enc]
  exact op_of (low := cb.val * 2 ^ 18 + a.enc * 2 ^ 12 + b.enc * 2 ^ 6 + bitNat err) (by omega) (by omega)

@[simp] theorem GrpCbwait.dec_enc (c8 : Nat) (f : GrpCbwait) : GrpCbwait.dec (f.enc c8) = f := by
  obtain ⟨cb, a, b, ew, te⟩ := f
  have h_cb := cb.isLt; have h_a := a.enc_lt; have h_b := b.enc_lt; have h_ew := bitNat_lt ew; have h_te := bitNat_lt te
  simp only [GrpCbwait.dec, GrpCbwait.enc, GrpCbwait.mk.injEq]
  exact ⟨fin_of (field_of (hi := c8 * 2 ^ 2) (low := a.enc * 2 ^ 12 + b.enc * 2 ^ 6 + bitNat ew * 2 ^ 1 + bitNat te) (by omega) (by omega) (by omega)),
    (congrArg Opnd.dec (field_of (hi := c8 * 2 ^ 6 + cb.val) (low := b.enc * 2 ^ 6 + bitNat ew * 2 ^ 1 + bitNat te) (by omega) (by omega) (by omega))).trans a.dec_enc,
    (congrArg Opnd.dec (field_of (hi := c8 * 2 ^ 12 + cb.val * 2 ^ 6 + a.enc) (low := bitNat ew * 2 ^ 1 + bitNat te) (by omega) (by omega) (by omega))).trans b.dec_enc,
    bit_of (hi := c8 * 2 ^ 22 + cb.val * 2 ^ 16 + a.enc * 2 ^ 10 + b.enc * 2 ^ 4) (low := bitNat te) (by omega) (by omega),
    bit_of (hi := c8 * 2 ^ 23 + cb.val * 2 ^ 17 + a.enc * 2 ^ 11 + b.enc * 2 ^ 5 + bitNat ew) (low := 0) (by omega) (by omega)⟩
theorem GrpCbwait.enc_op (c8 : Nat) (f : GrpCbwait) : f.enc c8 / 2 ^ 24 = c8 := by
  obtain ⟨cb, a, b, ew, te⟩ := f
  have h_cb := cb.isLt; have h_a := a.enc_lt; have h_b := b.enc_lt; have h_ew := bitNat_lt ew; have h_te := bitNat_lt te
  simp only [GrpCbwait.enc]
  exact op_of (low := cb.val * 2 ^ 18 + a.enc * 2 ^ 12 + b.enc * 2 ^ 6 + bitNat ew * 2 ^ 1 + bitNat te) (by omega) (by omega)

@[simp] theorem GrpCbtest.dec_enc (c8 : Nat) (f : GrpCbtest) : GrpCbtest.dec (f.enc c8) = f := by
  obtain ⟨c, cb, a, b, ew⟩ := f
  have h_c := c.isLt; have h_cb := cb.isLt; have h_a := a.enc_lt; have h_b := b.enc_lt; have h_ew := bitNat_lt ew
  simp only [GrpCbtest.dec, GrpCbtest.enc, GrpCbtest.mk.injEq]
  exact ⟨fin_of (field_of (hi := c8 * 2 ^ 0) (low := cb.val * 2 ^ 18 + a.enc * 2 ^ 12 + b.enc * 2 ^ 6 + bitNat ew * 2 ^ 1) (by omega) (by omega) (by omega)),
    fin_of (field_of (hi := c8 * 2 ^ 2 + c.val) (low := a.enc * 2 ^ 12 + b.enc * 2 ^ 6 + bitNat ew * 2 ^ 1) (by omega) (by omega) (by omega)),
    (congrArg Opnd.dec (field_of (hi := c8 * 2 ^ 6 + c.val * 2 ^ 4 + cb.val) (low := b.enc * 2 ^ 6 + bitNat ew * 2 ^ 1) (by omega) (by omega) (by omega))).trans a.dec_enc,
    (congrArg Opnd.dec (field_of (hi := c8 * 2 ^ 12 + c.val * 2 ^ 10 + cb.val * 2 ^ 6 + a.enc) (low := bitNat ew * 2 ^ 1) (by omega) (by omega) (by omega))).trans b.dec_enc,
    bit_of (hi := c8 * 2 ^ 22 + c.val * 2 ^ 20 + cb.val * 2 ^ 16 + a.enc * 2 ^ 10 + b.enc * 2 ^ 4) (low := 0) (by omega) (by omega)⟩
theorem GrpCbtest.enc_op (c8 : Nat) (f : GrpCbtest) : f.enc c8 / 2 ^ 24 = c8 := by
  obtain ⟨c, cb, a, b, ew⟩ := f
  have h_c := c.isLt; have h_cb := cb.isLt; have h_a := a.enc_lt; have h_b := b.enc_lt; have h_ew := bitNat_lt ew
  simp only [GrpCbtest.enc]
  exact op_of (low := c.val * 2 ^ 22 + cb.val * 2 ^ 18 + a.enc * 2 ^ 12 + b.enc * 2 ^ 6 + bitNat ew * 2 ^ 1) (by omega) (by omega)

@[simp] theorem GrpCpy.dec_enc (c8 : Nat) (f : GrpCpy) : GrpCpy.dec (f.enc c8) = f := by
  obtain ⟨d, a, b, np, cb⟩ := f
  have h_d := d.enc_lt; have h_a := a.enc_lt; have h_b := b.enc_lt; have h_np := bitNat_lt np; have h_cb := cb.isLt
  simp only [GrpCpy.dec, GrpCpy.enc, GrpCpy.mk.injEq]
  exact ⟨(congrArg Opnd.dec (field_of (hi := c8 * 2 ^ 0) (low := a.enc * 2 ^ 12 + b.enc * 2 ^ 6 + bitNat np * 2 ^ 5 + cb.val) (by omega) (by omega) (by omega))).trans d.dec_enc,
    (congrArg Opnd.dec (field_of (hi := c8 * 2 ^ 6 + d.enc) (low := b.enc * 2 ^ 6 + bitNat np * 2 ^ 5 + cb.val) (by omega) (by omega) (by omega))).trans a.dec_enc,
    (congrArg Opnd.dec (field_of (hi := c8 * 2 ^ 12 + d.enc * 2 ^ 6 + a.enc) (low := bitNat np * 2 ^ 5 + cb.val) (by omega) (by omega) (by omega))).trans b.dec_enc,
    bit_of (hi := c8 * 2 ^ 18 + d.enc * 2 ^ 12 + a.enc * 2 ^ 6 + b.enc) (low := cb.val) (by omega) (by omega),
    fin_of (field_of (hi := c8 * 2 ^ 20 + d.enc * 2 ^ 14 + a.enc * 2 ^ 8 + b.enc * 2 ^ 2 + bitNat np * 2 ^ 1) (low := 0) (by omega) (by omega) (by omega))⟩
theorem GrpCpy.enc_op (c8 : Nat) (f : GrpCpy) : f.enc c8 / 2 ^ 24 = c8 := by
  obtain ⟨d, a, b, np, cb⟩ := f
  have h_d := d.enc_lt; have h_a := a.enc_lt; have h_b := b.enc_lt; have h_np := bitNat_lt np; have h_cb := cb.isLt
  simp only [GrpCpy.enc]
  exact op_of (low := d.enc * 2 ^ 18 + a.enc * 2 ^ 12 + b.enc * 2 ^ 6 + bitNat np * 2 ^ 5 + cb.val) (by omega) (by omega)

@[simp] theorem GrpRemote.dec_enc (c8 : Nat) (f : GrpRemote) : GrpRemote.dec (f.enc c8) = f := by
  obtain ⟨d, a, b, dp, st, n32⟩ := f
  have h_d := d.enc_lt; have h_a := a.enc_lt; have h_b := b.enc_lt; have h_dp := bitNat_lt dp; have h_st := st.enc_lt; have h_n32 := bitNat_lt n32
  simp only [GrpRemote.dec, GrpRemote.enc, GrpRemote.mk.injEq]
  exact ⟨(congrArg Opnd.dec (field_of (hi := c8 * 2 ^ 0) (low := a.enc * 2 ^ 12 + b.enc * 2 ^ 6 + bitNat dp * 2 ^ 5 + st.enc * 2 ^ 3 + bitNat n32 * 2 ^ 2) (by omega) (by omega) (by omega))).trans d.dec_enc,
    (congrArg Opnd.dec (field_of (hi := c8 * 2 ^ 6 + d.enc) (low := b.enc * 2 ^ 6 + bitNat dp * 2 ^ 5 + st.enc * 2 ^ 3 + bitNat n32 * 2 ^ 2) (by omega) (by omega) (by omega))).trans a.dec_enc,
    (congrArg Opnd.dec (field_of (hi := c8 * 2 ^ 12 + d.enc * 2 ^ 6 + a.enc) (low := bitNat dp * 2 ^ 5 + st.enc * 2 ^ 3 + bitNat n32 * 2 ^ 2) (by omega) (by omega) (by omega))).trans b.dec_enc,
    bit_of (hi := c8 * 2 ^ 18 + d.enc * 2 ^ 12 + a.enc * 2 ^ 6 + b.enc) (low := st.enc * 2 ^ 3 + bitNat n32 * 2 ^ 2) (by omega) (by omega),
    (congrArg Strength.dec (field_of (hi := c8 * 2 ^ 19 + d.enc * 2 ^ 13 + a.enc * 2 ^ 7 + b.enc * 2 ^ 1 + bitNat dp) (low := bitNat n32 * 2 ^ 2) (by omega) (by omega) (by omega))).trans st.dec_enc,
    bit_of (hi := c8 * 2 ^ 21 + d.enc * 2 ^ 15 + a.enc * 2 ^ 9 + b.enc * 2 ^ 3 + bitNat dp * 2 ^ 2 + st.enc) (low := 0) (by omega) (by omega)⟩
theorem GrpRemote.enc_op (c8 : Nat) (f : GrpRemote) : f.enc c8 / 2 ^ 24 = c8 := by
  obtain ⟨d, a, b, dp, st, n32⟩ := f
  have h_d := d.enc_lt; have h_a := a.enc_lt; have h_b := b.enc_lt; have h_dp := bitNat_lt dp; have h_st := st.enc_lt; have h_n32 := bitNat_lt n32
  simp only [GrpRemote.enc]
  exact op_of (low := d.enc * 2 ^ 18 + a.enc * 2 ^ 12 + b.enc * 2 ^ 6 + bitNat dp * 2 ^ 5 + st.enc * 2 ^ 3 + bitNat n32 * 2 ^ 2) (by omega) (by omega)

@[simp] theorem GrpRgatm.dec_enc (c8 : Nat) (f : GrpRgatm) : GrpRgatm.dec (f.enc c8) = f := by
  obtain ⟨d, a, b, dp, op, n32⟩ := f
  have h_d := d.enc_lt; have h_a := a.enc_lt; have h_b := b.enc_lt; have h_dp := bitNat_lt dp; have h_op := op.enc_lt; have h_n32 := bitNat_lt n32
  simp only [GrpRgatm.dec, GrpRgatm.enc, GrpRgatm.mk.injEq]
  exact ⟨(congrArg Opnd.dec (field_of (hi := c8 * 2 ^ 0) (low := a.enc * 2 ^ 12 + b.enc * 2 ^ 6 + bitNat dp * 2 ^ 5 + op.enc * 2 ^ 1 + bitNat n32) (by omega) (by omega) (by omega))).trans d.dec_enc,
    (congrArg Opnd.dec (field_of (hi := c8 * 2 ^ 6 + d.enc) (low := b.enc * 2 ^ 6 + bitNat dp * 2 ^ 5 + op.enc * 2 ^ 1 + bitNat n32) (by omega) (by omega) (by omega))).trans a.dec_enc,
    (congrArg Opnd.dec (field_of (hi := c8 * 2 ^ 12 + d.enc * 2 ^ 6 + a.enc) (low := bitNat dp * 2 ^ 5 + op.enc * 2 ^ 1 + bitNat n32) (by omega) (by omega) (by omega))).trans b.dec_enc,
    bit_of (hi := c8 * 2 ^ 18 + d.enc * 2 ^ 12 + a.enc * 2 ^ 6 + b.enc) (low := op.enc * 2 ^ 1 + bitNat n32) (by omega) (by omega),
    (congrArg AtomOp.dec (field_of (hi := c8 * 2 ^ 19 + d.enc * 2 ^ 13 + a.enc * 2 ^ 7 + b.enc * 2 ^ 1 + bitNat dp) (low := bitNat n32) (by omega) (by omega) (by omega))).trans op.dec_enc,
    bit_of (hi := c8 * 2 ^ 23 + d.enc * 2 ^ 17 + a.enc * 2 ^ 11 + b.enc * 2 ^ 5 + bitNat dp * 2 ^ 4 + op.enc) (low := 0) (by omega) (by omega)⟩
theorem GrpRgatm.enc_op (c8 : Nat) (f : GrpRgatm) : f.enc c8 / 2 ^ 24 = c8 := by
  obtain ⟨d, a, b, dp, op, n32⟩ := f
  have h_d := d.enc_lt; have h_a := a.enc_lt; have h_b := b.enc_lt; have h_dp := bitNat_lt dp; have h_op := op.enc_lt; have h_n32 := bitNat_lt n32
  simp only [GrpRgatm.enc]
  exact op_of (low := d.enc * 2 ^ 18 + a.enc * 2 ^ 12 + b.enc * 2 ^ 6 + bitNat dp * 2 ^ 5 + op.enc * 2 ^ 1 + bitNat n32) (by omega) (by omega)

@[simp] theorem GrpThree.dec_enc (c8 : Nat) (f : GrpThree) : GrpThree.dec (f.enc c8) = f := by
  obtain ⟨d, a, b⟩ := f
  have h_d := d.enc_lt; have h_a := a.enc_lt; have h_b := b.enc_lt
  simp only [GrpThree.dec, GrpThree.enc, GrpThree.mk.injEq]
  exact ⟨(congrArg Opnd.dec (field_of (hi := c8 * 2 ^ 0) (low := a.enc * 2 ^ 12 + b.enc * 2 ^ 6) (by omega) (by omega) (by omega))).trans d.dec_enc,
    (congrArg Opnd.dec (field_of (hi := c8 * 2 ^ 6 + d.enc) (low := b.enc * 2 ^ 6) (by omega) (by omega) (by omega))).trans a.dec_enc,
    (congrArg Opnd.dec (field_of (hi := c8 * 2 ^ 12 + d.enc * 2 ^ 6 + a.enc) (low := 0) (by omega) (by omega) (by omega))).trans b.dec_enc⟩
theorem GrpThree.enc_op (c8 : Nat) (f : GrpThree) : f.enc c8 / 2 ^ 24 = c8 := by
  obtain ⟨d, a, b⟩ := f
  have h_d := d.enc_lt; have h_a := a.enc_lt; have h_b := b.enc_lt
  simp only [GrpThree.enc]
  exact op_of (low := d.enc * 2 ^ 18 + a.enc * 2 ^ 12 + b.enc * 2 ^ 6) (by omega) (by omega)

@[simp] theorem GrpDA.dec_enc (c8 : Nat) (f : GrpDA) : GrpDA.dec (f.enc c8) = f := by
  obtain ⟨d, a⟩ := f
  have h_d := d.enc_lt; have h_a := a.enc_lt
  simp only [GrpDA.dec, GrpDA.enc, GrpDA.mk.injEq]
  exact ⟨(congrArg Opnd.dec (field_of (hi := c8 * 2 ^ 0) (low := a.enc * 2 ^ 12) (by omega) (by omega) (by omega))).trans d.dec_enc,
    (congrArg Opnd.dec (field_of (hi := c8 * 2 ^ 6 + d.enc) (low := 0) (by omega) (by omega) (by omega))).trans a.dec_enc⟩
theorem GrpDA.enc_op (c8 : Nat) (f : GrpDA) : f.enc c8 / 2 ^ 24 = c8 := by
  obtain ⟨d, a⟩ := f
  have h_d := d.enc_lt; have h_a := a.enc_lt
  simp only [GrpDA.enc]
  exact op_of (low := d.enc * 2 ^ 18 + a.enc * 2 ^ 12) (by omega) (by omega)

@[simp] theorem GrpSpawnLoc.dec_enc (c8 : Nat) (f : GrpSpawnLoc) : GrpSpawnLoc.dec (f.enc c8) = f := by
  obtain ⟨d, a, size⟩ := f
  have h_d := d.enc_lt; have h_a := a.enc_lt; have h_size := size.enc_lt
  simp only [GrpSpawnLoc.dec, GrpSpawnLoc.enc, GrpSpawnLoc.mk.injEq]
  exact ⟨(congrArg Opnd.dec (field_of (hi := c8 * 2 ^ 0) (low := a.enc * 2 ^ 12 + size.enc) (by omega) (by omega) (by omega))).trans d.dec_enc,
    (congrArg Opnd.dec (field_of (hi := c8 * 2 ^ 6 + d.enc) (low := size.enc) (by omega) (by omega) (by omega))).trans a.dec_enc,
    (congrArg RecSize.dec (field_of (hi := c8 * 2 ^ 22 + d.enc * 2 ^ 16 + a.enc * 2 ^ 10) (low := 0) (by omega) (by omega) (by omega))).trans size.dec_enc⟩
theorem GrpSpawnLoc.enc_op (c8 : Nat) (f : GrpSpawnLoc) : f.enc c8 / 2 ^ 24 = c8 := by
  obtain ⟨d, a, size⟩ := f
  have h_d := d.enc_lt; have h_a := a.enc_lt; have h_size := size.enc_lt
  simp only [GrpSpawnLoc.enc]
  exact op_of (low := d.enc * 2 ^ 18 + a.enc * 2 ^ 12 + size.enc) (by omega) (by omega)

@[simp] theorem GrpSpawnRem.dec_enc (c8 : Nat) (f : GrpSpawnRem) : GrpSpawnRem.dec (f.enc c8) = f := by
  obtain ⟨d, a, b, dp, size⟩ := f
  have h_d := d.enc_lt; have h_a := a.enc_lt; have h_b := b.enc_lt; have h_dp := bitNat_lt dp; have h_size := size.enc_lt
  simp only [GrpSpawnRem.dec, GrpSpawnRem.enc, GrpSpawnRem.mk.injEq]
  exact ⟨(congrArg Opnd.dec (field_of (hi := c8 * 2 ^ 0) (low := a.enc * 2 ^ 12 + b.enc * 2 ^ 6 + bitNat dp * 2 ^ 5 + size.enc) (by omega) (by omega) (by omega))).trans d.dec_enc,
    (congrArg Opnd.dec (field_of (hi := c8 * 2 ^ 6 + d.enc) (low := b.enc * 2 ^ 6 + bitNat dp * 2 ^ 5 + size.enc) (by omega) (by omega) (by omega))).trans a.dec_enc,
    (congrArg Opnd.dec (field_of (hi := c8 * 2 ^ 12 + d.enc * 2 ^ 6 + a.enc) (low := bitNat dp * 2 ^ 5 + size.enc) (by omega) (by omega) (by omega))).trans b.dec_enc,
    bit_of (hi := c8 * 2 ^ 18 + d.enc * 2 ^ 12 + a.enc * 2 ^ 6 + b.enc) (low := size.enc) (by omega) (by omega),
    (congrArg RecSize.dec (field_of (hi := c8 * 2 ^ 22 + d.enc * 2 ^ 16 + a.enc * 2 ^ 10 + b.enc * 2 ^ 4 + bitNat dp * 2 ^ 3) (low := 0) (by omega) (by omega) (by omega))).trans size.dec_enc⟩
theorem GrpSpawnRem.enc_op (c8 : Nat) (f : GrpSpawnRem) : f.enc c8 / 2 ^ 24 = c8 := by
  obtain ⟨d, a, b, dp, size⟩ := f
  have h_d := d.enc_lt; have h_a := a.enc_lt; have h_b := b.enc_lt; have h_dp := bitNat_lt dp; have h_size := size.enc_lt
  simp only [GrpSpawnRem.enc]
  exact op_of (low := d.enc * 2 ^ 18 + a.enc * 2 ^ 12 + b.enc * 2 ^ 6 + bitNat dp * 2 ^ 5 + size.enc) (by omega) (by omega)

@[simp] theorem GrpBinfl.dec_enc (c8 : Nat) (f : GrpBinfl) : GrpBinfl.dec (f.enc c8) = f := by
  obtain ⟨d, a, wt⟩ := f
  have h_d := d.enc_lt; have h_a := a.enc_lt; have h_wt := bitNat_lt wt
  simp only [GrpBinfl.dec, GrpBinfl.enc, GrpBinfl.mk.injEq]
  exact ⟨(congrArg Opnd.dec (field_of (hi := c8 * 2 ^ 0) (low := a.enc * 2 ^ 12 + bitNat wt) (by omega) (by omega) (by omega))).trans d.dec_enc,
    (congrArg Opnd.dec (field_of (hi := c8 * 2 ^ 6 + d.enc) (low := bitNat wt) (by omega) (by omega) (by omega))).trans a.dec_enc,
    bit_of (hi := c8 * 2 ^ 23 + d.enc * 2 ^ 17 + a.enc * 2 ^ 11) (low := 0) (by omega) (by omega)⟩
theorem GrpBinfl.enc_op (c8 : Nat) (f : GrpBinfl) : f.enc c8 / 2 ^ 24 = c8 := by
  obtain ⟨d, a, wt⟩ := f
  have h_d := d.enc_lt; have h_a := a.enc_lt; have h_wt := bitNat_lt wt
  simp only [GrpBinfl.enc]
  exact op_of (low := d.enc * 2 ^ 18 + a.enc * 2 ^ 12 + bitNat wt) (by omega) (by omega)

@[simp] theorem GrpLoop.dec_enc (c8 : Nat) (f : GrpLoop) : GrpLoop.dec (f.enc c8) = f := by
  obtain ⟨acc, t, b, g4, pm, cb⟩ := f
  have h_acc := acc.isLt; have h_t := t.isLt; have h_b := b.enc_lt; have h_g4 := bitNat_lt g4; have h_pm := bitNat_lt pm; have h_cb := cb.isLt
  simp only [GrpLoop.dec, GrpLoop.enc, GrpLoop.mk.injEq]
  exact ⟨fin_of (field_of (hi := c8 * 2 ^ 2) (low := t.val * 2 ^ 12 + b.enc * 2 ^ 6 + bitNat g4 * 2 ^ 5 + bitNat pm * 2 ^ 4 + cb.val) (by omega) (by omega) (by omega)),
    fin_of (field_of (hi := c8 * 2 ^ 9 + acc.val * 2 ^ 3) (low := b.enc * 2 ^ 6 + bitNat g4 * 2 ^ 5 + bitNat pm * 2 ^ 4 + cb.val) (by omega) (by omega) (by omega)),
    (congrArg Opnd.dec (field_of (hi := c8 * 2 ^ 12 + acc.val * 2 ^ 6 + t.val) (low := bitNat g4 * 2 ^ 5 + bitNat pm * 2 ^ 4 + cb.val) (by omega) (by omega) (by omega))).trans b.dec_enc,
    bit_of (hi := c8 * 2 ^ 18 + acc.val * 2 ^ 12 + t.val * 2 ^ 6 + b.enc) (low := bitNat pm * 2 ^ 4 + cb.val) (by omega) (by omega),
    bit_of (hi := c8 * 2 ^ 19 + acc.val * 2 ^ 13 + t.val * 2 ^ 7 + b.enc * 2 ^ 1 + bitNat g4) (low := cb.val) (by omega) (by omega),
    fin_of (field_of (hi := c8 * 2 ^ 20 + acc.val * 2 ^ 14 + t.val * 2 ^ 8 + b.enc * 2 ^ 2 + bitNat g4 * 2 ^ 1 + bitNat pm) (low := 0) (by omega) (by omega) (by omega))⟩
theorem GrpLoop.enc_op (c8 : Nat) (f : GrpLoop) : f.enc c8 / 2 ^ 24 = c8 := by
  obtain ⟨acc, t, b, g4, pm, cb⟩ := f
  have h_acc := acc.isLt; have h_t := t.isLt; have h_b := b.enc_lt; have h_g4 := bitNat_lt g4; have h_pm := bitNat_lt pm; have h_cb := cb.isLt
  simp only [GrpLoop.enc]
  exact op_of (low := acc.val * 2 ^ 18 + t.val * 2 ^ 12 + b.enc * 2 ^ 6 + bitNat g4 * 2 ^ 5 + bitNat pm * 2 ^ 4 + cb.val) (by omega) (by omega)

end Sys2Proof
end

