-- ==== Sys2Proof/Laws/Exec.lean ====
section
/-! SUPPORT. What `exec` calls for each instruction. -/

namespace Sys2Proof.Machine

theorem exec_iadd (f : LaneBin) (s : State) : exec (.iadd f) s = execIadd f s := rfl
theorem exec_isub (f : LaneBin) (s : State) : exec (.isub f) s = execIsub f s := rfl
theorem exec_imul (f : LaneBin) (s : State) : exec (.imul f) s = execImul f s := rfl
theorem exec_imulhs (f : LaneBin) (s : State) : exec (.imulhs f) s = execImulhs f s := rfl
theorem exec_imulhu (f : LaneBin) (s : State) : exec (.imulhu f) s = execImulhu f s := rfl
theorem exec_imin (f : LaneBin) (s : State) : exec (.imin f) s = execImin f s := rfl
theorem exec_imax (f : LaneBin) (s : State) : exec (.imax f) s = execImax f s := rfl
theorem exec_umin (f : LaneBin) (s : State) : exec (.umin f) s = execUmin f s := rfl
theorem exec_umax (f : LaneBin) (s : State) : exec (.umax f) s = execUmax f s := rfl
theorem exec_iabs (f : LaneUn) (s : State) : exec (.iabs f) s = execIabs f s := rfl
theorem exec_andv (f : LaneBin) (s : State) : exec (.andv f) s = execAndv f s := rfl
theorem exec_orv (f : LaneBin) (s : State) : exec (.orv f) s = execOrv f s := rfl
theorem exec_xorv (f : LaneBin) (s : State) : exec (.xorv f) s = execXorv f s := rfl
theorem exec_andn (f : LaneBin) (s : State) : exec (.andn f) s = execAndn f s := rfl
theorem exec_shl (f : LaneBin) (s : State) : exec (.shl f) s = execShl f s := rfl
theorem exec_shr (f : LaneBin) (s : State) : exec (.shr f) s = execShr f s := rfl
theorem exec_sar (f : LaneBin) (s : State) : exec (.sar f) s = execSar f s := rfl
theorem exec_popc (f : LaneUn) (s : State) : exec (.popc f) s = execPopc f s := rfl
theorem exec_clz (f : LaneUn) (s : State) : exec (.clz f) s = execClz f s := rfl
theorem exec_brev (f : LaneUn) (s : State) : exec (.brev f) s = execBrev f s := rfl
theorem exec_bfx (f : LaneBin) (s : State) : exec (.bfx f) s = execBfx f s := rfl
theorem exec_bfi (f : LaneBin) (s : State) : exec (.bfi f) s = execBfi f s := rfl
theorem exec_icmp (f : LaneICmp) (s : State) : exec (.icmp f) s = execIcmp f s := rfl
theorem exec_ucmp (f : LaneICmp) (s : State) : exec (.ucmp f) s = execUcmp f s := rfl
theorem exec_sel (f : LaneBin) (s : State) : exec (.sel f) s = execSel f s := rfl
theorem exec_iaddi (f : LaneImm) (s : State) : exec (.iaddi f) s = execIaddi f s := rfl
theorem exec_andi (f : LaneImm) (s : State) : exec (.andi f) s = execAndi f s := rfl
theorem exec_shli (f : LaneImm) (s : State) : exec (.shli f) s = execShli f s := rfl
theorem exec_shri (f : LaneImm) (s : State) : exec (.shri f) s = execShri f s := rfl
theorem exec_lea (f : LaneLea) (s : State) : exec (.lea f) s = execLea f s := rfl
theorem exec_movi (f : LaneMovi) (s : State) : exec (.movi f) s = execMovi f s := rfl
theorem exec_fadd (f : LaneBin) (s : State) : exec (.fadd f) s = execFadd f s := rfl
theorem exec_fsub (f : LaneBin) (s : State) : exec (.fsub f) s = execFsub f s := rfl
theorem exec_fmul (f : LaneBin) (s : State) : exec (.fmul f) s = execFmul f s := rfl
theorem exec_ffma (f : LaneBin) (s : State) : exec (.ffma f) s = execFfma f s := rfl
theorem exec_fmin (f : LaneBin) (s : State) : exec (.fmin f) s = execFmin f s := rfl
theorem exec_fmax (f : LaneBin) (s : State) : exec (.fmax f) s = execFmax f s := rfl
theorem exec_fcmp (f : LaneFCmp) (s : State) : exec (.fcmp f) s = execFcmp f s := rfl
theorem exec_fcls (f : LaneUn) (s : State) : exec (.fcls f) s = execFcls f s := rfl
theorem exec_frcp (f : LaneUn) (s : State) : exec (.frcp f) s = execFrcp f s := rfl
theorem exec_frsq (f : LaneUn) (s : State) : exec (.frsq f) s = execFrsq f s := rfl
theorem exec_fsqrt (f : LaneUn) (s : State) : exec (.fsqrt f) s = execFsqrt f s := rfl
theorem exec_fexp2 (f : LaneUn) (s : State) : exec (.fexp2 f) s = execFexp2 f s := rfl
theorem exec_flog2 (f : LaneUn) (s : State) : exec (.flog2 f) s = execFlog2 f s := rfl
theorem exec_badd2 (f : LaneBin) (s : State) : exec (.badd2 f) s = execBadd2 f s := rfl
theorem exec_bmul2 (f : LaneBin) (s : State) : exec (.bmul2 f) s = execBmul2 f s := rfl
theorem exec_bfma2 (f : LaneBin) (s : State) : exec (.bfma2 f) s = execBfma2 f s := rfl
theorem exec_bmax2 (f : LaneBin) (s : State) : exec (.bmax2 f) s = execBmax2 f s := rfl
theorem exec_hadd2 (f : LaneBin) (s : State) : exec (.hadd2 f) s = execHadd2 f s := rfl
theorem exec_hmul2 (f : LaneBin) (s : State) : exec (.hmul2 f) s = execHmul2 f s := rfl
theorem exec_hfma2 (f : LaneBin) (s : State) : exec (.hfma2 f) s = execHfma2 f s := rfl
theorem exec_cvtif (f : LaneCvt) (s : State) : exec (.cvtif f) s = execCvtif f s := rfl
theorem exec_cvtfi (f : LaneCvt) (s : State) : exec (.cvtfi f) s = execCvtfi f s := rfl
theorem exec_cvtfb (f : LaneCvt) (s : State) : exec (.cvtfb f) s = execCvtfb f s := rfl
theorem exec_cvtbf (f : LaneCvt) (s : State) : exec (.cvtbf f) s = execCvtbf f s := rfl
theorem exec_cvtfh (f : LaneCvt) (s : State) : exec (.cvtfh f) s = execCvtfh f s := rfl
theorem exec_cvthf (f : LaneCvt) (s : State) : exec (.cvthf f) s = execCvthf f s := rfl
theorem exec_cvtf8 (f : LaneCvt) (s : State) : exec (.cvtf8 f) s = execCvtf8 f s := rfl
theorem exec_cvt8f (f : LaneCvt) (s : State) : exec (.cvt8f f) s = execCvt8f f s := rfl
theorem exec_cvtfn (f : LaneCvt) (s : State) : exec (.cvtfn f) s = execCvtfn f s := rfl
theorem exec_cvtnf (f : LaneCvt) (s : State) : exec (.cvtnf f) s = execCvtnf f s := rfl
theorem exec_shfi (f : LaneColl) (s : State) : exec (.shfi f) s = execShfi f s := rfl
theorem exec_shfu (f : LaneColl) (s : State) : exec (.shfu f) s = execShfu f s := rfl
theorem exec_shfd (f : LaneColl) (s : State) : exec (.shfd f) s = execShfd f s := rfl
theorem exec_shfx (f : LaneColl) (s : State) : exec (.shfx f) s = execShfx f s := rfl
theorem exec_vote (f : LaneVote) (s : State) : exec (.vote f) s = execVote f s := rfl
theorem exec_ballot (f : LaneBallot) (s : State) : exec (.ballot f) s = execBallot f s := rfl
theorem exec_gred (f : LaneGred) (s : State) : exec (.gred f) s = execGred f s := rfl
theorem exec_matchv (f : LaneColl) (s : State) : exec (.matchv f) s = execMatchv f s := rfl
theorem exec_mkemp (f : LaneOne) (s : State) : exec (.mkemp f) s = execMkemp f s := rfl
theorem exec_mkful (f : LaneOne) (s : State) : exec (.mkful f) s = execMkful f s := rfl
theorem exec_pmovPack (f : LaneOne) (s : State) : exec (.pmovPack f) s = execPmovPack f s := rfl
theorem exec_pmovUnpack (f : LaneSrc) (s : State) : exec (.pmovUnpack f) s = execPmovUnpack f s := rfl
theorem exec_getid (f : LaneGetid) (s : State) : exec (.getid f) s = execGetid f s := rfl
theorem exec_ld8 (f : LaneMem) (s : State) : exec (.ld8 f) s = execLd8 f s := rfl
theorem exec_ld16 (f : LaneMem) (s : State) : exec (.ld16 f) s = execLd16 f s := rfl
theorem exec_ld32 (f : LaneMem) (s : State) : exec (.ld32 f) s = execLd32 f s := rfl
theorem exec_ld64 (f : LaneMem) (s : State) : exec (.ld64 f) s = execLd64 f s := rfl
theorem exec_ld128 (f : LaneMem) (s : State) : exec (.ld128 f) s = execLd128 f s := rfl
theorem exec_st8 (f : LaneMem) (s : State) : exec (.st8 f) s = execSt8 f s := rfl
theorem exec_st16 (f : LaneMem) (s : State) : exec (.st16 f) s = execSt16 f s := rfl
theorem exec_st32 (f : LaneMem) (s : State) : exec (.st32 f) s = execSt32 f s := rfl
theorem exec_st64 (f : LaneMem) (s : State) : exec (.st64 f) s = execSt64 f s := rfl
theorem exec_st128 (f : LaneMem) (s : State) : exec (.st128 f) s = execSt128 f s := rfl
theorem exec_ldx (f : LaneMemIdx) (s : State) : exec (.ldx f) s = execLdx f s := rfl
theorem exec_stx (f : LaneMemIdx) (s : State) : exec (.stx f) s = execStx f s := rfl
theorem exec_aadd (f : LaneMemIdx) (s : State) : exec (.aadd f) s = execAadd f s := rfl
theorem exec_amin (f : LaneMemIdx) (s : State) : exec (.amin f) s = execAmin f s := rfl
theorem exec_amax (f : LaneMemIdx) (s : State) : exec (.amax f) s = execAmax f s := rfl
theorem exec_aumin (f : LaneMemIdx) (s : State) : exec (.aumin f) s = execAumin f s := rfl
theorem exec_aumax (f : LaneMemIdx) (s : State) : exec (.aumax f) s = execAumax f s := rfl
theorem exec_aand (f : LaneMemIdx) (s : State) : exec (.aand f) s = execAand f s := rfl
theorem exec_aor (f : LaneMemIdx) (s : State) : exec (.aor f) s = execAor f s := rfl
theorem exec_axor (f : LaneMemIdx) (s : State) : exec (.axor f) s = execAxor f s := rfl
theorem exec_axch (f : LaneMemIdx) (s : State) : exec (.axch f) s = execAxch f s := rfl
theorem exec_acas (f : LaneMemIdx) (s : State) : exec (.acas f) s = execAcas f s := rfl
theorem exec_afadd (f : LaneMemIdx) (s : State) : exec (.afadd f) s = execAfadd f s := rfl
theorem exec_pref (f : LanePref) (s : State) : exec (.pref f) s = execPref f s := rfl
theorem exec_rld32 (f : LaneRemote) (s : State) : exec (.rld32 f) s = execRld32 f s := rfl
theorem exec_rld64 (f : LaneRemote) (s : State) : exec (.rld64 f) s = execRld64 f s := rfl
theorem exec_rst32 (f : LaneRemote) (s : State) : exec (.rst32 f) s = execRst32 f s := rfl
theorem exec_rst64 (f : LaneRemote) (s : State) : exec (.rst64 f) s = execRst64 f s := rfl
theorem exec_ratom (f : LaneRatom) (s : State) : exec (.ratom f) s = execRatom f s := rfl
theorem exec_br (f : LaneBr) (s : State) : exec (.br f) s = execBr f s := rfl
theorem exec_brx (f : LaneSrc) (s : State) : exec (.brx f) s = execBrx f s := rfl
theorem exec_call (f : LaneBr) (s : State) : exec (.call f) s = execCall f s := rfl
theorem exec_ret (f : LaneGuard) (s : State) : exec (.ret f) s = execRet f s := rfl
theorem exec_exitv (f : LaneExit) (s : State) : exec (.exitv f) s = execExitv f s := rfl
theorem exec_barv (f : LaneBar) (s : State) : exec (.barv f) s = execBarv f s := rfl
theorem exec_regn (n : BitVec 9) (s : State) : exec (.regn n) s = execRegn n s := rfl
theorem exec_spawn (f : LaneSpawn) (s : State) : exec (.spawn f) s = execSpawn f s := rfl
theorem exec_yield (f : LaneGuard) (s : State) : exec (.yield f) s = execYield f s := rfl
theorem exec_nop (f : LaneGuard) (s : State) : exec (.nop f) s = execNop f s := rfl
theorem exec_waite (f : LaneOne) (s : State) : exec (.waite f) s = execWaite f s := rfl
theorem exec_gadd (f : GrpBin) (s : State) : exec (.gadd f) s = execGadd f s := rfl
theorem exec_gsub (f : GrpBin) (s : State) : exec (.gsub f) s = execGsub f s := rfl
theorem exec_gmul (f : GrpBin) (s : State) : exec (.gmul f) s = execGmul f s := rfl
theorem exec_gmad (f : GrpBin) (s : State) : exec (.gmad f) s = execGmad f s := rfl
theorem exec_gmin (f : GrpBin) (s : State) : exec (.gmin f) s = execGmin f s := rfl
theorem exec_gmax (f : GrpBin) (s : State) : exec (.gmax f) s = execGmax f s := rfl
theorem exec_gand (f : GrpBin) (s : State) : exec (.gand f) s = execGand f s := rfl
theorem exec_gor (f : GrpBin) (s : State) : exec (.gor f) s = execGor f s := rfl
theorem exec_gxor (f : GrpBin) (s : State) : exec (.gxor f) s = execGxor f s := rfl
theorem exec_gshl (f : GrpBin) (s : State) : exec (.gshl f) s = execGshl f s := rfl
theorem exec_gshr (f : GrpBin) (s : State) : exec (.gshr f) s = execGshr f s := rfl
theorem exec_gsar (f : GrpBin) (s : State) : exec (.gsar f) s = execGsar f s := rfl
theorem exec_gcmp (f : GrpCmp) (s : State) : exec (.gcmp f) s = execGcmp f s := rfl
theorem exec_gsel (f : GrpBin) (s : State) : exec (.gsel f) s = execGsel f s := rfl
theorem exec_gpopc (f : GrpUn) (s : State) : exec (.gpopc f) s = execGpopc f s := rfl
theorem exec_gclz (f : GrpUn) (s : State) : exec (.gclz f) s = execGclz f s := rfl
theorem exec_gaddi (f : GrpImm) (s : State) : exec (.gaddi f) s = execGaddi f s := rfl
theorem exec_gmovi (f : GrpImm) (s : State) : exec (.gmovi f) s = execGmovi f s := rfl
theorem exec_gmovh (f : GrpImm) (s : State) : exec (.gmovh f) s = execGmovh f s := rfl
theorem exec_gmulh (f : GrpBin) (s : State) : exec (.gmulh f) s = execGmulh f s := rfl
theorem exec_gdivu (f : GrpBin) (s : State) : exec (.gdivu f) s = execGdivu f s := rfl
theorem exec_gremu (f : GrpBin) (s : State) : exec (.gremu f) s = execGremu f s := rfl
theorem exec_gbr (f : GrpBr) (s : State) : exec (.gbr f) s = execGbr f s := rfl
theorem exec_gloop (f : GrpImm) (s : State) : exec (.gloop f) s = execGloop f s := rfl
theorem exec_gcall (f : GrpBr) (s : State) : exec (.gcall f) s = execGcall f s := rfl
theorem exec_gret (f : GrpGuard) (s : State) : exec (.gret f) s = execGret f s := rfl
theorem exec_qput (f : GrpUn) (s : State) : exec (.qput f) s = execQput f s := rfl
theorem exec_qget (f : GrpUn) (s : State) : exec (.qget f) s = execQget f s := rfl
theorem exec_qclose (f : GrpQclose) (s : State) : exec (.qclose f) s = execQclose f s := rfl
theorem exec_qstat (f : GrpQstat) (s : State) : exec (.qstat f) s = execQstat f s := rfl
theorem exec_gld32 (f : GrpMem) (s : State) : exec (.gld32 f) s = execGld32 f s := rfl
theorem exec_gld64 (f : GrpMem) (s : State) : exec (.gld64 f) s = execGld64 f s := rfl
theorem exec_gst32 (f : GrpMem) (s : State) : exec (.gst32 f) s = execGst32 f s := rfl
theorem exec_gst64 (f : GrpMem) (s : State) : exec (.gst64 f) s = execGst64 f s := rfl
theorem exec_gatom (f : GrpAtom) (s : State) : exec (.gatom f) s = execGatom f s := rfl
theorem exec_agen (f : GrpAgen) (s : State) : exec (.agen f) s = execAgen f s := rfl
theorem exec_agenx (f : GrpAgen) (s : State) : exec (.agenx f) s = execAgenx f s := rfl
theorem exec_gpref (f : GrpTwo) (s : State) : exec (.gpref f) s = execGpref f s := rfl
theorem exec_cbinit (f : GrpCbinit) (s : State) : exec (.cbinit f) s = execCbinit f s := rfl
theorem exec_cbarv (f : GrpCbarv) (s : State) : exec (.cbarv f) s = execCbarv f s := rfl
theorem exec_cbwait (f : GrpCbwait) (s : State) : exec (.cbwait f) s = execCbwait f s := rfl
theorem exec_cbtest (f : GrpCbtest) (s : State) : exec (.cbtest f) s = execCbtest f s := rfl
theorem exec_cpy (f : GrpCpy) (s : State) : exec (.cpy f) s = execCpy f s := rfl
theorem exec_cpys (f : GrpCpy) (s : State) : exec (.cpys f) s = execCpys f s := rfl
theorem exec_cpyg (f : GrpCpy) (s : State) : exec (.cpyg f) s = execCpyg f s := rfl
theorem exec_cpyx (f : GrpCpy) (s : State) : exec (.cpyx f) s = execCpyx f s := rfl
theorem exec_rgld (f : GrpRemote) (s : State) : exec (.rgld f) s = execRgld f s := rfl
theorem exec_rgst (f : GrpRemote) (s : State) : exec (.rgst f) s = execRgst f s := rfl
theorem exec_rmst (f : GrpRemote) (s : State) : exec (.rmst f) s = execRmst f s := rfl
theorem exec_rgatm (f : GrpRgatm) (s : State) : exec (.rgatm f) s = execRgatm f s := rfl
theorem exec_binsetFlush (f : GrpThree) (s : State) : exec (.binsetFlush f) s = execBinsetFlush f s := rfl
theorem exec_binsetClose (f : GrpDA) (s : State) : exec (.binsetClose f) s = execBinsetClose f s := rfl
theorem exec_binsetOpen (f : GrpDA) (s : State) : exec (.binsetOpen f) s = execBinsetOpen f s := rfl
theorem exec_spawngLoc (f : GrpSpawnLoc) (s : State) : exec (.spawngLoc f) s = execSpawngLoc f s := rfl
theorem exec_spawngRemote (f : GrpSpawnRem) (s : State) : exec (.spawngRemote f) s = execSpawngRemote f s := rfl
theorem exec_binfl (f : GrpBinfl) (s : State) : exec (.binfl f) s = execBinfl f s := rfl
theorem exec_longLatencyComplete (g op : Nat) (mask : BitVec 32) (s : State) : exec (.longLatencyComplete g op mask) s = execLongLatencyComplete g op mask s := rfl
theorem exec_xlateInvCtlWrite (vd : Nat) (val : BitVec 64) (s : State) : exec (.xlateInvCtlWrite vd val) s = execXlateInvCtlWrite vd val s := rfl
theorem exec_xlateRootWrite (vd : Nat) (val : BitVec 64) (s : State) : exec (.xlateRootWrite vd val) s = execXlateRootWrite vd val s := rfl
theorem exec_xlateKeysWrite (vd : Nat) (val : BitVec 64) (s : State) : exec (.xlateKeysWrite vd val) s = execXlateKeysWrite vd val s := rfl
theorem exec_fabWtabWrite (vd : Nat) (val : BitVec 64) (s : State) : exec (.fabWtabWrite vd val) s = execFabWtabWrite vd val s := rfl
theorem exec_fabItabWrite (vd : Nat) (val : BitVec 64) (s : State) : exec (.fabItabWrite vd val) s = execFabItabWrite vd val s := rfl
theorem exec_evbaseWrite (vd : Nat) (val : BitVec 64) (s : State) : exec (.evbaseWrite vd val) s = execEvbaseWrite vd val s := rfl
theorem exec_evctlWrite (vd : Nat) (val : BitVec 64) (s : State) : exec (.evctlWrite vd val) s = execEvctlWrite vd val s := rfl
theorem exec_caplenWrite (vd : Nat) (val : BitVec 64) (s : State) : exec (.caplenWrite vd val) s = execCaplenWrite vd val s := rfl
theorem exec_tfcmdResume (vd : Nat) (val : BitVec 64) (s : State) : exec (.tfcmdResume vd val) s = execTfcmdResume vd val s := rfl
theorem exec_tfcmdAbort (vd : Nat) (val : BitVec 64) (s : State) : exec (.tfcmdAbort vd val) s = execTfcmdAbort vd val s := rfl
theorem exec_qctlReset (vd q : Nat) (val : BitVec 64) (s : State) : exec (.qctlReset vd q val) s = execQctlReset vd q val s := rfl
theorem exec_qctlAck (vd q : Nat) (val : BitVec 64) (s : State) : exec (.qctlAck vd q val) s = execQctlAck vd q val s := rfl
theorem exec_qctlEnable (vd q : Nat) (val : BitVec 64) (s : State) : exec (.qctlEnable vd q val) s = execQctlEnable vd q val s := rfl
theorem exec_qctlDisable (vd q : Nat) (val : BitVec 64) (s : State) : exec (.qctlDisable vd q val) s = execQctlDisable vd q val s := rfl
theorem exec_registerWrite (vd offset : Nat) (val : BitVec 64) (s : State) : exec (.registerWrite vd offset val) s = execRegisterWrite vd offset val s := rfl
theorem exec_writeIndexStore (vd q : Nat) (val : BitVec 64) (s : State) : exec (.writeIndexStore vd q val) s = execWriteIndexStore vd q val s := rfl
theorem exec_fabricRead (vd : Nat) (r : FabReq) (s : State) : exec (.fabricRead vd r) s = execFabricRead vd r s := rfl
theorem exec_fabricWrite (vd : Nat) (r : FabReq) (s : State) : exec (.fabricWrite vd r) s = execFabricWrite vd r s := rfl
theorem exec_fabricMulticastWrite (vd : Nat) (r : FabReq) (s : State) : exec (.fabricMulticastWrite vd r) s = execFabricMulticastWrite vd r s := rfl
theorem exec_fabricReduction (vd : Nat) (at_ : GathKey) (s : State) : exec (.fabricReduction vd at_) s = execFabricReduction vd at_ s := rfl
theorem exec_fabricAtomic (vd : Nat) (r : FabReq) (s : State) : exec (.fabricAtomic vd r) s = execFabricAtomic vd r s := rfl
theorem exec_fabricSignalAdd (vd : Nat) (r : FabReq) (s : State) : exec (.fabricSignalAdd vd r) s = execFabricSignalAdd vd r s := rfl
theorem exec_fabricSpawnRecord (vd : Nat) (r : FabReq) (s : State) : exec (.fabricSpawnRecord vd r) s = execFabricSpawnRecord vd r s := rfl
theorem exec_fabricBulkWrite (vd : Nat) (r : FabReq) (s : State) : exec (.fabricBulkWrite vd r) s = execFabricBulkWrite vd r s := rfl
theorem exec_readData (tag : BitVec 16) (data : List Byte) (s : State) : exec (.readData tag data) s = execReadData tag data s := rfl
theorem exec_acknowledgement (tag : BitVec 16) (s : State) : exec (.acknowledgement tag) s = execAcknowledgement tag s := rfl
theorem exec_errorReply (tag : BitVec 16) (cause : BitVec 8) (s : State) : exec (.errorReply tag cause) s = execErrorReply tag cause s := rfl
theorem exec_linkPause (port : Fin 16) (vc : Fin 6) (s : State) : exec (.linkPause port vc) s = execLinkPause port vc s := rfl
theorem exec_linkResume (port : Fin 16) (vc : Fin 6) (s : State) : exec (.linkResume port vc) s = execLinkResume port vc s := rfl
theorem exec_gatheringContribution (m : GathMsg) (s : State) : exec (.gatheringContribution m) s = execGatheringContribution m s := rfl
theorem exec_reductionTimerExpiry (vd : Nat) (at_ : GathKey) (s : State) : exec (.reductionTimerExpiry vd at_) s = execReductionTimerExpiry vd at_ s := rfl
theorem exec_containment (grid : BitVec 16) (member : Nat) (s : State) : exec (.containment grid member) s = execContainment grid member s := rfl
theorem exec_portServiceChange (port : Fin 16) (up : Bool) (s : State) : exec (.portServiceChange port up) s = execPortServiceChange port up s := rfl
theorem exec_portFold (port : Fin 16) (banks : Nat) (s : State) : exec (.portFold port banks) s = execPortFold port banks s := rfl
theorem exec_fabricLaneSwap (port : Fin 16) (s : State) : exec (.fabricLaneSwap port) s = execFabricLaneSwap port s := rfl
theorem exec_hostCxlMemWrite (addr : Nat) (data : List Byte) (s : State) : exec (.hostCxlMemWrite addr data) s = execHostCxlMemWrite addr data s := rfl
theorem exec_correctedError (mem : MemKind) (addr : Nat) (s : State) : exec (.correctedError mem addr) s = execCorrectedError mem addr s := rfl
theorem exec_patrolScrub (mem : MemKind) (s : State) : exec (.patrolScrub mem) s = execPatrolScrub mem s := rfl
theorem exec_firmwareUpdate (version : Nat) (signed : Bool) (s : State) : exec (.firmwareUpdate version signed) s = execFirmwareUpdate version signed s := rfl
theorem exec_sensorSample (r : SensorReading) (s : State) : exec (.sensorSample r) s = execSensorSample r s := rfl
theorem exec_illegalOpcodeWord (w : BitVec 32) (s : State) : exec (.illegalOpcodeWord w) s = execIllegalOpcodeWord w s := rfl
theorem exec_containmentCleared (grid : BitVec 16) (member : Nat) (s : State) : exec (.containmentCleared grid member) s = execContainmentCleared grid member s := rfl
theorem exec_reattestation (port : Fin 16) (s : State) : exec (.reattestation port) s = execReattestation port s := rfl
theorem exec_spdmRequest (r : SpdmReq) (s : State) : exec (.spdmRequest r) s = execSpdmRequest r s := rfl
theorem exec_platformMonitoringAndControl (m : PldmMsg) (s : State) : exec (.platformMonitoringAndControl m) s = execPlatformMonitoringAndControl m s := rfl
theorem exec_virtualDeviceCreation (vd : Nat) (clusters : List Nat) (journalMiB stowPa stowLen : Nat) (s : State) : exec (.virtualDeviceCreation vd clusters journalMiB stowPa stowLen) s = execVirtualDeviceCreation vd clusters journalMiB stowPa stowLen s := rfl
theorem exec_unlisted (u : Unlisted) (s : State) : exec (.unlisted u) s = execUnlisted u s := rfl
theorem exec_qgetFill (s : State) : exec .qgetFill s = execQgetFill s := rfl
theorem exec_statusWaitFill (s : State) : exec .statusWaitFill s = execStatusWaitFill s := rfl
theorem exec_barrierWaitEnd (s : State) : exec .barrierWaitEnd s = execBarrierWaitEnd s := rfl
theorem exec_missedPromise (s : State) : exec .missedPromise s = execMissedPromise s := rfl
theorem exec_collectiveFormation (s : State) : exec .collectiveFormation s = execCollectiveFormation s := rfl
theorem exec_regnPerform (s : State) : exec .regnPerform s = execRegnPerform s := rfl
theorem exec_ageCap (s : State) : exec .ageCap s = execAgeCap s := rfl
theorem exec_copyClaimGrant (s : State) : exec .copyClaimGrant s = execCopyClaimGrant s := rfl
theorem exec_copyCommandStart (s : State) : exec .copyCommandStart s = execCopyCommandStart s := rfl
theorem exec_copyUnitRelease (s : State) : exec .copyUnitRelease s = execCopyUnitRelease s := rfl
theorem exec_copyCommandComplete (s : State) : exec .copyCommandComplete s = execCopyCommandComplete s := rfl
theorem exec_stowComplete (s : State) : exec .stowComplete s = execStowComplete s := rfl
theorem exec_restoreComplete (s : State) : exec .restoreComplete s = execRestoreComplete s := rfl
theorem exec_binRingAllocation (s : State) : exec .binRingAllocation s = execBinRingAllocation s := rfl
theorem exec_binFlushTimerExpiry (s : State) : exec .binFlushTimerExpiry s = execBinFlushTimerExpiry s := rfl
theorem exec_spawnGroupLaunch (s : State) : exec .spawnGroupLaunch s = execSpawnGroupLaunch s := rfl
theorem exec_combineDeadline (s : State) : exec .combineDeadline s = execCombineDeadline s := rfl
theorem exec_teamPlacement (s : State) : exec .teamPlacement s = execTeamPlacement s := rfl
theorem exec_residencyHoldExpiry (s : State) : exec .residencyHoldExpiry s = execResidencyHoldExpiry s := rfl
theorem exec_victimWaitExpiry (s : State) : exec .victimWaitExpiry s = execVictimWaitExpiry s := rfl
theorem exec_drainBudgetExpiry (s : State) : exec .drainBudgetExpiry s = execDrainBudgetExpiry s := rfl
theorem exec_saveEnd (s : State) : exec .saveEnd s = execSaveEnd s := rfl
theorem exec_teamEnd (s : State) : exec .teamEnd s = execTeamEnd s := rfl
theorem exec_l1Eviction (s : State) : exec .l1Eviction s = execL1Eviction s := rfl
theorem exec_pageWalkComplete (s : State) : exec .pageWalkComplete s = execPageWalkComplete s := rfl
theorem exec_invalidationComplete (s : State) : exec .invalidationComplete s = execInvalidationComplete s := rfl
theorem exec_dbdataRead (s : State) : exec .dbdataRead s = execDbdataRead s := rfl
theorem exec_runStop (s : State) : exec .runStop s = execRunStop s := rfl
theorem exec_stopComplete (s : State) : exec .stopComplete s = execStopComplete s := rfl
theorem exec_runResume (s : State) : exec .runResume s = execRunResume s := rfl
theorem exec_packetAccept (s : State) : exec .packetAccept s = execPacketAccept s := rfl
theorem exec_launch (s : State) : exec .launch s = execLaunch s := rfl
theorem exec_barrier (s : State) : exec .barrier s = execBarrier s := rfl
theorem exec_barrierResolve (s : State) : exec .barrierResolve s = execBarrierResolve s := rfl
theorem exec_abortedPacketRetire (s : State) : exec .abortedPacketRetire s = execAbortedPacketRetire s := rfl
theorem exec_signalAdd (s : State) : exec .signalAdd s = execSignalAdd s := rfl
theorem exec_signalSet (s : State) : exec .signalSet s = execSignalSet s := rfl
theorem exec_segmentStow (s : State) : exec .segmentStow s = execSegmentStow s := rfl
theorem exec_segmentDrop (s : State) : exec .segmentDrop s = execSegmentDrop s := rfl
theorem exec_segmentPin (s : State) : exec .segmentPin s = execSegmentPin s := rfl
theorem exec_segmentUnpin (s : State) : exec .segmentUnpin s = execSegmentUnpin s := rfl
theorem exec_marker (s : State) : exec .marker s = execMarker s := rfl
theorem exec_bufferedEventPost (s : State) : exec .bufferedEventPost s = execBufferedEventPost s := rfl
theorem exec_heartbeat (s : State) : exec .heartbeat s = execHeartbeat s := rfl
theorem exec_standbyTakeover (s : State) : exec .standbyTakeover s = execStandbyTakeover s := rfl
theorem exec_requestTimeout (s : State) : exec .requestTimeout s = execRequestTimeout s := rfl
theorem exec_slotQuarantineEnd (s : State) : exec .slotQuarantineEnd s = execSlotQuarantineEnd s := rfl
theorem exec_packetLifeExpiry (s : State) : exec .packetLifeExpiry s = execPacketLifeExpiry s := rfl
theorem exec_hostCxlMemRead (s : State) : exec .hostCxlMemRead s = execHostCxlMemRead s := rfl
theorem exec_sramRowRepair (s : State) : exec .sramRowRepair s = execSramRowRepair s := rfl
theorem exec_channelSparing (s : State) : exec .channelSparing s = execChannelSparing s := rfl
theorem exec_spareCoreSubstitution (s : State) : exec .spareCoreSubstitution s = execSpareCoreSubstitution s := rfl
theorem exec_moduleReplacement (s : State) : exec .moduleReplacement s = execModuleReplacement s := rfl
theorem exec_powerGoodBoot (s : State) : exec .powerGoodBoot s = execPowerGoodBoot s := rfl
theorem exec_cxlHotReset (s : State) : exec .cxlHotReset s = execCxlHotReset s := rfl
theorem exec_vfFunctionLevelReset (s : State) : exec .vfFunctionLevelReset s = execVfFunctionLevelReset s := rfl
theorem exec_virtualDeviceDestruction (s : State) : exec .virtualDeviceDestruction s = execVirtualDeviceDestruction s := rfl
theorem exec_coreLostToUncorrectableFault (s : State) : exec .coreLostToUncorrectableFault s = execCoreLostToUncorrectableFault s := rfl
theorem exec_heldSpawnRecordTimeout (s : State) : exec .heldSpawnRecordTimeout s = execHeldSpawnRecordTimeout s := rfl

end Sys2Proof.Machine
end

