-- ==== Sys2Proof/Laws/Maps.lean ====
section
/-! SUPPORT. Laws of the plain-data maps. -/

namespace Sys2Proof.Machine

variable {α β γ : Type}

theorem FMap.get_eq_find (m : FMap α) (k : Nat) (d : α) : m.get k d = (m.find k).getD d := by
  induction m with
  | nil => rfl
  | cons p r ih => simp only [FMap.get, FMap.find]; split <;> simp [ih]

@[simp] theorem FMap.find_set_same (m : FMap α) (k : Nat) (v : α) : (m.set k v).find k = some v := by
  induction m with
  | nil => simp [FMap.set, FMap.find]
  | cons p r ih =>
    simp only [FMap.set]
    split
    · simp [FMap.find]
    · split
      · simp [FMap.find]
      · simp_all [FMap.find]

theorem FMap.find_set_other (m : FMap α) {k k' : Nat} (v : α) (h : k' ≠ k) : (m.set k v).find k' = m.find k' := by
  induction m with
  | nil => simp [FMap.set, FMap.find, h]
  | cons p r ih =>
    simp only [FMap.set]
    split
    · next e => subst e; simp [FMap.find, h]
    · split
      · simp [FMap.find, h]
      · simp [FMap.find, ih]

@[simp] theorem FMap.get_set_same (m : FMap α) (k : Nat) (v d : α) : (m.set k v).get k d = v := by
  simp [FMap.get_eq_find]

theorem FMap.get_set_other (m : FMap α) {k k' : Nat} (v d : α) (h : k' ≠ k) : (m.set k v).get k' d = m.get k' d := by
  simp [FMap.get_eq_find, FMap.find_set_other m v h]

@[simp] theorem FMap.set_set (m : FMap α) (k : Nat) (a b : α) : (m.set k a).set k b = m.set k b := by
  induction m with
  | nil => simp [FMap.set]
  | cons p r ih =>
    simp only [FMap.set]
    split
    · simp [FMap.set]
    · split
      · simp [FMap.set]
      · simp [FMap.set, *]

@[simp] theorem FMap.find_mapKV (m : FMap α) (f : Nat → α → β) (k : Nat) : (m.mapKV f).find k = (m.find k).map (f k) := by
  induction m with
  | nil => rfl
  | cons p r ih =>
    simp only [FMap.mapKV, List.map, FMap.find] at ih ⊢
    split
    · next e => subst e; rfl
    · exact ih

theorem FMap.get_mapKV (m : FMap α) (f : Nat → α → α) (k : Nat) (d : α) :
    (m.mapKV f).get k d = if (m.find k).isSome then f k (m.get k d) else d := by
  simp only [FMap.get_eq_find, FMap.find_mapKV]
  cases m.find k <;> rfl

theorem FMap.mapKV_mapKV (m : FMap α) (f : Nat → α → β) (g : Nat → β → γ) :
    (m.mapKV f).mapKV g = m.mapKV (fun k x => g k (f k x)) := by
  simp [FMap.mapKV, List.map_map, Function.comp_def]

theorem FMap.mapKV_id (m : FMap α) (f : Nat → α → α) (h : ∀ p ∈ m, f p.1 p.2 = p.2) : m.mapKV f = m := by
  induction m with
  | nil => rfl
  | cons p r ih =>
    simp only [FMap.mapKV, List.map] at ih ⊢
    rw [h p (by simp), ih (fun q hq => h q (by simp [hq]))]

theorem FMap.mapKV_congr (m : FMap α) (f g : Nat → α → β) (h : ∀ p ∈ m, f p.1 p.2 = g p.1 p.2) : m.mapKV f = m.mapKV g := by
  simp only [FMap.mapKV]
  exact List.map_congr_left (fun p hp => by rw [h p hp])

/-! ## Rising keys -/

theorem FMap.risingFrom_mono {m : FMap α} {a b : Nat} (h : a ≤ b) (hm : FMap.risingFrom b m = true) : FMap.risingFrom a m = true := by
  cases m with
  | nil => rfl
  | cons p r => simp_all [FMap.risingFrom]; omega

theorem FMap.risingFrom_lt {m : FMap α} {lo : Nat} (h : FMap.risingFrom lo m = true) : ∀ p ∈ m, lo ≤ p.1 := by
  induction m generalizing lo with
  | nil => simp
  | cons q r ih =>
    simp only [FMap.risingFrom, Bool.and_eq_true, decide_eq_true_eq] at h
    intro p hp
    rcases List.mem_cons.mp hp with rfl | hp
    · exact h.1
    · have := ih h.2 p hp; omega

theorem FMap.find_of_mem {m : FMap α} {lo : Nat} (h : FMap.risingFrom lo m = true) {p : Nat × α} (hp : p ∈ m) :
    m.find p.1 = some p.2 := by
  induction m generalizing lo with
  | nil => simp at hp
  | cons q r ih =>
    simp only [FMap.risingFrom, Bool.and_eq_true, decide_eq_true_eq] at h
    rcases List.mem_cons.mp hp with rfl | hp
    · simp [FMap.find]
    · have := FMap.risingFrom_lt h.2 p hp
      simp only [FMap.find]
      rw [if_neg (by omega)]
      exact ih h.2 hp

theorem FMap.get_of_mem {m : FMap α} (h : m.rising = true) {p : Nat × α} (hp : p ∈ m) (d : α) : m.get p.1 d = p.2 := by
  simp [FMap.get_eq_find, FMap.find_of_mem h hp]

theorem FMap.mem_of_find {m : FMap α} {k : Nat} {v : α} (h : m.find k = some v) : (k, v) ∈ m := by
  induction m with
  | nil => simp [FMap.find] at h
  | cons q r ih =>
    simp only [FMap.find] at h
    split at h
    · next e => subst e; cases h; simp
    · exact List.mem_cons_of_mem _ (ih h)

theorem FMap.set_find {m : FMap α} {lo : Nat} (h : FMap.risingFrom lo m = true) {k : Nat} {v : α} (hf : m.find k = some v) :
    m.set k v = m := by
  induction m generalizing lo with
  | nil => simp [FMap.find] at hf
  | cons q r ih =>
    simp only [FMap.risingFrom, Bool.and_eq_true, decide_eq_true_eq] at h
    simp only [FMap.find] at hf
    simp only [FMap.set]
    split at hf
    · next e => subst e; cases hf; simp
    · next e =>
      have hm := FMap.risingFrom_lt h.2 _ (FMap.mem_of_find hf)
      rw [if_neg e, if_neg (by simp at hm; omega), ih h.2 hf]

theorem FMap.risingFrom_set {m : FMap α} {lo k : Nat} (v : α) (hk : lo ≤ k) (h : FMap.risingFrom lo m = true) :
    FMap.risingFrom lo (m.set k v) = true := by
  induction m generalizing lo with
  | nil => simp [FMap.set, FMap.risingFrom, hk]
  | cons q r ih =>
    simp only [FMap.risingFrom, Bool.and_eq_true, decide_eq_true_eq] at h
    simp only [FMap.set]
    split
    · next e => subst e; simp [FMap.risingFrom, hk, h.2]
    · split
      · simp only [FMap.risingFrom, Bool.and_eq_true, decide_eq_true_eq]
        exact ⟨hk, by omega, h.2⟩
      · simp only [FMap.risingFrom, Bool.and_eq_true, decide_eq_true_eq]
        exact ⟨h.1, ih (by omega) h.2⟩

theorem FMap.rising_set {m : FMap α} (k : Nat) (v : α) (h : m.rising = true) : (m.set k v).rising = true :=
  FMap.risingFrom_set v (Nat.zero_le k) h

theorem FMap.risingFrom_mapKV {m : FMap α} {lo : Nat} (f : Nat → α → β) (h : FMap.risingFrom lo m = true) :
    FMap.risingFrom lo (m.mapKV f) = true := by
  induction m generalizing lo with
  | nil => rfl
  | cons q r ih =>
    simp only [FMap.mapKV, List.map, FMap.risingFrom, Bool.and_eq_true, decide_eq_true_eq] at h ih ⊢
    exact ⟨h.1, ih h.2⟩

theorem FMap.mem_keysWhere {m : FMap α} {p : Nat → α → Bool} {k : Nat} :
    k ∈ m.keysWhere p ↔ ∃ v, (k, v) ∈ m ∧ p k v = true := by
  induction m with
  | nil => simp [FMap.keysWhere]
  | cons q r ih =>
    obtain ⟨a, b⟩ := q
    simp only [FMap.keysWhere]
    by_cases hp : p a b = true
    · rw [if_pos hp]
      simp only [List.mem_cons, Prod.mk.injEq, ih]
      constructor
      · rintro (rfl | ⟨v, hv, hpv⟩)
        · exact ⟨b, .inl ⟨rfl, rfl⟩, hp⟩
        · exact ⟨v, .inr hv, hpv⟩
      · rintro ⟨v, ⟨rfl, rfl⟩ | hv, hpv⟩
        · exact .inl rfl
        · exact .inr ⟨v, hv, hpv⟩
    · rw [if_neg hp, ih]
      simp only [List.mem_cons, Prod.mk.injEq]
      constructor
      · rintro ⟨v, hv, hpv⟩; exact ⟨v, .inr hv, hpv⟩
      · rintro ⟨v, ⟨rfl, rfl⟩ | hv, hpv⟩
        · exact absurd hpv hp
        · exact ⟨v, hv, hpv⟩

end Sys2Proof.Machine
end

