-- ==== Sys2Proof/Laws/Memory.lean ====
section
/-! SUPPORT. The memory laws: a byte written is read back, no other byte changes, and every operation that replaces the cells
keeps the canonical form. -/

namespace Sys2Proof.Machine

theorem Memory.wfFrom_mono {m : List Host.Cell} {a b : Nat} (h : a ≤ b) (hm : Memory.wfFrom b m = true) : Memory.wfFrom a m = true := by
  cases m with
  | nil => rfl
  | cons c r => simp only [Memory.wfFrom, Bool.and_eq_true, decide_eq_true_eq] at hm ⊢; exact ⟨⟨by omega, hm.1.2⟩, hm.2⟩

/-- A byte below the least listed key reads blank. -/
theorem Memory.get_below {m : List Host.Cell} {lo k : Nat} (hm : Memory.wfFrom lo m = true) (h : k < lo) : Memory.get m k = Memory.blank := by
  induction m generalizing lo with
  | nil => rfl
  | cons c r ih =>
    simp only [Memory.wfFrom, Bool.and_eq_true, decide_eq_true_eq] at hm
    rw [Memory.get, if_neg (by omega)]
    exact ih hm.2 (by omega)

theorem Memory.wfFrom_set {m : List Host.Cell} {lo k : Nat} (b : Byte) (hk : lo ≤ k) (h : Memory.wfFrom lo m = true) :
    Memory.wfFrom lo (Memory.set m k b) = true := by
  induction m generalizing lo with
  | nil => by_cases hb : b = Memory.blank <;> simp [Memory.set, Memory.wfFrom, hb, hk]
  | cons c r ih =>
    obtain ⟨k', b'⟩ := c
    simp only [Memory.wfFrom, Bool.and_eq_true, decide_eq_true_eq] at h
    obtain ⟨⟨h1, h2⟩, h3⟩ := h
    unfold Memory.set
    by_cases hb : b = Memory.blank
    · by_cases e : k = k'
      · subst e; simp [hb, Memory.wfFrom_mono (by omega : lo ≤ k + 1) h3]
      · by_cases l : k < k'
        · simp [e, l, hb, Memory.wfFrom, h1, h2, h3]
        · simp only [e, l, if_false, Memory.wfFrom, Bool.and_eq_true, decide_eq_true_eq]
          exact ⟨⟨h1, h2⟩, ih (by omega) h3⟩
    · by_cases e : k = k'
      · subst e; simp [hb, Memory.wfFrom, hk, h3]
      · by_cases l : k < k'
        · simp only [e, l, hb, if_false, if_true, Memory.wfFrom, Bool.and_eq_true, decide_eq_true_eq]
          exact ⟨⟨hk, by simp [hb]⟩, ⟨by omega, h2⟩, h3⟩
        · simp only [e, l, if_false, Memory.wfFrom, Bool.and_eq_true, decide_eq_true_eq]
          exact ⟨⟨h1, h2⟩, ih (by omega) h3⟩

theorem Memory.wf_set {m : List Host.Cell} (k : Nat) (b : Byte) (h : Memory.wf m = true) : Memory.wf (Memory.set m k b) = true :=
  Memory.wfFrom_set b (Nat.zero_le k) h

/-- Reading the byte just written. -/
theorem Memory.get_set_same {m : List Host.Cell} {lo : Nat} (k : Nat) (b : Byte) (h : Memory.wfFrom lo m = true) :
    Memory.get (Memory.set m k b) k = b := by
  induction m generalizing lo with
  | nil => by_cases hb : b = Memory.blank <;> simp [Memory.set, Memory.get, hb]
  | cons c r ih =>
    obtain ⟨k', b'⟩ := c
    simp only [Memory.wfFrom, Bool.and_eq_true, decide_eq_true_eq] at h
    obtain ⟨⟨h1, h2⟩, h3⟩ := h
    unfold Memory.set
    by_cases e : k = k'
    · subst e
      by_cases hb : b = Memory.blank
      · simp [hb, Memory.get_below h3 (by omega : k < k + 1)]
      · simp [hb, Memory.get]
    · by_cases l : k < k'
      · by_cases hb : b = Memory.blank
        · simp [e, l, hb, Memory.get, Memory.get_below h3 (by omega : k < k' + 1)]
        · simp [e, l, hb, Memory.get]
      · simp only [e, l, if_false, Memory.get]
        exact ih h3

/-- Every other byte reads as before; this needs no canonical form. -/
theorem Memory.get_set_other {m : List Host.Cell} {lo : Nat} {k a : Nat} (b : Byte) (h : Memory.wfFrom lo m = true) (ha : a ≠ k) :
    Memory.get (Memory.set m k b) a = Memory.get m a := by
  induction m generalizing lo with
  | nil => by_cases hb : b = Memory.blank <;> simp [Memory.set, Memory.get, hb, ha]
  | cons c r ih =>
    obtain ⟨k', b'⟩ := c
    simp only [Memory.wfFrom, Bool.and_eq_true, decide_eq_true_eq] at h
    unfold Memory.set
    by_cases e : k = k'
    · subst e; by_cases hb : b = Memory.blank <;> simp [hb, Memory.get, ha]
    · by_cases l : k < k'
      · by_cases hb : b = Memory.blank <;> simp [e, l, hb, Memory.get, ha]
      · simp only [e, l, if_false, Memory.get, ih h.2]

theorem Memory.wf_setBytes {m : List Host.Cell} (k : Nat) (bs : List Byte) (h : Memory.wf m = true) :
    Memory.wf (Memory.setBytes m k bs) = true := by
  induction bs generalizing m k with
  | nil => exact h
  | cons b r ih => exact ih (k + 1) (Memory.wf_set k b h)

theorem Memory.wf_setCells {m : List Host.Cell} (cs : List Host.Cell) (h : Memory.wf m = true) : Memory.wf (Memory.setCells m cs) = true := by
  induction cs generalizing m with
  | nil => exact h
  | cons c r ih => exact ih (Memory.wf_set c.1 c.2 h)

/-- Leaving cells out keeps the canonical form. -/
theorem Memory.wfFrom_filter {m : List Host.Cell} {lo : Nat} (p : Host.Cell → Bool) (h : Memory.wfFrom lo m = true) :
    Memory.wfFrom lo (m.filter p) = true := by
  induction m generalizing lo with
  | nil => rfl
  | cons c r ih =>
    simp only [Memory.wfFrom, Bool.and_eq_true, decide_eq_true_eq] at h
    by_cases e : p c = true
    · rw [List.filter_cons_of_pos e]
      simp only [Memory.wfFrom, Bool.and_eq_true, decide_eq_true_eq]
      exact ⟨h.1, ih h.2⟩
    · rw [List.filter_cons_of_neg e]
      exact Memory.wfFrom_mono (by omega) (ih h.2)

theorem wf_markPage {m : List Host.Cell} (dbm : W64) (page : Nat) (h : Memory.wf m = true) : Memory.wf (markPage dbm m page) = true := by
  unfold markPage
  simp only
  split
  · exact Memory.wf_set _ _ h
  · exact h

theorem wf_markPages {m : List Host.Cell} (dbm : W64) (ps : List Nat) (h : Memory.wf m = true) :
    Memory.wf (ps.foldl (markPage dbm) m) = true := by
  induction ps generalizing m with
  | nil => exact h
  | cons p r ih => exact ih (wf_markPage dbm p h)

/-! ## Operations of the machine -/

theorem State.wf_noteDirty (s : State) {m : List Host.Cell} (pa n : Nat) (h : Memory.wf m = true) : Memory.wf (s.noteDirty m pa n) = true := by
  unfold State.noteDirty
  simp only
  generalize (List.range ((pa + n - 1) / 2 ^ 16 - pa / 2 ^ 16 + 1)).map (fun i => pa / 2 ^ 16 + i) = ps
  generalize s.vdevs = vs
  induction vs generalizing m with
  | nil => exact h
  | cons v r ih =>
    rw [List.foldl_cons]
    refine ih ?_
    split
    · exact wf_markPages _ _ h
    · exact h

theorem State.wf_putSlice {s : State} (k : Nat) (bs : List Byte) (h : Memory.wf s.mem = true) : Memory.wf (s.putSlice k bs).mem = true :=
  Memory.wf_setBytes k bs h

theorem State.wf_scrambled {s : State} (l : List (Nat × Nat)) (h : Memory.wf s.mem = true) : Memory.wf (s.scrambled l).mem = true := by
  unfold State.scrambled
  induction l generalizing s with
  | nil => exact h
  | cons p r ih => exact ih (s := { s with mem := _, free := _ }) (Memory.wf_setBytes _ _ h)

theorem State.wf_writeSlice {s : State} (k : Nat) (bs : List Byte) (h : Memory.wf s.mem = true) : Memory.wf (s.writeSlice k bs).mem = true :=
  State.wf_scrambled _ (State.wf_putSlice k bs h)

theorem State.wf_writeHome {s : State} (pa : Nat) (bs : List Byte) (h : Memory.wf s.mem = true) : Memory.wf (s.writeHome pa bs).mem = true := by
  unfold State.writeHome
  by_cases e : bs.isEmpty = true
  · simp [e, h]
  · simp only [e, if_false, Bool.false_eq_true]
    exact State.wf_noteDirty s pa bs.length (Memory.wf_setBytes pa bs h)

theorem State.wf_writeKey {s : State} (k : Nat) (bs : List Byte) (h : Memory.wf s.mem = true) : Memory.wf (s.writeKey k bs).mem = true := by
  unfold State.writeKey
  split
  · exact State.wf_writeSlice k bs h
  · split
    · exact State.wf_writeHome k bs h
    · exact Memory.wf_setBytes k bs h

theorem State.wf_writeQuiet {s : State} (k : Nat) (bs : List Byte) (h : Memory.wf s.mem = true) : Memory.wf (s.writeQuiet k bs).mem = true :=
  Memory.wf_setBytes k bs h

theorem wf_cellsOutside {m : List Host.Cell} (k n : Nat) (h : Memory.wf m = true) : Memory.wf (cellsOutside m k n) = true :=
  Memory.wfFrom_filter _ h

theorem State.wf_zeroSlice {s : State} (k n : Nat) (h : Memory.wf s.mem = true) : Memory.wf (s.zeroSlice k n).mem = true :=
  wf_cellsOutside k n h

theorem State.wf_moveImage {s : State} (k n to_ : Nat) (h : Memory.wf s.mem = true) : Memory.wf (s.moveImage k n to_).mem = true := by
  unfold State.moveImage
  simp only
  have h1 : Memory.wf (Memory.setCells (cellsOutside s.mem to_ n) (cellsMoved s.mem k n to_)) = true :=
    Memory.wf_setCells _ (wf_cellsOutside to_ n h)
  split
  · exact h1
  · have hf : ∀ (t : State) (l : List Nat) (m : List Host.Cell), Memory.wf m = true →
        Memory.wf (l.foldl (fun m i => t.noteDirty m (to_ + i * granuleBytes) granuleBytes) m) = true := by
      intro t l
      induction l with
      | nil => exact fun m hm => hm
      | cons i r ih => exact fun m hm => ih _ (State.wf_noteDirty t _ _ hm)
    exact hf _ _ _ h1

theorem wf_bootMem {m : List Host.Cell} (w : Nat) (h : Memory.wf m = true) : Memory.wf (bootMem m w) = true :=
  Memory.wf_setBytes _ _ (Memory.wf_setBytes _ _ (Memory.wf_setBytes _ _ (Memory.wf_setBytes _ _ h)))

/-- The memory after reset has the canonical form. -/
theorem State.wf_reset : Memory.wf State.reset.mem = true := by rfl

end Sys2Proof.Machine
end

