-- ==== Sys2Proof/Laws/PerInstr.lean ====
section
/-! SUPPORT. Families of statements made instruction by instruction. `WordSize`: the word of an instruction fits 32 bits; an
event has none. -/

namespace Sys2Proof.Laws.WordSize

/-- The encoder's word, where there is one, fits 32 bits (02_encoding R17). -/
def Statement (i : Instr) : Prop := ∀ n, i.enc = some n → n < 2 ^ 32

/-- A word whose opcode byte is below 255 leaves room for the low bits. -/
theorem room {n op : Nat} (h : n / 2 ^ 24 = op) (ho : op < 255) {k : Nat} (hk : k < 2 ^ 24) : n + k < 2 ^ 32 := by omega

theorem whole {n op : Nat} (h : n / 2 ^ 24 = op) (ho : op < 255) : n < 2 ^ 32 := by omega

/-- The words that the table leaves out. -/
theorem unlisted_word (u : Unlisted) : u.enc < 2 ^ 32 := by
  cases u with
  | imad f => have := f.enc_op 0x5; simp only [Unlisted.enc]; omega
  | dsenc f => have := f.enc_op 0x3e; simp only [Unlisted.enc]; omega
  | dsmul f => have := f.enc_op 0x3f; simp only [Unlisted.enc]; omega
  | kinit k pg => have := k.isLt; have := pg.isLt; simp only [Unlisted.enc]; omega
  | kins f => have := f.enc_op 0x41; simp only [Unlisted.enc]; omega
  | kext d a idx e pg => have := d.enc_lt; have := a.enc_lt; have := bitNat_lt idx; have := e.isLt; have := pg.isLt; simp only [Unlisted.enc]; omega
  | mxscl f => have := f.enc_op 0x43; simp only [Unlisted.enc]; omega
  | trap code pg => have := code.isLt; have := pg.isLt; simp only [Unlisted.enc]; omega
  | bkpt code pg => have := code.isLt; have := pg.isLt; simp only [Unlisted.enc]; omega
  | glea f => have := f.enc_op 0x93; simp only [Unlisted.enc]; omega
  | gbfx f => have := f.enc_op 0x94; simp only [Unlisted.enc]; omega
  | acq a sc => have := a.enc_lt; have := sc.enc_lt; simp only [Unlisted.enc]; omega
  | rel a sc => have := a.enc_lt; have := sc.enc_lt; simp only [Unlisted.enc]; omega
  | fence sc => have := sc.enc_lt; simp only [Unlisted.enc]; omega
  | bind f => have := f.enc_op 0xab; simp only [Unlisted.enc]; omega
  | unbind f => have := f.enc_op 0xac; simp only [Unlisted.enc]; omega
  | sgnew d b pin clu => have := d.enc_lt; have := b.enc_lt; have := bitNat_lt pin; have := bitNat_lt clu; simp only [Unlisted.enc]; omega
  | sgname f => have := f.enc_op 0xb2; simp only [Unlisted.enc]; omega
  | sgatt f nr w => have := bitNat_lt nr; have := bitNat_lt w; have := f.enc_op 0xb3; simp only [Unlisted.enc]; omega
  | sgdet a => have := a.enc_lt; simp only [Unlisted.enc]; omega
  | sgdrop f byName => have := bitNat_lt byName; have := f.enc_op 0xb5; simp only [Unlisted.enc]; omega
  | sgstow f => have := f.enc_op 0xb6; simp only [Unlisted.enc]; omega
  | sgstat f n => have := n.isLt; have := f.enc_op 0xb7; simp only [Unlisted.enc]; omega
  | cpyq f => have := f.enc_op 0xbc; simp only [Unlisted.enc]; omega
  | cpyw a b get cb => have := a.enc_lt; have := b.enc_lt; have := bitNat_lt get; have := cb.isLt; simp only [Unlisted.enc]; omega
  | cpyc f all cb => have := bitNat_lt all; have := cb.isLt; have := f.enc_op 0xbe; simp only [Unlisted.enc]; omega
  | cpyst d wt cb => have := d.enc_lt; have := bitNat_lt wt; have := cb.isLt; simp only [Unlisted.enc]; omega
  | tbld t a b => have := t.isLt; have := a.enc_lt; have := b.enc_lt; simp only [Unlisted.enc]; omega
  | tbld4 t a b => have := t.isLt; have := a.enc_lt; have := b.enc_lt; simp only [Unlisted.enc]; omega
  | tchk c t => have := c.isLt; have := t.isLt; simp only [Unlisted.enc]; omega
  | tinv t => have := t.isLt; simp only [Unlisted.enc]; omega
  | tspl t a => have := t.isLt; have := a.enc_lt; simp only [Unlisted.enc]; omega
  | tfil t a => have := t.isLt; have := a.enc_lt; simp only [Unlisted.enc]; omega
  | mloop f => have := f.enc_op 0xc6; simp only [Unlisted.enc]; omega
  | mloop4 f => have := f.enc_op 0xc7; simp only [Unlisted.enc]; omega
  | mstep f => have := f.enc_op 0xc8; simp only [Unlisted.enc]; omega
  | scacc d s b te => have := d.isLt; have := s.isLt; have := b.enc_lt; have := bitNat_lt te; simp only [Unlisted.enc]; omega
  | azero d e => have := d.isLt; have := bitNat_lt e; simp only [Unlisted.enc]; omega
  | asto d a b te => have := d.isLt; have := a.enc_lt; have := b.enc_lt; have := bitNat_lt te; simp only [Unlisted.enc]; omega
  | alda d a b => have := d.isLt; have := a.enc_lt; have := b.enc_lt; simp only [Unlisted.enc]; omega
  | acvt d a b fmt sat te => have := d.isLt; have := a.enc_lt; have := b.enc_lt; have := fmt.isLt; have := bitNat_lt sat; have := bitNat_lt te; simp only [Unlisted.enc]; omega
  | mstat d sel wt => have := d.enc_lt; have := sel.isLt; have := bitNat_lt wt; simp only [Unlisted.enc]; omega
  | wsel a b dp => have := a.enc_lt; have := b.enc_lt; have := bitNat_lt dp; simp only [Unlisted.enc]; omega
  | rrst d a b dp op size => have := d.enc_lt; have := a.enc_lt; have := b.enc_lt; have := bitNat_lt dp; have := op.isLt; have := size.isLt; simp only [Unlisted.enc]; omega
  | sigadd d a b dp loc => have := d.enc_lt; have := a.enc_lt; have := b.enc_lt; have := bitNat_lt dp; have := bitNat_lt loc; simp only [Unlisted.enc]; omega
  | sigwt d a b cond te => have := d.enc_lt; have := a.enc_lt; have := b.enc_lt; have := cond.encSig_lt; have := bitNat_lt te; simp only [Unlisted.enc]; omega
  | rwait d a b te => have := d.enc_lt; have := a.enc_lt; have := b.enc_lt; have := bitNat_lt te; simp only [Unlisted.enc]; omega
  | rfence d team te => have := d.enc_lt; have := bitNat_lt team; have := bitNat_lt te; simp only [Unlisted.enc]; omega
  | rget d a b dp cb => have := d.enc_lt; have := a.enc_lt; have := b.enc_lt; have := bitNat_lt dp; have := cb.isLt; simp only [Unlisted.enc]; omega
  | coord d a sel => have := d.enc_lt; have := a.enc_lt; have := sel.isLt; simp only [Unlisted.enc]; omega
  | cmbcfg f => have := f.enc_op 0xe3; simp only [Unlisted.enc]; omega
  | cmbopen f strict => have := bitNat_lt strict; have := f.enc_op 0xe4; simp only [Unlisted.enc]; omega
  | cmbput f rem => have := bitNat_lt rem; have := f.enc_op 0xe5; simp only [Unlisted.enc]; omega
  | cmbrel f drop => have := bitNat_lt drop; have := f.enc_op 0xe6; simp only [Unlisted.enc]; omega
  | cmbstat f slot n => have := bitNat_lt slot; have := n.isLt; have := f.enc_op 0xe7; simp only [Unlisted.enc]; omega
  | gentag f rem op => have := bitNat_lt rem; have := op.isLt; have := f.enc_op 0xe8; simp only [Unlisted.enc]; omega
  | csrrd d csr => have := d.enc_lt; have := csr.isLt; simp only [Unlisted.enc]; omega
  | csrwr d csr => have := d.enc_lt; have := csr.isLt; simp only [Unlisted.enc]; omega
  | cycle d => have := d.enc_lt; simp only [Unlisted.enc]; omega
  | sleep a => have := a.enc_lt; simp only [Unlisted.enc]; omega
  | gtrap code => have := code.isLt; simp only [Unlisted.enc]; omega
  | rte f => have := f.enc_op 0xf5; simp only [Unlisted.enc]; omega
  | gnop f => have := f.enc_op 0xf6; simp only [Unlisted.enc]; omega
  | teamend a f => have := a.enc_lt; have := f.enc_op 0xf7; simp only [Unlisted.enc]; omega
  | probe f kind => have := kind.isLt; have := f.enc_op 0xf8; simp only [Unlisted.enc]; omega
  | prio f => have := f.enc_op 0xf9; simp only [Unlisted.enc]; omega

theorem iadd (f : LaneBin) : Statement (.iadd f) := by
  rintro _ ⟨⟩; exact whole (f.enc_op 0x0) (by decide)
theorem isub (f : LaneBin) : Statement (.isub f) := by
  rintro _ ⟨⟩; exact whole (f.enc_op 0x1) (by decide)
theorem imul (f : LaneBin) : Statement (.imul f) := by
  rintro _ ⟨⟩; exact whole (f.enc_op 0x2) (by decide)
theorem imulhs (f : LaneBin) : Statement (.imulhs f) := by
  rintro _ ⟨⟩; exact whole (f.enc_op 0x3) (by decide)
theorem imulhu (f : LaneBin) : Statement (.imulhu f) := by
  rintro _ ⟨⟩; exact whole (f.enc_op 0x4) (by decide)
theorem imin (f : LaneBin) : Statement (.imin f) := by
  rintro _ ⟨⟩; exact whole (f.enc_op 0x6) (by decide)
theorem imax (f : LaneBin) : Statement (.imax f) := by
  rintro _ ⟨⟩; exact whole (f.enc_op 0x7) (by decide)
theorem umin (f : LaneBin) : Statement (.umin f) := by
  rintro _ ⟨⟩; exact whole (f.enc_op 0x8) (by decide)
theorem umax (f : LaneBin) : Statement (.umax f) := by
  rintro _ ⟨⟩; exact whole (f.enc_op 0x9) (by decide)
theorem iabs (f : LaneUn) : Statement (.iabs f) := by
  rintro _ ⟨⟩; exact whole (f.enc_op 0xa) (by decide)
theorem andv (f : LaneBin) : Statement (.andv f) := by
  rintro _ ⟨⟩; exact whole (f.enc_op 0xb) (by decide)
theorem orv (f : LaneBin) : Statement (.orv f) := by
  rintro _ ⟨⟩; exact whole (f.enc_op 0xc) (by decide)
theorem xorv (f : LaneBin) : Statement (.xorv f) := by
  rintro _ ⟨⟩; exact whole (f.enc_op 0xd) (by decide)
theorem andn (f : LaneBin) : Statement (.andn f) := by
  rintro _ ⟨⟩; exact whole (f.enc_op 0xe) (by decide)
theorem shl (f : LaneBin) : Statement (.shl f) := by
  rintro _ ⟨⟩; exact whole (f.enc_op 0xf) (by decide)
theorem shr (f : LaneBin) : Statement (.shr f) := by
  rintro _ ⟨⟩; exact whole (f.enc_op 0x10) (by decide)
theorem sar (f : LaneBin) : Statement (.sar f) := by
  rintro _ ⟨⟩; exact whole (f.enc_op 0x11) (by decide)
theorem popc (f : LaneUn) : Statement (.popc f) := by
  rintro _ ⟨⟩; exact whole (f.enc_op 0x12) (by decide)
theorem clz (f : LaneUn) : Statement (.clz f) := by
  rintro _ ⟨⟩; exact whole (f.enc_op 0x13) (by decide)
theorem brev (f : LaneUn) : Statement (.brev f) := by
  rintro _ ⟨⟩; exact whole (f.enc_op 0x14) (by decide)
theorem bfx (f : LaneBin) : Statement (.bfx f) := by
  rintro _ ⟨⟩; exact whole (f.enc_op 0x15) (by decide)
theorem bfi (f : LaneBin) : Statement (.bfi f) := by
  rintro _ ⟨⟩; exact whole (f.enc_op 0x16) (by decide)
theorem icmp (f : LaneICmp) : Statement (.icmp f) := by
  rintro _ ⟨⟩; exact whole (f.enc_op 0x17) (by decide)
theorem ucmp (f : LaneICmp) : Statement (.ucmp f) := by
  rintro _ ⟨⟩; exact whole (f.enc_op 0x18) (by decide)
theorem sel (f : LaneBin) : Statement (.sel f) := by
  rintro _ ⟨⟩; exact whole (f.enc_op 0x19) (by decide)
theorem iaddi (f : LaneImm) : Statement (.iaddi f) := by
  rintro _ ⟨⟩; exact whole (f.enc_op 0x1a) (by decide)
theorem andi (f : LaneImm) : Statement (.andi f) := by
  rintro _ ⟨⟩; exact whole (f.enc_op 0x1b) (by decide)
theorem shli (f : LaneImm) : Statement (.shli f) := by
  rintro _ ⟨⟩; exact whole (f.enc_op 0x1c) (by decide)
theorem shri (f : LaneImm) : Statement (.shri f) := by
  rintro _ ⟨⟩; exact whole (f.enc_op 0x1d) (by decide)
theorem lea (f : LaneLea) : Statement (.lea f) := by
  rintro _ ⟨⟩; exact whole (f.enc_op 0x1e) (by decide)
theorem movi (f : LaneMovi) : Statement (.movi f) := by
  rintro _ ⟨⟩; exact whole (f.enc_op 0x1f) (by decide)
theorem fadd (f : LaneBin) : Statement (.fadd f) := by
  rintro _ ⟨⟩; exact whole (f.enc_op 0x20) (by decide)
theorem fsub (f : LaneBin) : Statement (.fsub f) := by
  rintro _ ⟨⟩; exact whole (f.enc_op 0x21) (by decide)
theorem fmul (f : LaneBin) : Statement (.fmul f) := by
  rintro _ ⟨⟩; exact whole (f.enc_op 0x22) (by decide)
theorem ffma (f : LaneBin) : Statement (.ffma f) := by
  rintro _ ⟨⟩; exact whole (f.enc_op 0x23) (by decide)
theorem fmin (f : LaneBin) : Statement (.fmin f) := by
  rintro _ ⟨⟩; exact whole (f.enc_op 0x24) (by decide)
theorem fmax (f : LaneBin) : Statement (.fmax f) := by
  rintro _ ⟨⟩; exact whole (f.enc_op 0x25) (by decide)
theorem fcmp (f : LaneFCmp) : Statement (.fcmp f) := by
  rintro _ ⟨⟩; exact whole (f.enc_op 0x26) (by decide)
theorem fcls (f : LaneUn) : Statement (.fcls f) := by
  rintro _ ⟨⟩; exact whole (f.enc_op 0x27) (by decide)
theorem frcp (f : LaneUn) : Statement (.frcp f) := by
  rintro _ ⟨⟩; exact whole (f.enc_op 0x28) (by decide)
theorem frsq (f : LaneUn) : Statement (.frsq f) := by
  rintro _ ⟨⟩; exact whole (f.enc_op 0x29) (by decide)
theorem fsqrt (f : LaneUn) : Statement (.fsqrt f) := by
  rintro _ ⟨⟩; exact whole (f.enc_op 0x2a) (by decide)
theorem fexp2 (f : LaneUn) : Statement (.fexp2 f) := by
  rintro _ ⟨⟩; exact whole (f.enc_op 0x2b) (by decide)
theorem flog2 (f : LaneUn) : Statement (.flog2 f) := by
  rintro _ ⟨⟩; exact whole (f.enc_op 0x2c) (by decide)
theorem badd2 (f : LaneBin) : Statement (.badd2 f) := by
  rintro _ ⟨⟩; exact whole (f.enc_op 0x2d) (by decide)
theorem bmul2 (f : LaneBin) : Statement (.bmul2 f) := by
  rintro _ ⟨⟩; exact whole (f.enc_op 0x2e) (by decide)
theorem bfma2 (f : LaneBin) : Statement (.bfma2 f) := by
  rintro _ ⟨⟩; exact whole (f.enc_op 0x2f) (by decide)
theorem bmax2 (f : LaneBin) : Statement (.bmax2 f) := by
  rintro _ ⟨⟩; exact whole (f.enc_op 0x30) (by decide)
theorem hadd2 (f : LaneBin) : Statement (.hadd2 f) := by
  rintro _ ⟨⟩; exact whole (f.enc_op 0x31) (by decide)
theorem hmul2 (f : LaneBin) : Statement (.hmul2 f) := by
  rintro _ ⟨⟩; exact whole (f.enc_op 0x32) (by decide)
theorem hfma2 (f : LaneBin) : Statement (.hfma2 f) := by
  rintro _ ⟨⟩; exact whole (f.enc_op 0x33) (by decide)
theorem cvtif (f : LaneCvt) : Statement (.cvtif f) := by
  rintro _ ⟨⟩; exact whole (f.enc_op 0x34) (by decide)
theorem cvtfi (f : LaneCvt) : Statement (.cvtfi f) := by
  rintro _ ⟨⟩; exact whole (f.enc_op 0x35) (by decide)
theorem cvtfb (f : LaneCvt) : Statement (.cvtfb f) := by
  rintro _ ⟨⟩; exact whole (f.enc_op 0x36) (by decide)
theorem cvtbf (f : LaneCvt) : Statement (.cvtbf f) := by
  rintro _ ⟨⟩; exact whole (f.enc_op 0x37) (by decide)
theorem cvtfh (f : LaneCvt) : Statement (.cvtfh f) := by
  rintro _ ⟨⟩; exact whole (f.enc_op 0x38) (by decide)
theorem cvthf (f : LaneCvt) : Statement (.cvthf f) := by
  rintro _ ⟨⟩; exact whole (f.enc_op 0x39) (by decide)
theorem cvtf8 (f : LaneCvt) : Statement (.cvtf8 f) := by
  rintro _ ⟨⟩; exact whole (f.enc_op 0x3a) (by decide)
theorem cvt8f (f : LaneCvt) : Statement (.cvt8f f) := by
  rintro _ ⟨⟩; exact whole (f.enc_op 0x3b) (by decide)
theorem cvtfn (f : LaneCvt) : Statement (.cvtfn f) := by
  rintro _ ⟨⟩; exact whole (f.enc_op 0x3c) (by decide)
theorem cvtnf (f : LaneCvt) : Statement (.cvtnf f) := by
  rintro _ ⟨⟩; exact whole (f.enc_op 0x3d) (by decide)
theorem shfi (f : LaneColl) : Statement (.shfi f) := by
  rintro _ ⟨⟩; exact whole (f.enc_op 0x44) (by decide)
theorem shfu (f : LaneColl) : Statement (.shfu f) := by
  rintro _ ⟨⟩; exact whole (f.enc_op 0x45) (by decide)
theorem shfd (f : LaneColl) : Statement (.shfd f) := by
  rintro _ ⟨⟩; exact whole (f.enc_op 0x46) (by decide)
theorem shfx (f : LaneColl) : Statement (.shfx f) := by
  rintro _ ⟨⟩; exact whole (f.enc_op 0x47) (by decide)
theorem vote (f : LaneVote) : Statement (.vote f) := by
  rintro _ ⟨⟩; exact whole (f.enc_op 0x48) (by decide)
theorem ballot (f : LaneBallot) : Statement (.ballot f) := by
  rintro _ ⟨⟩; exact whole (f.enc_op 0x49) (by decide)
theorem gred (f : LaneGred) : Statement (.gred f) := by
  rintro _ ⟨⟩; exact whole (f.enc_op 0x4a) (by decide)
theorem matchv (f : LaneColl) : Statement (.matchv f) := by
  rintro _ ⟨⟩; exact whole (f.enc_op 0x4b) (by decide)
theorem mkemp (f : LaneOne) : Statement (.mkemp f) := by
  rintro _ ⟨⟩; exact whole (f.enc_op 0x4c) (by decide)
theorem mkful (f : LaneOne) : Statement (.mkful f) := by
  rintro _ ⟨⟩; exact whole (f.enc_op 0x4d) (by decide)
theorem pmovPack (f : LaneOne) : Statement (.pmovPack f) := by
  rintro _ ⟨⟩; exact whole (f.enc_op 0x4e) (by decide)
theorem pmovUnpack (f : LaneSrc) : Statement (.pmovUnpack f) := by
  rintro _ ⟨⟩; exact room (k := 1) (f.enc_op 0x4e) (by decide) (by decide)
theorem getid (f : LaneGetid) : Statement (.getid f) := by
  rintro _ ⟨⟩; exact whole (f.enc_op 0x4f) (by decide)
theorem ld8 (f : LaneMem) : Statement (.ld8 f) := by
  rintro _ ⟨⟩; exact whole (f.enc_op 0x50) (by decide)
theorem ld16 (f : LaneMem) : Statement (.ld16 f) := by
  rintro _ ⟨⟩; exact whole (f.enc_op 0x51) (by decide)
theorem ld32 (f : LaneMem) : Statement (.ld32 f) := by
  rintro _ ⟨⟩; exact whole (f.enc_op 0x52) (by decide)
theorem ld64 (f : LaneMem) : Statement (.ld64 f) := by
  rintro _ ⟨⟩; exact whole (f.enc_op 0x53) (by decide)
theorem ld128 (f : LaneMem) : Statement (.ld128 f) := by
  rintro _ ⟨⟩; exact whole (f.enc_op 0x54) (by decide)
theorem st8 (f : LaneMem) : Statement (.st8 f) := by
  rintro _ ⟨⟩; exact whole (f.enc_op 0x55) (by decide)
theorem st16 (f : LaneMem) : Statement (.st16 f) := by
  rintro _ ⟨⟩; exact whole (f.enc_op 0x56) (by decide)
theorem st32 (f : LaneMem) : Statement (.st32 f) := by
  rintro _ ⟨⟩; exact whole (f.enc_op 0x57) (by decide)
theorem st64 (f : LaneMem) : Statement (.st64 f) := by
  rintro _ ⟨⟩; exact whole (f.enc_op 0x58) (by decide)
theorem st128 (f : LaneMem) : Statement (.st128 f) := by
  rintro _ ⟨⟩; exact whole (f.enc_op 0x59) (by decide)
theorem ldx (f : LaneMemIdx) : Statement (.ldx f) := by
  rintro _ ⟨⟩; exact whole (f.enc_op 0x5a) (by decide)
theorem stx (f : LaneMemIdx) : Statement (.stx f) := by
  rintro _ ⟨⟩; exact whole (f.enc_op 0x5b) (by decide)
theorem aadd (f : LaneMemIdx) : Statement (.aadd f) := by
  rintro _ ⟨⟩; exact whole (f.enc_op 0x5c) (by decide)
theorem amin (f : LaneMemIdx) : Statement (.amin f) := by
  rintro _ ⟨⟩; exact whole (f.enc_op 0x5d) (by decide)
theorem amax (f : LaneMemIdx) : Statement (.amax f) := by
  rintro _ ⟨⟩; exact whole (f.enc_op 0x5e) (by decide)
theorem aumin (f : LaneMemIdx) : Statement (.aumin f) := by
  rintro _ ⟨⟩; exact whole (f.enc_op 0x5f) (by decide)
theorem aumax (f : LaneMemIdx) : Statement (.aumax f) := by
  rintro _ ⟨⟩; exact whole (f.enc_op 0x60) (by decide)
theorem aand (f : LaneMemIdx) : Statement (.aand f) := by
  rintro _ ⟨⟩; exact whole (f.enc_op 0x61) (by decide)
theorem aor (f : LaneMemIdx) : Statement (.aor f) := by
  rintro _ ⟨⟩; exact whole (f.enc_op 0x62) (by decide)
theorem axor (f : LaneMemIdx) : Statement (.axor f) := by
  rintro _ ⟨⟩; exact whole (f.enc_op 0x63) (by decide)
theorem axch (f : LaneMemIdx) : Statement (.axch f) := by
  rintro _ ⟨⟩; exact whole (f.enc_op 0x64) (by decide)
theorem acas (f : LaneMemIdx) : Statement (.acas f) := by
  rintro _ ⟨⟩; exact whole (f.enc_op 0x65) (by decide)
theorem afadd (f : LaneMemIdx) : Statement (.afadd f) := by
  rintro _ ⟨⟩; exact whole (f.enc_op 0x66) (by decide)
theorem pref (f : LanePref) : Statement (.pref f) := by
  rintro _ ⟨⟩; exact whole (f.enc_op 0x67) (by decide)
theorem rld32 (f : LaneRemote) : Statement (.rld32 f) := by
  rintro _ ⟨⟩; exact room (k := 48) (f.enc_op 0x68) (by decide) (by decide)
theorem rld64 (f : LaneRemote) : Statement (.rld64 f) := by
  rintro _ ⟨⟩; exact room (k := 48) (f.enc_op 0x69) (by decide) (by decide)
theorem rst32 (f : LaneRemote) : Statement (.rst32 f) := by
  rintro _ ⟨⟩; exact room (k := 48) (f.enc_op 0x6a) (by decide) (by decide)
theorem rst64 (f : LaneRemote) : Statement (.rst64 f) := by
  rintro _ ⟨⟩; exact room (k := 48) (f.enc_op 0x6b) (by decide) (by decide)
theorem ratom (f : LaneRatom) : Statement (.ratom f) := by
  rintro _ ⟨⟩; exact whole (f.enc_op 0x6c) (by decide)
theorem br (f : LaneBr) : Statement (.br f) := by
  rintro _ ⟨⟩; exact whole (f.enc_op 0x70) (by decide)
theorem brx (f : LaneSrc) : Statement (.brx f) := by
  rintro _ ⟨⟩; exact whole (f.enc_op 0x71) (by decide)
theorem call (f : LaneBr) : Statement (.call f) := by
  rintro _ ⟨⟩; exact whole (f.enc_op 0x72) (by decide)
theorem ret (f : LaneGuard) : Statement (.ret f) := by
  rintro _ ⟨⟩; exact whole (f.enc_op 0x73) (by decide)
theorem exitv (f : LaneExit) : Statement (.exitv f) := by
  rintro _ ⟨⟩; exact whole (f.enc_op 0x74) (by decide)
theorem barv (f : LaneBar) : Statement (.barv f) := by
  rintro _ ⟨⟩; exact whole (f.enc_op 0x75) (by decide)
theorem regn (n : BitVec 9) : Statement (.regn n) := by
  rintro _ ⟨⟩; have := n.isLt; omega
theorem spawn (f : LaneSpawn) : Statement (.spawn f) := by
  rintro _ ⟨⟩; exact whole (f.enc_op 0x77) (by decide)
theorem yield (f : LaneGuard) : Statement (.yield f) := by
  rintro _ ⟨⟩; exact whole (f.enc_op 0x78) (by decide)
theorem nop (f : LaneGuard) : Statement (.nop f) := by
  rintro _ ⟨⟩; exact whole (f.enc_op 0x79) (by decide)
theorem waite (f : LaneOne) : Statement (.waite f) := by
  rintro _ ⟨⟩; exact whole (f.enc_op 0x7c) (by decide)
theorem gadd (f : GrpBin) : Statement (.gadd f) := by
  rintro _ ⟨⟩; exact whole (f.enc_op 0x80) (by decide)
theorem gsub (f : GrpBin) : Statement (.gsub f) := by
  rintro _ ⟨⟩; exact whole (f.enc_op 0x81) (by decide)
theorem gmul (f : GrpBin) : Statement (.gmul f) := by
  rintro _ ⟨⟩; exact whole (f.enc_op 0x82) (by decide)
theorem gmad (f : GrpBin) : Statement (.gmad f) := by
  rintro _ ⟨⟩; exact whole (f.enc_op 0x83) (by decide)
theorem gmin (f : GrpBin) : Statement (.gmin f) := by
  rintro _ ⟨⟩; exact whole (f.enc_op 0x84) (by decide)
theorem gmax (f : GrpBin) : Statement (.gmax f) := by
  rintro _ ⟨⟩; exact whole (f.enc_op 0x85) (by decide)
theorem gand (f : GrpBin) : Statement (.gand f) := by
  rintro _ ⟨⟩; exact whole (f.enc_op 0x86) (by decide)
theorem gor (f : GrpBin) : Statement (.gor f) := by
  rintro _ ⟨⟩; exact whole (f.enc_op 0x87) (by decide)
theorem gxor (f : GrpBin) : Statement (.gxor f) := by
  rintro _ ⟨⟩; exact whole (f.enc_op 0x88) (by decide)
theorem gshl (f : GrpBin) : Statement (.gshl f) := by
  rintro _ ⟨⟩; exact whole (f.enc_op 0x89) (by decide)
theorem gshr (f : GrpBin) : Statement (.gshr f) := by
  rintro _ ⟨⟩; exact whole (f.enc_op 0x8a) (by decide)
theorem gsar (f : GrpBin) : Statement (.gsar f) := by
  rintro _ ⟨⟩; exact whole (f.enc_op 0x8b) (by decide)
theorem gcmp (f : GrpCmp) : Statement (.gcmp f) := by
  rintro _ ⟨⟩; exact whole (f.enc_op 0x8c) (by decide)
theorem gsel (f : GrpBin) : Statement (.gsel f) := by
  rintro _ ⟨⟩; exact whole (f.enc_op 0x8d) (by decide)
theorem gpopc (f : GrpUn) : Statement (.gpopc f) := by
  rintro _ ⟨⟩; exact whole (f.enc_op 0x8e) (by decide)
theorem gclz (f : GrpUn) : Statement (.gclz f) := by
  rintro _ ⟨⟩; exact whole (f.enc_op 0x8f) (by decide)
theorem gaddi (f : GrpImm) : Statement (.gaddi f) := by
  rintro _ ⟨⟩; exact whole (f.enc_op 0x90) (by decide)
theorem gmovi (f : GrpImm) : Statement (.gmovi f) := by
  rintro _ ⟨⟩; exact whole (f.enc_op 0x91) (by decide)
theorem gmovh (f : GrpImm) : Statement (.gmovh f) := by
  rintro _ ⟨⟩; exact whole (f.enc_op 0x92) (by decide)
theorem gmulh (f : GrpBin) : Statement (.gmulh f) := by
  rintro _ ⟨⟩; exact whole (f.enc_op 0x95) (by decide)
theorem gdivu (f : GrpBin) : Statement (.gdivu f) := by
  rintro _ ⟨⟩; exact whole (f.enc_op 0x96) (by decide)
theorem gremu (f : GrpBin) : Statement (.gremu f) := by
  rintro _ ⟨⟩; exact whole (f.enc_op 0x97) (by decide)
theorem gbr (f : GrpBr) : Statement (.gbr f) := by
  rintro _ ⟨⟩; exact whole (f.enc_op 0x98) (by decide)
theorem gloop (f : GrpImm) : Statement (.gloop f) := by
  rintro _ ⟨⟩; exact whole (f.enc_op 0x99) (by decide)
theorem gcall (f : GrpBr) : Statement (.gcall f) := by
  rintro _ ⟨⟩; exact whole (f.enc_op 0x9a) (by decide)
theorem gret (f : GrpGuard) : Statement (.gret f) := by
  rintro _ ⟨⟩; exact whole (f.enc_op 0x9b) (by decide)
theorem qput (f : GrpUn) : Statement (.qput f) := by
  rintro _ ⟨⟩; exact whole (f.enc_op 0x9c) (by decide)
theorem qget (f : GrpUn) : Statement (.qget f) := by
  rintro _ ⟨⟩; exact whole (f.enc_op 0x9d) (by decide)
theorem qclose (f : GrpQclose) : Statement (.qclose f) := by
  rintro _ ⟨⟩; exact whole (f.enc_op 0x9e) (by decide)
theorem qstat (f : GrpQstat) : Statement (.qstat f) := by
  rintro _ ⟨⟩; exact whole (f.enc_op 0x9f) (by decide)
theorem gld32 (f : GrpMem) : Statement (.gld32 f) := by
  rintro _ ⟨⟩; exact whole (f.enc_op 0xa0) (by decide)
theorem gld64 (f : GrpMem) : Statement (.gld64 f) := by
  rintro _ ⟨⟩; exact whole (f.enc_op 0xa1) (by decide)
theorem gst32 (f : GrpMem) : Statement (.gst32 f) := by
  rintro _ ⟨⟩; exact whole (f.enc_op 0xa2) (by decide)
theorem gst64 (f : GrpMem) : Statement (.gst64 f) := by
  rintro _ ⟨⟩; exact whole (f.enc_op 0xa3) (by decide)
theorem gatom (f : GrpAtom) : Statement (.gatom f) := by
  rintro _ ⟨⟩; exact whole (f.enc_op 0xa4) (by decide)
theorem agen (f : GrpAgen) : Statement (.agen f) := by
  rintro _ ⟨⟩; exact whole (f.enc_op 0xa5) (by decide)
theorem agenx (f : GrpAgen) : Statement (.agenx f) := by
  rintro _ ⟨⟩; exact whole (f.enc_op 0xa6) (by decide)
theorem gpref (f : GrpTwo) : Statement (.gpref f) := by
  rintro _ ⟨⟩; exact whole (f.enc_op 0xa7) (by decide)
theorem cbinit (f : GrpCbinit) : Statement (.cbinit f) := by
  rintro _ ⟨⟩; exact whole (f.enc_op 0xad) (by decide)
theorem cbarv (f : GrpCbarv) : Statement (.cbarv f) := by
  rintro _ ⟨⟩; exact whole (f.enc_op 0xae) (by decide)
theorem cbwait (f : GrpCbwait) : Statement (.cbwait f) := by
  rintro _ ⟨⟩; exact whole (f.enc_op 0xaf) (by decide)
theorem cbtest (f : GrpCbtest) : Statement (.cbtest f) := by
  rintro _ ⟨⟩; exact whole (f.enc_op 0xb0) (by decide)
theorem cpy (f : GrpCpy) : Statement (.cpy f) := by
  rintro _ ⟨⟩; exact whole (f.enc_op 0xb8) (by decide)
theorem cpys (f : GrpCpy) : Statement (.cpys f) := by
  rintro _ ⟨⟩; exact whole (f.enc_op 0xb9) (by decide)
theorem cpyg (f : GrpCpy) : Statement (.cpyg f) := by
  rintro _ ⟨⟩; exact whole (f.enc_op 0xba) (by decide)
theorem cpyx (f : GrpCpy) : Statement (.cpyx f) := by
  rintro _ ⟨⟩; exact whole (f.enc_op 0xbb) (by decide)
theorem rgld (f : GrpRemote) : Statement (.rgld f) := by
  rintro _ ⟨⟩; exact whole (f.enc_op 0xd1) (by decide)
theorem rgst (f : GrpRemote) : Statement (.rgst f) := by
  rintro _ ⟨⟩; exact whole (f.enc_op 0xd2) (by decide)
theorem rmst (f : GrpRemote) : Statement (.rmst f) := by
  rintro _ ⟨⟩; exact whole (f.enc_op 0xd3) (by decide)
theorem rgatm (f : GrpRgatm) : Statement (.rgatm f) := by
  rintro _ ⟨⟩; exact whole (f.enc_op 0xd5) (by decide)
theorem binsetFlush (f : GrpThree) : Statement (.binsetFlush f) := by
  rintro _ ⟨⟩; exact whole (f.enc_op 0xe0) (by decide)
theorem binsetClose (f : GrpDA) : Statement (.binsetClose f) := by
  rintro _ ⟨⟩; exact room (k := 1) (f.enc_op 0xe0) (by decide) (by decide)
theorem binsetOpen (f : GrpDA) : Statement (.binsetOpen f) := by
  rintro _ ⟨⟩; exact room (k := 2) (f.enc_op 0xe0) (by decide) (by decide)
theorem spawngLoc (f : GrpSpawnLoc) : Statement (.spawngLoc f) := by
  rintro _ ⟨⟩; exact room (k := 16) (f.enc_op 0xe1) (by decide) (by decide)
theorem spawngRemote (f : GrpSpawnRem) : Statement (.spawngRemote f) := by
  rintro _ ⟨⟩; exact whole (f.enc_op 0xe1) (by decide)
theorem binfl (f : GrpBinfl) : Statement (.binfl f) := by
  rintro _ ⟨⟩; exact whole (f.enc_op 0xe2) (by decide)
theorem longLatencyComplete (g op : Nat) (mask : BitVec 32) : Statement (.longLatencyComplete g op mask) := fun _ h => nomatch h
theorem qgetFill : Statement .qgetFill := fun _ h => nomatch h
theorem statusWaitFill : Statement .statusWaitFill := fun _ h => nomatch h
theorem barrierWaitEnd : Statement .barrierWaitEnd := fun _ h => nomatch h
theorem missedPromise : Statement .missedPromise := fun _ h => nomatch h
theorem collectiveFormation : Statement .collectiveFormation := fun _ h => nomatch h
theorem regnPerform : Statement .regnPerform := fun _ h => nomatch h
theorem ageCap : Statement .ageCap := fun _ h => nomatch h
theorem copyClaimGrant : Statement .copyClaimGrant := fun _ h => nomatch h
theorem copyCommandStart : Statement .copyCommandStart := fun _ h => nomatch h
theorem copyUnitRelease : Statement .copyUnitRelease := fun _ h => nomatch h
theorem copyCommandComplete : Statement .copyCommandComplete := fun _ h => nomatch h
theorem stowComplete : Statement .stowComplete := fun _ h => nomatch h
theorem restoreComplete : Statement .restoreComplete := fun _ h => nomatch h
theorem binRingAllocation : Statement .binRingAllocation := fun _ h => nomatch h
theorem binFlushTimerExpiry : Statement .binFlushTimerExpiry := fun _ h => nomatch h
theorem spawnGroupLaunch : Statement .spawnGroupLaunch := fun _ h => nomatch h
theorem combineDeadline : Statement .combineDeadline := fun _ h => nomatch h
theorem teamPlacement : Statement .teamPlacement := fun _ h => nomatch h
theorem residencyHoldExpiry : Statement .residencyHoldExpiry := fun _ h => nomatch h
theorem victimWaitExpiry : Statement .victimWaitExpiry := fun _ h => nomatch h
theorem drainBudgetExpiry : Statement .drainBudgetExpiry := fun _ h => nomatch h
theorem saveEnd : Statement .saveEnd := fun _ h => nomatch h
theorem teamEnd : Statement .teamEnd := fun _ h => nomatch h
theorem l1Eviction : Statement .l1Eviction := fun _ h => nomatch h
theorem pageWalkComplete : Statement .pageWalkComplete := fun _ h => nomatch h
theorem xlateInvCtlWrite (vd : Nat) (val : BitVec 64) : Statement (.xlateInvCtlWrite vd val) := fun _ h => nomatch h
theorem xlateRootWrite (vd : Nat) (val : BitVec 64) : Statement (.xlateRootWrite vd val) := fun _ h => nomatch h
theorem xlateKeysWrite (vd : Nat) (val : BitVec 64) : Statement (.xlateKeysWrite vd val) := fun _ h => nomatch h
theorem invalidationComplete : Statement .invalidationComplete := fun _ h => nomatch h
theorem fabWtabWrite (vd : Nat) (val : BitVec 64) : Statement (.fabWtabWrite vd val) := fun _ h => nomatch h
theorem fabItabWrite (vd : Nat) (val : BitVec 64) : Statement (.fabItabWrite vd val) := fun _ h => nomatch h
theorem evbaseWrite (vd : Nat) (val : BitVec 64) : Statement (.evbaseWrite vd val) := fun _ h => nomatch h
theorem evctlWrite (vd : Nat) (val : BitVec 64) : Statement (.evctlWrite vd val) := fun _ h => nomatch h
theorem caplenWrite (vd : Nat) (val : BitVec 64) : Statement (.caplenWrite vd val) := fun _ h => nomatch h
theorem dbdataRead : Statement .dbdataRead := fun _ h => nomatch h
theorem tfcmdResume (vd : Nat) (val : BitVec 64) : Statement (.tfcmdResume vd val) := fun _ h => nomatch h
theorem tfcmdAbort (vd : Nat) (val : BitVec 64) : Statement (.tfcmdAbort vd val) := fun _ h => nomatch h
theorem runStop : Statement .runStop := fun _ h => nomatch h
theorem stopComplete : Statement .stopComplete := fun _ h => nomatch h
theorem runResume : Statement .runResume := fun _ h => nomatch h
theorem qctlReset (vd q : Nat) (val : BitVec 64) : Statement (.qctlReset vd q val) := fun _ h => nomatch h
theorem qctlAck (vd q : Nat) (val : BitVec 64) : Statement (.qctlAck vd q val) := fun _ h => nomatch h
theorem qctlEnable (vd q : Nat) (val : BitVec 64) : Statement (.qctlEnable vd q val) := fun _ h => nomatch h
theorem qctlDisable (vd q : Nat) (val : BitVec 64) : Statement (.qctlDisable vd q val) := fun _ h => nomatch h
theorem registerWrite (vd offset : Nat) (val : BitVec 64) : Statement (.registerWrite vd offset val) := fun _ h => nomatch h
theorem writeIndexStore (vd q : Nat) (val : BitVec 64) : Statement (.writeIndexStore vd q val) := fun _ h => nomatch h
theorem packetAccept : Statement .packetAccept := fun _ h => nomatch h
theorem launch : Statement .launch := fun _ h => nomatch h
theorem barrier : Statement .barrier := fun _ h => nomatch h
theorem barrierResolve : Statement .barrierResolve := fun _ h => nomatch h
theorem abortedPacketRetire : Statement .abortedPacketRetire := fun _ h => nomatch h
theorem signalAdd : Statement .signalAdd := fun _ h => nomatch h
theorem signalSet : Statement .signalSet := fun _ h => nomatch h
theorem segmentStow : Statement .segmentStow := fun _ h => nomatch h
theorem segmentDrop : Statement .segmentDrop := fun _ h => nomatch h
theorem segmentPin : Statement .segmentPin := fun _ h => nomatch h
theorem segmentUnpin : Statement .segmentUnpin := fun _ h => nomatch h
theorem marker : Statement .marker := fun _ h => nomatch h
theorem bufferedEventPost : Statement .bufferedEventPost := fun _ h => nomatch h
theorem heartbeat : Statement .heartbeat := fun _ h => nomatch h
theorem standbyTakeover : Statement .standbyTakeover := fun _ h => nomatch h
theorem fabricRead (vd : Nat) (r : FabReq) : Statement (.fabricRead vd r) := fun _ h => nomatch h
theorem fabricWrite (vd : Nat) (r : FabReq) : Statement (.fabricWrite vd r) := fun _ h => nomatch h
theorem fabricMulticastWrite (vd : Nat) (r : FabReq) : Statement (.fabricMulticastWrite vd r) := fun _ h => nomatch h
theorem fabricReduction (vd : Nat) (at_ : GathKey) : Statement (.fabricReduction vd at_) := fun _ h => nomatch h
theorem fabricAtomic (vd : Nat) (r : FabReq) : Statement (.fabricAtomic vd r) := fun _ h => nomatch h
theorem fabricSignalAdd (vd : Nat) (r : FabReq) : Statement (.fabricSignalAdd vd r) := fun _ h => nomatch h
theorem fabricSpawnRecord (vd : Nat) (r : FabReq) : Statement (.fabricSpawnRecord vd r) := fun _ h => nomatch h
theorem fabricBulkWrite (vd : Nat) (r : FabReq) : Statement (.fabricBulkWrite vd r) := fun _ h => nomatch h
theorem readData (tag : BitVec 16) (data : List Byte) : Statement (.readData tag data) := fun _ h => nomatch h
theorem acknowledgement (tag : BitVec 16) : Statement (.acknowledgement tag) := fun _ h => nomatch h
theorem errorReply (tag : BitVec 16) (cause : BitVec 8) : Statement (.errorReply tag cause) := fun _ h => nomatch h
theorem linkPause (port : Fin 16) (vc : Fin 6) : Statement (.linkPause port vc) := fun _ h => nomatch h
theorem linkResume (port : Fin 16) (vc : Fin 6) : Statement (.linkResume port vc) := fun _ h => nomatch h
theorem requestTimeout : Statement .requestTimeout := fun _ h => nomatch h
theorem slotQuarantineEnd : Statement .slotQuarantineEnd := fun _ h => nomatch h
theorem packetLifeExpiry : Statement .packetLifeExpiry := fun _ h => nomatch h
theorem gatheringContribution (m : GathMsg) : Statement (.gatheringContribution m) := fun _ h => nomatch h
theorem reductionTimerExpiry (vd : Nat) (at_ : GathKey) : Statement (.reductionTimerExpiry vd at_) := fun _ h => nomatch h
theorem containment (grid : BitVec 16) (member : Nat) : Statement (.containment grid member) := fun _ h => nomatch h
theorem portServiceChange (port : Fin 16) (up : Bool) : Statement (.portServiceChange port up) := fun _ h => nomatch h
theorem portFold (port : Fin 16) (banks : Nat) : Statement (.portFold port banks) := fun _ h => nomatch h
theorem fabricLaneSwap (port : Fin 16) : Statement (.fabricLaneSwap port) := fun _ h => nomatch h
theorem hostCxlMemRead : Statement .hostCxlMemRead := fun _ h => nomatch h
theorem hostCxlMemWrite (addr : Nat) (data : List Byte) : Statement (.hostCxlMemWrite addr data) := fun _ h => nomatch h
theorem correctedError (mem : MemKind) (addr : Nat) : Statement (.correctedError mem addr) := fun _ h => nomatch h
theorem patrolScrub (mem : MemKind) : Statement (.patrolScrub mem) := fun _ h => nomatch h
theorem sramRowRepair : Statement .sramRowRepair := fun _ h => nomatch h
theorem channelSparing : Statement .channelSparing := fun _ h => nomatch h
theorem spareCoreSubstitution : Statement .spareCoreSubstitution := fun _ h => nomatch h
theorem moduleReplacement : Statement .moduleReplacement := fun _ h => nomatch h
theorem powerGoodBoot : Statement .powerGoodBoot := fun _ h => nomatch h
theorem cxlHotReset : Statement .cxlHotReset := fun _ h => nomatch h
theorem vfFunctionLevelReset : Statement .vfFunctionLevelReset := fun _ h => nomatch h
theorem firmwareUpdate (version : Nat) (signed : Bool) : Statement (.firmwareUpdate version signed) := fun _ h => nomatch h
theorem sensorSample (r : SensorReading) : Statement (.sensorSample r) := fun _ h => nomatch h
theorem illegalOpcodeWord (w : BitVec 32) : Statement (.illegalOpcodeWord w) := fun _ h => nomatch h
theorem containmentCleared (grid : BitVec 16) (member : Nat) : Statement (.containmentCleared grid member) := fun _ h => nomatch h
theorem reattestation (port : Fin 16) : Statement (.reattestation port) := fun _ h => nomatch h
theorem spdmRequest (r : SpdmReq) : Statement (.spdmRequest r) := fun _ h => nomatch h
theorem platformMonitoringAndControl (m : PldmMsg) : Statement (.platformMonitoringAndControl m) := fun _ h => nomatch h
theorem virtualDeviceCreation (vd : Nat) (clusters : List Nat) (journalMiB stowPa stowLen : Nat) : Statement (.virtualDeviceCreation vd clusters journalMiB stowPa stowLen) := fun _ h => nomatch h
theorem virtualDeviceDestruction : Statement .virtualDeviceDestruction := fun _ h => nomatch h
theorem coreLostToUncorrectableFault : Statement .coreLostToUncorrectableFault := fun _ h => nomatch h
theorem heldSpawnRecordTimeout : Statement .heldSpawnRecordTimeout := fun _ h => nomatch h
theorem unlisted (u : Unlisted) : Statement (.unlisted u) := by
  rintro _ ⟨⟩; exact unlisted_word u

end Sys2Proof.Laws.WordSize
end

