-- ==== Sys2Proof/Laws/State.lean ====
section
/-! SUPPORT. What every named update of the state leaves alone: one lemma for each field of State and each update, and what
reading a part gives after writing one. -/

namespace Sys2Proof.Machine

/-! ## setGroup -/

@[simp] theorem State.mem_setGroup (s : State) (k : Nat) (g : Group) : (s.setGroup k g).mem = s.mem := rfl
@[simp] theorem State.poison_setGroup (s : State) (k : Nat) (g : Group) : (s.setGroup k g).poison = s.poison := rfl
@[simp] theorem State.teams_setGroup (s : State) (k : Nat) (g : Group) : (s.setGroup k g).teams = s.teams := rfl
@[simp] theorem State.cores_setGroup (s : State) (k : Nat) (g : Group) : (s.setGroup k g).cores = s.cores := rfl
@[simp] theorem State.clusters_setGroup (s : State) (k : Nat) (g : Group) : (s.setGroup k g).clusters = s.clusters := rfl
@[simp] theorem State.vdevs_setGroup (s : State) (k : Nat) (g : Group) : (s.setGroup k g).vdevs = s.vdevs := rfl
@[simp] theorem State.launches_setGroup (s : State) (k : Nat) (g : Group) : (s.setGroup k g).launches = s.launches := rfl
@[simp] theorem State.granules_setGroup (s : State) (k : Nat) (g : Group) : (s.setGroup k g).granules = s.granules := rfl
@[simp] theorem State.gens_setGroup (s : State) (k : Nat) (g : Group) : (s.setGroup k g).gens = s.gens := rfl
@[simp] theorem State.copies_setGroup (s : State) (k : Nat) (g : Group) : (s.setGroup k g).copies = s.copies := rfl
@[simp] theorem State.claims_setGroup (s : State) (k : Nat) (g : Group) : (s.setGroup k g).claims = s.claims := rfl
@[simp] theorem State.pointers_setGroup (s : State) (k : Nat) (g : Group) : (s.setGroup k g).pointers = s.pointers := rfl
@[simp] theorem State.walks_setGroup (s : State) (k : Nat) (g : Group) : (s.setGroup k g).walks = s.walks := rfl
@[simp] theorem State.ports_setGroup (s : State) (k : Nat) (g : Group) : (s.setGroup k g).ports = s.ports := rfl
@[simp] theorem State.slots_setGroup (s : State) (k : Nat) (g : Group) : (s.setGroup k g).slots = s.slots := rfl
@[simp] theorem State.sent_setGroup (s : State) (k : Nat) (g : Group) : (s.setGroup k g).sent = s.sent := rfl
@[simp] theorem State.outbox_setGroup (s : State) (k : Nat) (g : Group) : (s.setGroup k g).outbox = s.outbox := rfl
@[simp] theorem State.gatherings_setGroup (s : State) (k : Nat) (g : Group) : (s.setGroup k g).gatherings = s.gatherings := rfl
@[simp] theorem State.contained_setGroup (s : State) (k : Nat) (g : Group) : (s.setGroup k g).contained = s.contained := rfl
@[simp] theorem State.arrivals_setGroup (s : State) (k : Nat) (g : Group) : (s.setGroup k g).arrivals = s.arrivals := rfl
@[simp] theorem State.platform_setGroup (s : State) (k : Nat) (g : Group) : (s.setGroup k g).platform = s.platform := rfl
@[simp] theorem State.launchSeq_setGroup (s : State) (k : Nat) (g : Group) : (s.setGroup k g).launchSeq = s.launchSeq := rfl
@[simp] theorem State.now_setGroup (s : State) (k : Nat) (g : Group) : (s.setGroup k g).now = s.now := rfl
@[simp] theorem State.cpNow_setGroup (s : State) (k : Nat) (g : Group) : (s.setGroup k g).cpNow = s.cpNow := rfl
@[simp] theorem State.portNow_setGroup (s : State) (k : Nat) (g : Group) : (s.setGroup k g).portNow = s.portNow := rfl
@[simp] theorem State.cur_setGroup (s : State) (k : Nat) (g : Group) : (s.setGroup k g).cur = s.cur := rfl
@[simp] theorem State.on_setGroup (s : State) (k : Nat) (g : Group) : (s.setGroup k g).on = s.on := rfl
@[simp] theorem State.agenda_setGroup (s : State) (k : Nat) (g : Group) : (s.setGroup k g).agenda = s.agenda := rfl
@[simp] theorem State.stalled_setGroup (s : State) (k : Nat) (g : Group) : (s.setGroup k g).stalled = s.stalled := rfl
@[simp] theorem State.steps_setGroup (s : State) (k : Nat) (g : Group) : (s.setGroup k g).steps = s.steps := rfl
@[simp] theorem State.free_setGroup (s : State) (k : Nat) (g : Group) : (s.setGroup k g).free = s.free := rfl
@[simp] theorem State.fired_setGroup (s : State) (k : Nat) (g : Group) : (s.setGroup k g).fired = s.fired := rfl
@[simp] theorem State.sends_setGroup (s : State) (k : Nat) (g : Group) : (s.setGroup k g).sends = s.sends := rfl
@[simp] theorem State.made_setGroup (s : State) (k : Nat) (g : Group) : (s.setGroup k g).made = s.made := rfl
@[simp] theorem State.hostReply_setGroup (s : State) (k : Nat) (g : Group) : (s.setGroup k g).hostReply = s.hostReply := rfl

/-! ## setGrp -/

@[simp] theorem State.mem_setGrp (s : State) (g : Group) : (s.setGrp g).mem = s.mem := rfl
@[simp] theorem State.poison_setGrp (s : State) (g : Group) : (s.setGrp g).poison = s.poison := rfl
@[simp] theorem State.teams_setGrp (s : State) (g : Group) : (s.setGrp g).teams = s.teams := rfl
@[simp] theorem State.cores_setGrp (s : State) (g : Group) : (s.setGrp g).cores = s.cores := rfl
@[simp] theorem State.clusters_setGrp (s : State) (g : Group) : (s.setGrp g).clusters = s.clusters := rfl
@[simp] theorem State.vdevs_setGrp (s : State) (g : Group) : (s.setGrp g).vdevs = s.vdevs := rfl
@[simp] theorem State.launches_setGrp (s : State) (g : Group) : (s.setGrp g).launches = s.launches := rfl
@[simp] theorem State.granules_setGrp (s : State) (g : Group) : (s.setGrp g).granules = s.granules := rfl
@[simp] theorem State.gens_setGrp (s : State) (g : Group) : (s.setGrp g).gens = s.gens := rfl
@[simp] theorem State.copies_setGrp (s : State) (g : Group) : (s.setGrp g).copies = s.copies := rfl
@[simp] theorem State.claims_setGrp (s : State) (g : Group) : (s.setGrp g).claims = s.claims := rfl
@[simp] theorem State.pointers_setGrp (s : State) (g : Group) : (s.setGrp g).pointers = s.pointers := rfl
@[simp] theorem State.walks_setGrp (s : State) (g : Group) : (s.setGrp g).walks = s.walks := rfl
@[simp] theorem State.ports_setGrp (s : State) (g : Group) : (s.setGrp g).ports = s.ports := rfl
@[simp] theorem State.slots_setGrp (s : State) (g : Group) : (s.setGrp g).slots = s.slots := rfl
@[simp] theorem State.sent_setGrp (s : State) (g : Group) : (s.setGrp g).sent = s.sent := rfl
@[simp] theorem State.outbox_setGrp (s : State) (g : Group) : (s.setGrp g).outbox = s.outbox := rfl
@[simp] theorem State.gatherings_setGrp (s : State) (g : Group) : (s.setGrp g).gatherings = s.gatherings := rfl
@[simp] theorem State.contained_setGrp (s : State) (g : Group) : (s.setGrp g).contained = s.contained := rfl
@[simp] theorem State.arrivals_setGrp (s : State) (g : Group) : (s.setGrp g).arrivals = s.arrivals := rfl
@[simp] theorem State.platform_setGrp (s : State) (g : Group) : (s.setGrp g).platform = s.platform := rfl
@[simp] theorem State.launchSeq_setGrp (s : State) (g : Group) : (s.setGrp g).launchSeq = s.launchSeq := rfl
@[simp] theorem State.now_setGrp (s : State) (g : Group) : (s.setGrp g).now = s.now := rfl
@[simp] theorem State.cpNow_setGrp (s : State) (g : Group) : (s.setGrp g).cpNow = s.cpNow := rfl
@[simp] theorem State.portNow_setGrp (s : State) (g : Group) : (s.setGrp g).portNow = s.portNow := rfl
@[simp] theorem State.on_setGrp (s : State) (g : Group) : (s.setGrp g).on = s.on := rfl
@[simp] theorem State.agenda_setGrp (s : State) (g : Group) : (s.setGrp g).agenda = s.agenda := rfl
@[simp] theorem State.stalled_setGrp (s : State) (g : Group) : (s.setGrp g).stalled = s.stalled := rfl
@[simp] theorem State.steps_setGrp (s : State) (g : Group) : (s.setGrp g).steps = s.steps := rfl
@[simp] theorem State.free_setGrp (s : State) (g : Group) : (s.setGrp g).free = s.free := rfl
@[simp] theorem State.fired_setGrp (s : State) (g : Group) : (s.setGrp g).fired = s.fired := rfl
@[simp] theorem State.sends_setGrp (s : State) (g : Group) : (s.setGrp g).sends = s.sends := rfl
@[simp] theorem State.made_setGrp (s : State) (g : Group) : (s.setGrp g).made = s.made := rfl
@[simp] theorem State.hostReply_setGrp (s : State) (g : Group) : (s.setGrp g).hostReply = s.hostReply := rfl

/-! ## setTeam -/

@[simp] theorem State.mem_setTeam (s : State) (k : Nat) (t : Team) : (s.setTeam k t).mem = s.mem := rfl
@[simp] theorem State.poison_setTeam (s : State) (k : Nat) (t : Team) : (s.setTeam k t).poison = s.poison := rfl
@[simp] theorem State.groups_setTeam (s : State) (k : Nat) (t : Team) : (s.setTeam k t).groups = s.groups := rfl
@[simp] theorem State.cores_setTeam (s : State) (k : Nat) (t : Team) : (s.setTeam k t).cores = s.cores := rfl
@[simp] theorem State.clusters_setTeam (s : State) (k : Nat) (t : Team) : (s.setTeam k t).clusters = s.clusters := rfl
@[simp] theorem State.vdevs_setTeam (s : State) (k : Nat) (t : Team) : (s.setTeam k t).vdevs = s.vdevs := rfl
@[simp] theorem State.launches_setTeam (s : State) (k : Nat) (t : Team) : (s.setTeam k t).launches = s.launches := rfl
@[simp] theorem State.granules_setTeam (s : State) (k : Nat) (t : Team) : (s.setTeam k t).granules = s.granules := rfl
@[simp] theorem State.gens_setTeam (s : State) (k : Nat) (t : Team) : (s.setTeam k t).gens = s.gens := rfl
@[simp] theorem State.copies_setTeam (s : State) (k : Nat) (t : Team) : (s.setTeam k t).copies = s.copies := rfl
@[simp] theorem State.claims_setTeam (s : State) (k : Nat) (t : Team) : (s.setTeam k t).claims = s.claims := rfl
@[simp] theorem State.pointers_setTeam (s : State) (k : Nat) (t : Team) : (s.setTeam k t).pointers = s.pointers := rfl
@[simp] theorem State.walks_setTeam (s : State) (k : Nat) (t : Team) : (s.setTeam k t).walks = s.walks := rfl
@[simp] theorem State.ports_setTeam (s : State) (k : Nat) (t : Team) : (s.setTeam k t).ports = s.ports := rfl
@[simp] theorem State.slots_setTeam (s : State) (k : Nat) (t : Team) : (s.setTeam k t).slots = s.slots := rfl
@[simp] theorem State.sent_setTeam (s : State) (k : Nat) (t : Team) : (s.setTeam k t).sent = s.sent := rfl
@[simp] theorem State.outbox_setTeam (s : State) (k : Nat) (t : Team) : (s.setTeam k t).outbox = s.outbox := rfl
@[simp] theorem State.gatherings_setTeam (s : State) (k : Nat) (t : Team) : (s.setTeam k t).gatherings = s.gatherings := rfl
@[simp] theorem State.contained_setTeam (s : State) (k : Nat) (t : Team) : (s.setTeam k t).contained = s.contained := rfl
@[simp] theorem State.arrivals_setTeam (s : State) (k : Nat) (t : Team) : (s.setTeam k t).arrivals = s.arrivals := rfl
@[simp] theorem State.platform_setTeam (s : State) (k : Nat) (t : Team) : (s.setTeam k t).platform = s.platform := rfl
@[simp] theorem State.launchSeq_setTeam (s : State) (k : Nat) (t : Team) : (s.setTeam k t).launchSeq = s.launchSeq := rfl
@[simp] theorem State.now_setTeam (s : State) (k : Nat) (t : Team) : (s.setTeam k t).now = s.now := rfl
@[simp] theorem State.cpNow_setTeam (s : State) (k : Nat) (t : Team) : (s.setTeam k t).cpNow = s.cpNow := rfl
@[simp] theorem State.portNow_setTeam (s : State) (k : Nat) (t : Team) : (s.setTeam k t).portNow = s.portNow := rfl
@[simp] theorem State.cur_setTeam (s : State) (k : Nat) (t : Team) : (s.setTeam k t).cur = s.cur := rfl
@[simp] theorem State.on_setTeam (s : State) (k : Nat) (t : Team) : (s.setTeam k t).on = s.on := rfl
@[simp] theorem State.agenda_setTeam (s : State) (k : Nat) (t : Team) : (s.setTeam k t).agenda = s.agenda := rfl
@[simp] theorem State.stalled_setTeam (s : State) (k : Nat) (t : Team) : (s.setTeam k t).stalled = s.stalled := rfl
@[simp] theorem State.steps_setTeam (s : State) (k : Nat) (t : Team) : (s.setTeam k t).steps = s.steps := rfl
@[simp] theorem State.free_setTeam (s : State) (k : Nat) (t : Team) : (s.setTeam k t).free = s.free := rfl
@[simp] theorem State.fired_setTeam (s : State) (k : Nat) (t : Team) : (s.setTeam k t).fired = s.fired := rfl
@[simp] theorem State.sends_setTeam (s : State) (k : Nat) (t : Team) : (s.setTeam k t).sends = s.sends := rfl
@[simp] theorem State.made_setTeam (s : State) (k : Nat) (t : Team) : (s.setTeam k t).made = s.made := rfl
@[simp] theorem State.hostReply_setTeam (s : State) (k : Nat) (t : Team) : (s.setTeam k t).hostReply = s.hostReply := rfl

/-! ## setLaunch -/

@[simp] theorem State.mem_setLaunch (s : State) (k : Nat) (l : Launch) : (s.setLaunch k l).mem = s.mem := rfl
@[simp] theorem State.poison_setLaunch (s : State) (k : Nat) (l : Launch) : (s.setLaunch k l).poison = s.poison := rfl
@[simp] theorem State.groups_setLaunch (s : State) (k : Nat) (l : Launch) : (s.setLaunch k l).groups = s.groups := rfl
@[simp] theorem State.teams_setLaunch (s : State) (k : Nat) (l : Launch) : (s.setLaunch k l).teams = s.teams := rfl
@[simp] theorem State.cores_setLaunch (s : State) (k : Nat) (l : Launch) : (s.setLaunch k l).cores = s.cores := rfl
@[simp] theorem State.clusters_setLaunch (s : State) (k : Nat) (l : Launch) : (s.setLaunch k l).clusters = s.clusters := rfl
@[simp] theorem State.vdevs_setLaunch (s : State) (k : Nat) (l : Launch) : (s.setLaunch k l).vdevs = s.vdevs := rfl
@[simp] theorem State.granules_setLaunch (s : State) (k : Nat) (l : Launch) : (s.setLaunch k l).granules = s.granules := rfl
@[simp] theorem State.gens_setLaunch (s : State) (k : Nat) (l : Launch) : (s.setLaunch k l).gens = s.gens := rfl
@[simp] theorem State.copies_setLaunch (s : State) (k : Nat) (l : Launch) : (s.setLaunch k l).copies = s.copies := rfl
@[simp] theorem State.claims_setLaunch (s : State) (k : Nat) (l : Launch) : (s.setLaunch k l).claims = s.claims := rfl
@[simp] theorem State.pointers_setLaunch (s : State) (k : Nat) (l : Launch) : (s.setLaunch k l).pointers = s.pointers := rfl
@[simp] theorem State.walks_setLaunch (s : State) (k : Nat) (l : Launch) : (s.setLaunch k l).walks = s.walks := rfl
@[simp] theorem State.ports_setLaunch (s : State) (k : Nat) (l : Launch) : (s.setLaunch k l).ports = s.ports := rfl
@[simp] theorem State.slots_setLaunch (s : State) (k : Nat) (l : Launch) : (s.setLaunch k l).slots = s.slots := rfl
@[simp] theorem State.sent_setLaunch (s : State) (k : Nat) (l : Launch) : (s.setLaunch k l).sent = s.sent := rfl
@[simp] theorem State.outbox_setLaunch (s : State) (k : Nat) (l : Launch) : (s.setLaunch k l).outbox = s.outbox := rfl
@[simp] theorem State.gatherings_setLaunch (s : State) (k : Nat) (l : Launch) : (s.setLaunch k l).gatherings = s.gatherings := rfl
@[simp] theorem State.contained_setLaunch (s : State) (k : Nat) (l : Launch) : (s.setLaunch k l).contained = s.contained := rfl
@[simp] theorem State.arrivals_setLaunch (s : State) (k : Nat) (l : Launch) : (s.setLaunch k l).arrivals = s.arrivals := rfl
@[simp] theorem State.platform_setLaunch (s : State) (k : Nat) (l : Launch) : (s.setLaunch k l).platform = s.platform := rfl
@[simp] theorem State.launchSeq_setLaunch (s : State) (k : Nat) (l : Launch) : (s.setLaunch k l).launchSeq = s.launchSeq := rfl
@[simp] theorem State.now_setLaunch (s : State) (k : Nat) (l : Launch) : (s.setLaunch k l).now = s.now := rfl
@[simp] theorem State.cpNow_setLaunch (s : State) (k : Nat) (l : Launch) : (s.setLaunch k l).cpNow = s.cpNow := rfl
@[simp] theorem State.portNow_setLaunch (s : State) (k : Nat) (l : Launch) : (s.setLaunch k l).portNow = s.portNow := rfl
@[simp] theorem State.cur_setLaunch (s : State) (k : Nat) (l : Launch) : (s.setLaunch k l).cur = s.cur := rfl
@[simp] theorem State.on_setLaunch (s : State) (k : Nat) (l : Launch) : (s.setLaunch k l).on = s.on := rfl
@[simp] theorem State.agenda_setLaunch (s : State) (k : Nat) (l : Launch) : (s.setLaunch k l).agenda = s.agenda := rfl
@[simp] theorem State.stalled_setLaunch (s : State) (k : Nat) (l : Launch) : (s.setLaunch k l).stalled = s.stalled := rfl
@[simp] theorem State.steps_setLaunch (s : State) (k : Nat) (l : Launch) : (s.setLaunch k l).steps = s.steps := rfl
@[simp] theorem State.free_setLaunch (s : State) (k : Nat) (l : Launch) : (s.setLaunch k l).free = s.free := rfl
@[simp] theorem State.fired_setLaunch (s : State) (k : Nat) (l : Launch) : (s.setLaunch k l).fired = s.fired := rfl
@[simp] theorem State.sends_setLaunch (s : State) (k : Nat) (l : Launch) : (s.setLaunch k l).sends = s.sends := rfl
@[simp] theorem State.made_setLaunch (s : State) (k : Nat) (l : Launch) : (s.setLaunch k l).made = s.made := rfl
@[simp] theorem State.hostReply_setLaunch (s : State) (k : Nat) (l : Launch) : (s.setLaunch k l).hostReply = s.hostReply := rfl

/-! ## setVdev -/

@[simp] theorem State.mem_setVdev (s : State) (k : Nat) (v : VDev) : (s.setVdev k v).mem = s.mem := rfl
@[simp] theorem State.poison_setVdev (s : State) (k : Nat) (v : VDev) : (s.setVdev k v).poison = s.poison := rfl
@[simp] theorem State.groups_setVdev (s : State) (k : Nat) (v : VDev) : (s.setVdev k v).groups = s.groups := rfl
@[simp] theorem State.teams_setVdev (s : State) (k : Nat) (v : VDev) : (s.setVdev k v).teams = s.teams := rfl
@[simp] theorem State.cores_setVdev (s : State) (k : Nat) (v : VDev) : (s.setVdev k v).cores = s.cores := rfl
@[simp] theorem State.clusters_setVdev (s : State) (k : Nat) (v : VDev) : (s.setVdev k v).clusters = s.clusters := rfl
@[simp] theorem State.launches_setVdev (s : State) (k : Nat) (v : VDev) : (s.setVdev k v).launches = s.launches := rfl
@[simp] theorem State.granules_setVdev (s : State) (k : Nat) (v : VDev) : (s.setVdev k v).granules = s.granules := rfl
@[simp] theorem State.gens_setVdev (s : State) (k : Nat) (v : VDev) : (s.setVdev k v).gens = s.gens := rfl
@[simp] theorem State.copies_setVdev (s : State) (k : Nat) (v : VDev) : (s.setVdev k v).copies = s.copies := rfl
@[simp] theorem State.claims_setVdev (s : State) (k : Nat) (v : VDev) : (s.setVdev k v).claims = s.claims := rfl
@[simp] theorem State.pointers_setVdev (s : State) (k : Nat) (v : VDev) : (s.setVdev k v).pointers = s.pointers := rfl
@[simp] theorem State.walks_setVdev (s : State) (k : Nat) (v : VDev) : (s.setVdev k v).walks = s.walks := rfl
@[simp] theorem State.ports_setVdev (s : State) (k : Nat) (v : VDev) : (s.setVdev k v).ports = s.ports := rfl
@[simp] theorem State.slots_setVdev (s : State) (k : Nat) (v : VDev) : (s.setVdev k v).slots = s.slots := rfl
@[simp] theorem State.sent_setVdev (s : State) (k : Nat) (v : VDev) : (s.setVdev k v).sent = s.sent := rfl
@[simp] theorem State.outbox_setVdev (s : State) (k : Nat) (v : VDev) : (s.setVdev k v).outbox = s.outbox := rfl
@[simp] theorem State.gatherings_setVdev (s : State) (k : Nat) (v : VDev) : (s.setVdev k v).gatherings = s.gatherings := rfl
@[simp] theorem State.contained_setVdev (s : State) (k : Nat) (v : VDev) : (s.setVdev k v).contained = s.contained := rfl
@[simp] theorem State.arrivals_setVdev (s : State) (k : Nat) (v : VDev) : (s.setVdev k v).arrivals = s.arrivals := rfl
@[simp] theorem State.platform_setVdev (s : State) (k : Nat) (v : VDev) : (s.setVdev k v).platform = s.platform := rfl
@[simp] theorem State.launchSeq_setVdev (s : State) (k : Nat) (v : VDev) : (s.setVdev k v).launchSeq = s.launchSeq := rfl
@[simp] theorem State.now_setVdev (s : State) (k : Nat) (v : VDev) : (s.setVdev k v).now = s.now := rfl
@[simp] theorem State.cpNow_setVdev (s : State) (k : Nat) (v : VDev) : (s.setVdev k v).cpNow = s.cpNow := rfl
@[simp] theorem State.portNow_setVdev (s : State) (k : Nat) (v : VDev) : (s.setVdev k v).portNow = s.portNow := rfl
@[simp] theorem State.cur_setVdev (s : State) (k : Nat) (v : VDev) : (s.setVdev k v).cur = s.cur := rfl
@[simp] theorem State.on_setVdev (s : State) (k : Nat) (v : VDev) : (s.setVdev k v).on = s.on := rfl
@[simp] theorem State.agenda_setVdev (s : State) (k : Nat) (v : VDev) : (s.setVdev k v).agenda = s.agenda := rfl
@[simp] theorem State.stalled_setVdev (s : State) (k : Nat) (v : VDev) : (s.setVdev k v).stalled = s.stalled := rfl
@[simp] theorem State.steps_setVdev (s : State) (k : Nat) (v : VDev) : (s.setVdev k v).steps = s.steps := rfl
@[simp] theorem State.free_setVdev (s : State) (k : Nat) (v : VDev) : (s.setVdev k v).free = s.free := rfl
@[simp] theorem State.fired_setVdev (s : State) (k : Nat) (v : VDev) : (s.setVdev k v).fired = s.fired := rfl
@[simp] theorem State.sends_setVdev (s : State) (k : Nat) (v : VDev) : (s.setVdev k v).sends = s.sends := rfl
@[simp] theorem State.made_setVdev (s : State) (k : Nat) (v : VDev) : (s.setVdev k v).made = s.made := rfl
@[simp] theorem State.hostReply_setVdev (s : State) (k : Nat) (v : VDev) : (s.setVdev k v).hostReply = s.hostReply := rfl

/-! ## setCore -/

@[simp] theorem State.mem_setCore (s : State) (k : Nat) (x : Core) : (s.setCore k x).mem = s.mem := rfl
@[simp] theorem State.poison_setCore (s : State) (k : Nat) (x : Core) : (s.setCore k x).poison = s.poison := rfl
@[simp] theorem State.groups_setCore (s : State) (k : Nat) (x : Core) : (s.setCore k x).groups = s.groups := rfl
@[simp] theorem State.teams_setCore (s : State) (k : Nat) (x : Core) : (s.setCore k x).teams = s.teams := rfl
@[simp] theorem State.clusters_setCore (s : State) (k : Nat) (x : Core) : (s.setCore k x).clusters = s.clusters := rfl
@[simp] theorem State.vdevs_setCore (s : State) (k : Nat) (x : Core) : (s.setCore k x).vdevs = s.vdevs := rfl
@[simp] theorem State.launches_setCore (s : State) (k : Nat) (x : Core) : (s.setCore k x).launches = s.launches := rfl
@[simp] theorem State.granules_setCore (s : State) (k : Nat) (x : Core) : (s.setCore k x).granules = s.granules := rfl
@[simp] theorem State.gens_setCore (s : State) (k : Nat) (x : Core) : (s.setCore k x).gens = s.gens := rfl
@[simp] theorem State.copies_setCore (s : State) (k : Nat) (x : Core) : (s.setCore k x).copies = s.copies := rfl
@[simp] theorem State.claims_setCore (s : State) (k : Nat) (x : Core) : (s.setCore k x).claims = s.claims := rfl
@[simp] theorem State.pointers_setCore (s : State) (k : Nat) (x : Core) : (s.setCore k x).pointers = s.pointers := rfl
@[simp] theorem State.walks_setCore (s : State) (k : Nat) (x : Core) : (s.setCore k x).walks = s.walks := rfl
@[simp] theorem State.ports_setCore (s : State) (k : Nat) (x : Core) : (s.setCore k x).ports = s.ports := rfl
@[simp] theorem State.slots_setCore (s : State) (k : Nat) (x : Core) : (s.setCore k x).slots = s.slots := rfl
@[simp] theorem State.sent_setCore (s : State) (k : Nat) (x : Core) : (s.setCore k x).sent = s.sent := rfl
@[simp] theorem State.outbox_setCore (s : State) (k : Nat) (x : Core) : (s.setCore k x).outbox = s.outbox := rfl
@[simp] theorem State.gatherings_setCore (s : State) (k : Nat) (x : Core) : (s.setCore k x).gatherings = s.gatherings := rfl
@[simp] theorem State.contained_setCore (s : State) (k : Nat) (x : Core) : (s.setCore k x).contained = s.contained := rfl
@[simp] theorem State.arrivals_setCore (s : State) (k : Nat) (x : Core) : (s.setCore k x).arrivals = s.arrivals := rfl
@[simp] theorem State.platform_setCore (s : State) (k : Nat) (x : Core) : (s.setCore k x).platform = s.platform := rfl
@[simp] theorem State.launchSeq_setCore (s : State) (k : Nat) (x : Core) : (s.setCore k x).launchSeq = s.launchSeq := rfl
@[simp] theorem State.now_setCore (s : State) (k : Nat) (x : Core) : (s.setCore k x).now = s.now := rfl
@[simp] theorem State.cpNow_setCore (s : State) (k : Nat) (x : Core) : (s.setCore k x).cpNow = s.cpNow := rfl
@[simp] theorem State.portNow_setCore (s : State) (k : Nat) (x : Core) : (s.setCore k x).portNow = s.portNow := rfl
@[simp] theorem State.cur_setCore (s : State) (k : Nat) (x : Core) : (s.setCore k x).cur = s.cur := rfl
@[simp] theorem State.on_setCore (s : State) (k : Nat) (x : Core) : (s.setCore k x).on = s.on := rfl
@[simp] theorem State.agenda_setCore (s : State) (k : Nat) (x : Core) : (s.setCore k x).agenda = s.agenda := rfl
@[simp] theorem State.stalled_setCore (s : State) (k : Nat) (x : Core) : (s.setCore k x).stalled = s.stalled := rfl
@[simp] theorem State.steps_setCore (s : State) (k : Nat) (x : Core) : (s.setCore k x).steps = s.steps := rfl
@[simp] theorem State.free_setCore (s : State) (k : Nat) (x : Core) : (s.setCore k x).free = s.free := rfl
@[simp] theorem State.fired_setCore (s : State) (k : Nat) (x : Core) : (s.setCore k x).fired = s.fired := rfl
@[simp] theorem State.sends_setCore (s : State) (k : Nat) (x : Core) : (s.setCore k x).sends = s.sends := rfl
@[simp] theorem State.made_setCore (s : State) (k : Nat) (x : Core) : (s.setCore k x).made = s.made := rfl
@[simp] theorem State.hostReply_setCore (s : State) (k : Nat) (x : Core) : (s.setCore k x).hostReply = s.hostReply := rfl

/-! ## setCluster -/

@[simp] theorem State.mem_setCluster (s : State) (k : Nat) (x : Cluster) : (s.setCluster k x).mem = s.mem := rfl
@[simp] theorem State.poison_setCluster (s : State) (k : Nat) (x : Cluster) : (s.setCluster k x).poison = s.poison := rfl
@[simp] theorem State.groups_setCluster (s : State) (k : Nat) (x : Cluster) : (s.setCluster k x).groups = s.groups := rfl
@[simp] theorem State.teams_setCluster (s : State) (k : Nat) (x : Cluster) : (s.setCluster k x).teams = s.teams := rfl
@[simp] theorem State.cores_setCluster (s : State) (k : Nat) (x : Cluster) : (s.setCluster k x).cores = s.cores := rfl
@[simp] theorem State.vdevs_setCluster (s : State) (k : Nat) (x : Cluster) : (s.setCluster k x).vdevs = s.vdevs := rfl
@[simp] theorem State.launches_setCluster (s : State) (k : Nat) (x : Cluster) : (s.setCluster k x).launches = s.launches := rfl
@[simp] theorem State.granules_setCluster (s : State) (k : Nat) (x : Cluster) : (s.setCluster k x).granules = s.granules := rfl
@[simp] theorem State.gens_setCluster (s : State) (k : Nat) (x : Cluster) : (s.setCluster k x).gens = s.gens := rfl
@[simp] theorem State.copies_setCluster (s : State) (k : Nat) (x : Cluster) : (s.setCluster k x).copies = s.copies := rfl
@[simp] theorem State.claims_setCluster (s : State) (k : Nat) (x : Cluster) : (s.setCluster k x).claims = s.claims := rfl
@[simp] theorem State.pointers_setCluster (s : State) (k : Nat) (x : Cluster) : (s.setCluster k x).pointers = s.pointers := rfl
@[simp] theorem State.walks_setCluster (s : State) (k : Nat) (x : Cluster) : (s.setCluster k x).walks = s.walks := rfl
@[simp] theorem State.ports_setCluster (s : State) (k : Nat) (x : Cluster) : (s.setCluster k x).ports = s.ports := rfl
@[simp] theorem State.slots_setCluster (s : State) (k : Nat) (x : Cluster) : (s.setCluster k x).slots = s.slots := rfl
@[simp] theorem State.sent_setCluster (s : State) (k : Nat) (x : Cluster) : (s.setCluster k x).sent = s.sent := rfl
@[simp] theorem State.outbox_setCluster (s : State) (k : Nat) (x : Cluster) : (s.setCluster k x).outbox = s.outbox := rfl
@[simp] theorem State.gatherings_setCluster (s : State) (k : Nat) (x : Cluster) : (s.setCluster k x).gatherings = s.gatherings := rfl
@[simp] theorem State.contained_setCluster (s : State) (k : Nat) (x : Cluster) : (s.setCluster k x).contained = s.contained := rfl
@[simp] theorem State.arrivals_setCluster (s : State) (k : Nat) (x : Cluster) : (s.setCluster k x).arrivals = s.arrivals := rfl
@[simp] theorem State.platform_setCluster (s : State) (k : Nat) (x : Cluster) : (s.setCluster k x).platform = s.platform := rfl
@[simp] theorem State.launchSeq_setCluster (s : State) (k : Nat) (x : Cluster) : (s.setCluster k x).launchSeq = s.launchSeq := rfl
@[simp] theorem State.now_setCluster (s : State) (k : Nat) (x : Cluster) : (s.setCluster k x).now = s.now := rfl
@[simp] theorem State.cpNow_setCluster (s : State) (k : Nat) (x : Cluster) : (s.setCluster k x).cpNow = s.cpNow := rfl
@[simp] theorem State.portNow_setCluster (s : State) (k : Nat) (x : Cluster) : (s.setCluster k x).portNow = s.portNow := rfl
@[simp] theorem State.cur_setCluster (s : State) (k : Nat) (x : Cluster) : (s.setCluster k x).cur = s.cur := rfl
@[simp] theorem State.on_setCluster (s : State) (k : Nat) (x : Cluster) : (s.setCluster k x).on = s.on := rfl
@[simp] theorem State.agenda_setCluster (s : State) (k : Nat) (x : Cluster) : (s.setCluster k x).agenda = s.agenda := rfl
@[simp] theorem State.stalled_setCluster (s : State) (k : Nat) (x : Cluster) : (s.setCluster k x).stalled = s.stalled := rfl
@[simp] theorem State.steps_setCluster (s : State) (k : Nat) (x : Cluster) : (s.setCluster k x).steps = s.steps := rfl
@[simp] theorem State.free_setCluster (s : State) (k : Nat) (x : Cluster) : (s.setCluster k x).free = s.free := rfl
@[simp] theorem State.fired_setCluster (s : State) (k : Nat) (x : Cluster) : (s.setCluster k x).fired = s.fired := rfl
@[simp] theorem State.sends_setCluster (s : State) (k : Nat) (x : Cluster) : (s.setCluster k x).sends = s.sends := rfl
@[simp] theorem State.made_setCluster (s : State) (k : Nat) (x : Cluster) : (s.setCluster k x).made = s.made := rfl
@[simp] theorem State.hostReply_setCluster (s : State) (k : Nat) (x : Cluster) : (s.setCluster k x).hostReply = s.hostReply := rfl

/-! ## setPort -/

@[simp] theorem State.mem_setPort (s : State) (k : Nat) (x : Port) : (s.setPort k x).mem = s.mem := rfl
@[simp] theorem State.poison_setPort (s : State) (k : Nat) (x : Port) : (s.setPort k x).poison = s.poison := rfl
@[simp] theorem State.groups_setPort (s : State) (k : Nat) (x : Port) : (s.setPort k x).groups = s.groups := rfl
@[simp] theorem State.teams_setPort (s : State) (k : Nat) (x : Port) : (s.setPort k x).teams = s.teams := rfl
@[simp] theorem State.cores_setPort (s : State) (k : Nat) (x : Port) : (s.setPort k x).cores = s.cores := rfl
@[simp] theorem State.clusters_setPort (s : State) (k : Nat) (x : Port) : (s.setPort k x).clusters = s.clusters := rfl
@[simp] theorem State.vdevs_setPort (s : State) (k : Nat) (x : Port) : (s.setPort k x).vdevs = s.vdevs := rfl
@[simp] theorem State.launches_setPort (s : State) (k : Nat) (x : Port) : (s.setPort k x).launches = s.launches := rfl
@[simp] theorem State.granules_setPort (s : State) (k : Nat) (x : Port) : (s.setPort k x).granules = s.granules := rfl
@[simp] theorem State.gens_setPort (s : State) (k : Nat) (x : Port) : (s.setPort k x).gens = s.gens := rfl
@[simp] theorem State.copies_setPort (s : State) (k : Nat) (x : Port) : (s.setPort k x).copies = s.copies := rfl
@[simp] theorem State.claims_setPort (s : State) (k : Nat) (x : Port) : (s.setPort k x).claims = s.claims := rfl
@[simp] theorem State.pointers_setPort (s : State) (k : Nat) (x : Port) : (s.setPort k x).pointers = s.pointers := rfl
@[simp] theorem State.walks_setPort (s : State) (k : Nat) (x : Port) : (s.setPort k x).walks = s.walks := rfl
@[simp] theorem State.slots_setPort (s : State) (k : Nat) (x : Port) : (s.setPort k x).slots = s.slots := rfl
@[simp] theorem State.sent_setPort (s : State) (k : Nat) (x : Port) : (s.setPort k x).sent = s.sent := rfl
@[simp] theorem State.outbox_setPort (s : State) (k : Nat) (x : Port) : (s.setPort k x).outbox = s.outbox := rfl
@[simp] theorem State.gatherings_setPort (s : State) (k : Nat) (x : Port) : (s.setPort k x).gatherings = s.gatherings := rfl
@[simp] theorem State.contained_setPort (s : State) (k : Nat) (x : Port) : (s.setPort k x).contained = s.contained := rfl
@[simp] theorem State.arrivals_setPort (s : State) (k : Nat) (x : Port) : (s.setPort k x).arrivals = s.arrivals := rfl
@[simp] theorem State.platform_setPort (s : State) (k : Nat) (x : Port) : (s.setPort k x).platform = s.platform := rfl
@[simp] theorem State.launchSeq_setPort (s : State) (k : Nat) (x : Port) : (s.setPort k x).launchSeq = s.launchSeq := rfl
@[simp] theorem State.now_setPort (s : State) (k : Nat) (x : Port) : (s.setPort k x).now = s.now := rfl
@[simp] theorem State.cpNow_setPort (s : State) (k : Nat) (x : Port) : (s.setPort k x).cpNow = s.cpNow := rfl
@[simp] theorem State.portNow_setPort (s : State) (k : Nat) (x : Port) : (s.setPort k x).portNow = s.portNow := rfl
@[simp] theorem State.cur_setPort (s : State) (k : Nat) (x : Port) : (s.setPort k x).cur = s.cur := rfl
@[simp] theorem State.on_setPort (s : State) (k : Nat) (x : Port) : (s.setPort k x).on = s.on := rfl
@[simp] theorem State.agenda_setPort (s : State) (k : Nat) (x : Port) : (s.setPort k x).agenda = s.agenda := rfl
@[simp] theorem State.stalled_setPort (s : State) (k : Nat) (x : Port) : (s.setPort k x).stalled = s.stalled := rfl
@[simp] theorem State.steps_setPort (s : State) (k : Nat) (x : Port) : (s.setPort k x).steps = s.steps := rfl
@[simp] theorem State.free_setPort (s : State) (k : Nat) (x : Port) : (s.setPort k x).free = s.free := rfl
@[simp] theorem State.fired_setPort (s : State) (k : Nat) (x : Port) : (s.setPort k x).fired = s.fired := rfl
@[simp] theorem State.sends_setPort (s : State) (k : Nat) (x : Port) : (s.setPort k x).sends = s.sends := rfl
@[simp] theorem State.made_setPort (s : State) (k : Nat) (x : Port) : (s.setPort k x).made = s.made := rfl
@[simp] theorem State.hostReply_setPort (s : State) (k : Nat) (x : Port) : (s.setPort k x).hostReply = s.hostReply := rfl

/-! ## setSlot -/

@[simp] theorem State.mem_setSlot (s : State) (k : Nat) (x : TagSlot) : (s.setSlot k x).mem = s.mem := rfl
@[simp] theorem State.poison_setSlot (s : State) (k : Nat) (x : TagSlot) : (s.setSlot k x).poison = s.poison := rfl
@[simp] theorem State.groups_setSlot (s : State) (k : Nat) (x : TagSlot) : (s.setSlot k x).groups = s.groups := rfl
@[simp] theorem State.teams_setSlot (s : State) (k : Nat) (x : TagSlot) : (s.setSlot k x).teams = s.teams := rfl
@[simp] theorem State.cores_setSlot (s : State) (k : Nat) (x : TagSlot) : (s.setSlot k x).cores = s.cores := rfl
@[simp] theorem State.clusters_setSlot (s : State) (k : Nat) (x : TagSlot) : (s.setSlot k x).clusters = s.clusters := rfl
@[simp] theorem State.vdevs_setSlot (s : State) (k : Nat) (x : TagSlot) : (s.setSlot k x).vdevs = s.vdevs := rfl
@[simp] theorem State.launches_setSlot (s : State) (k : Nat) (x : TagSlot) : (s.setSlot k x).launches = s.launches := rfl
@[simp] theorem State.granules_setSlot (s : State) (k : Nat) (x : TagSlot) : (s.setSlot k x).granules = s.granules := rfl
@[simp] theorem State.gens_setSlot (s : State) (k : Nat) (x : TagSlot) : (s.setSlot k x).gens = s.gens := rfl
@[simp] theorem State.copies_setSlot (s : State) (k : Nat) (x : TagSlot) : (s.setSlot k x).copies = s.copies := rfl
@[simp] theorem State.claims_setSlot (s : State) (k : Nat) (x : TagSlot) : (s.setSlot k x).claims = s.claims := rfl
@[simp] theorem State.pointers_setSlot (s : State) (k : Nat) (x : TagSlot) : (s.setSlot k x).pointers = s.pointers := rfl
@[simp] theorem State.walks_setSlot (s : State) (k : Nat) (x : TagSlot) : (s.setSlot k x).walks = s.walks := rfl
@[simp] theorem State.ports_setSlot (s : State) (k : Nat) (x : TagSlot) : (s.setSlot k x).ports = s.ports := rfl
@[simp] theorem State.sent_setSlot (s : State) (k : Nat) (x : TagSlot) : (s.setSlot k x).sent = s.sent := rfl
@[simp] theorem State.outbox_setSlot (s : State) (k : Nat) (x : TagSlot) : (s.setSlot k x).outbox = s.outbox := rfl
@[simp] theorem State.gatherings_setSlot (s : State) (k : Nat) (x : TagSlot) : (s.setSlot k x).gatherings = s.gatherings := rfl
@[simp] theorem State.contained_setSlot (s : State) (k : Nat) (x : TagSlot) : (s.setSlot k x).contained = s.contained := rfl
@[simp] theorem State.arrivals_setSlot (s : State) (k : Nat) (x : TagSlot) : (s.setSlot k x).arrivals = s.arrivals := rfl
@[simp] theorem State.platform_setSlot (s : State) (k : Nat) (x : TagSlot) : (s.setSlot k x).platform = s.platform := rfl
@[simp] theorem State.launchSeq_setSlot (s : State) (k : Nat) (x : TagSlot) : (s.setSlot k x).launchSeq = s.launchSeq := rfl
@[simp] theorem State.now_setSlot (s : State) (k : Nat) (x : TagSlot) : (s.setSlot k x).now = s.now := rfl
@[simp] theorem State.cpNow_setSlot (s : State) (k : Nat) (x : TagSlot) : (s.setSlot k x).cpNow = s.cpNow := rfl
@[simp] theorem State.portNow_setSlot (s : State) (k : Nat) (x : TagSlot) : (s.setSlot k x).portNow = s.portNow := rfl
@[simp] theorem State.cur_setSlot (s : State) (k : Nat) (x : TagSlot) : (s.setSlot k x).cur = s.cur := rfl
@[simp] theorem State.on_setSlot (s : State) (k : Nat) (x : TagSlot) : (s.setSlot k x).on = s.on := rfl
@[simp] theorem State.agenda_setSlot (s : State) (k : Nat) (x : TagSlot) : (s.setSlot k x).agenda = s.agenda := rfl
@[simp] theorem State.stalled_setSlot (s : State) (k : Nat) (x : TagSlot) : (s.setSlot k x).stalled = s.stalled := rfl
@[simp] theorem State.steps_setSlot (s : State) (k : Nat) (x : TagSlot) : (s.setSlot k x).steps = s.steps := rfl
@[simp] theorem State.free_setSlot (s : State) (k : Nat) (x : TagSlot) : (s.setSlot k x).free = s.free := rfl
@[simp] theorem State.fired_setSlot (s : State) (k : Nat) (x : TagSlot) : (s.setSlot k x).fired = s.fired := rfl
@[simp] theorem State.sends_setSlot (s : State) (k : Nat) (x : TagSlot) : (s.setSlot k x).sends = s.sends := rfl
@[simp] theorem State.made_setSlot (s : State) (k : Nat) (x : TagSlot) : (s.setSlot k x).made = s.made := rfl
@[simp] theorem State.hostReply_setSlot (s : State) (k : Nat) (x : TagSlot) : (s.setSlot k x).hostReply = s.hostReply := rfl

/-! ## fire -/

@[simp] theorem State.mem_fire (s : State) : (s.fire).mem = s.mem := rfl
@[simp] theorem State.poison_fire (s : State) : (s.fire).poison = s.poison := rfl
@[simp] theorem State.groups_fire (s : State) : (s.fire).groups = s.groups := rfl
@[simp] theorem State.teams_fire (s : State) : (s.fire).teams = s.teams := rfl
@[simp] theorem State.cores_fire (s : State) : (s.fire).cores = s.cores := rfl
@[simp] theorem State.clusters_fire (s : State) : (s.fire).clusters = s.clusters := rfl
@[simp] theorem State.vdevs_fire (s : State) : (s.fire).vdevs = s.vdevs := rfl
@[simp] theorem State.launches_fire (s : State) : (s.fire).launches = s.launches := rfl
@[simp] theorem State.granules_fire (s : State) : (s.fire).granules = s.granules := rfl
@[simp] theorem State.gens_fire (s : State) : (s.fire).gens = s.gens := rfl
@[simp] theorem State.copies_fire (s : State) : (s.fire).copies = s.copies := rfl
@[simp] theorem State.claims_fire (s : State) : (s.fire).claims = s.claims := rfl
@[simp] theorem State.pointers_fire (s : State) : (s.fire).pointers = s.pointers := rfl
@[simp] theorem State.walks_fire (s : State) : (s.fire).walks = s.walks := rfl
@[simp] theorem State.ports_fire (s : State) : (s.fire).ports = s.ports := rfl
@[simp] theorem State.slots_fire (s : State) : (s.fire).slots = s.slots := rfl
@[simp] theorem State.sent_fire (s : State) : (s.fire).sent = s.sent := rfl
@[simp] theorem State.outbox_fire (s : State) : (s.fire).outbox = s.outbox := rfl
@[simp] theorem State.gatherings_fire (s : State) : (s.fire).gatherings = s.gatherings := rfl
@[simp] theorem State.contained_fire (s : State) : (s.fire).contained = s.contained := rfl
@[simp] theorem State.arrivals_fire (s : State) : (s.fire).arrivals = s.arrivals := rfl
@[simp] theorem State.platform_fire (s : State) : (s.fire).platform = s.platform := rfl
@[simp] theorem State.launchSeq_fire (s : State) : (s.fire).launchSeq = s.launchSeq := rfl
@[simp] theorem State.now_fire (s : State) : (s.fire).now = s.now := rfl
@[simp] theorem State.cpNow_fire (s : State) : (s.fire).cpNow = s.cpNow := rfl
@[simp] theorem State.portNow_fire (s : State) : (s.fire).portNow = s.portNow := rfl
@[simp] theorem State.cur_fire (s : State) : (s.fire).cur = s.cur := rfl
@[simp] theorem State.on_fire (s : State) : (s.fire).on = s.on := rfl
@[simp] theorem State.agenda_fire (s : State) : (s.fire).agenda = s.agenda := rfl
@[simp] theorem State.steps_fire (s : State) : (s.fire).steps = s.steps := rfl
@[simp] theorem State.free_fire (s : State) : (s.fire).free = s.free := rfl
@[simp] theorem State.sends_fire (s : State) : (s.fire).sends = s.sends := rfl
@[simp] theorem State.made_fire (s : State) : (s.fire).made = s.made := rfl
@[simp] theorem State.hostReply_fire (s : State) : (s.fire).hostReply = s.hostReply := rfl

/-! ## draw -/

@[simp] theorem State.mem_draw (s : State) : (s.draw).mem = s.mem := rfl
@[simp] theorem State.poison_draw (s : State) : (s.draw).poison = s.poison := rfl
@[simp] theorem State.groups_draw (s : State) : (s.draw).groups = s.groups := rfl
@[simp] theorem State.teams_draw (s : State) : (s.draw).teams = s.teams := rfl
@[simp] theorem State.cores_draw (s : State) : (s.draw).cores = s.cores := rfl
@[simp] theorem State.clusters_draw (s : State) : (s.draw).clusters = s.clusters := rfl
@[simp] theorem State.vdevs_draw (s : State) : (s.draw).vdevs = s.vdevs := rfl
@[simp] theorem State.launches_draw (s : State) : (s.draw).launches = s.launches := rfl
@[simp] theorem State.granules_draw (s : State) : (s.draw).granules = s.granules := rfl
@[simp] theorem State.gens_draw (s : State) : (s.draw).gens = s.gens := rfl
@[simp] theorem State.copies_draw (s : State) : (s.draw).copies = s.copies := rfl
@[simp] theorem State.claims_draw (s : State) : (s.draw).claims = s.claims := rfl
@[simp] theorem State.pointers_draw (s : State) : (s.draw).pointers = s.pointers := rfl
@[simp] theorem State.walks_draw (s : State) : (s.draw).walks = s.walks := rfl
@[simp] theorem State.ports_draw (s : State) : (s.draw).ports = s.ports := rfl
@[simp] theorem State.slots_draw (s : State) : (s.draw).slots = s.slots := rfl
@[simp] theorem State.sent_draw (s : State) : (s.draw).sent = s.sent := rfl
@[simp] theorem State.outbox_draw (s : State) : (s.draw).outbox = s.outbox := rfl
@[simp] theorem State.gatherings_draw (s : State) : (s.draw).gatherings = s.gatherings := rfl
@[simp] theorem State.contained_draw (s : State) : (s.draw).contained = s.contained := rfl
@[simp] theorem State.arrivals_draw (s : State) : (s.draw).arrivals = s.arrivals := rfl
@[simp] theorem State.platform_draw (s : State) : (s.draw).platform = s.platform := rfl
@[simp] theorem State.launchSeq_draw (s : State) : (s.draw).launchSeq = s.launchSeq := rfl
@[simp] theorem State.now_draw (s : State) : (s.draw).now = s.now := rfl
@[simp] theorem State.cpNow_draw (s : State) : (s.draw).cpNow = s.cpNow := rfl
@[simp] theorem State.portNow_draw (s : State) : (s.draw).portNow = s.portNow := rfl
@[simp] theorem State.cur_draw (s : State) : (s.draw).cur = s.cur := rfl
@[simp] theorem State.on_draw (s : State) : (s.draw).on = s.on := rfl
@[simp] theorem State.agenda_draw (s : State) : (s.draw).agenda = s.agenda := rfl
@[simp] theorem State.stalled_draw (s : State) : (s.draw).stalled = s.stalled := rfl
@[simp] theorem State.steps_draw (s : State) : (s.draw).steps = s.steps := rfl
@[simp] theorem State.fired_draw (s : State) : (s.draw).fired = s.fired := rfl
@[simp] theorem State.sends_draw (s : State) : (s.draw).sends = s.sends := rfl
@[simp] theorem State.made_draw (s : State) : (s.draw).made = s.made := rfl
@[simp] theorem State.hostReply_draw (s : State) : (s.draw).hostReply = s.hostReply := rfl

/-! ## stall -/

@[simp] theorem State.mem_stall (s : State) (i : Instr) : (s.stall i).mem = s.mem := rfl
@[simp] theorem State.poison_stall (s : State) (i : Instr) : (s.stall i).poison = s.poison := rfl
@[simp] theorem State.teams_stall (s : State) (i : Instr) : (s.stall i).teams = s.teams := rfl
@[simp] theorem State.cores_stall (s : State) (i : Instr) : (s.stall i).cores = s.cores := rfl
@[simp] theorem State.clusters_stall (s : State) (i : Instr) : (s.stall i).clusters = s.clusters := rfl
@[simp] theorem State.vdevs_stall (s : State) (i : Instr) : (s.stall i).vdevs = s.vdevs := rfl
@[simp] theorem State.launches_stall (s : State) (i : Instr) : (s.stall i).launches = s.launches := rfl
@[simp] theorem State.granules_stall (s : State) (i : Instr) : (s.stall i).granules = s.granules := rfl
@[simp] theorem State.gens_stall (s : State) (i : Instr) : (s.stall i).gens = s.gens := rfl
@[simp] theorem State.copies_stall (s : State) (i : Instr) : (s.stall i).copies = s.copies := rfl
@[simp] theorem State.claims_stall (s : State) (i : Instr) : (s.stall i).claims = s.claims := rfl
@[simp] theorem State.pointers_stall (s : State) (i : Instr) : (s.stall i).pointers = s.pointers := rfl
@[simp] theorem State.walks_stall (s : State) (i : Instr) : (s.stall i).walks = s.walks := rfl
@[simp] theorem State.ports_stall (s : State) (i : Instr) : (s.stall i).ports = s.ports := rfl
@[simp] theorem State.slots_stall (s : State) (i : Instr) : (s.stall i).slots = s.slots := rfl
@[simp] theorem State.sent_stall (s : State) (i : Instr) : (s.stall i).sent = s.sent := rfl
@[simp] theorem State.outbox_stall (s : State) (i : Instr) : (s.stall i).outbox = s.outbox := rfl
@[simp] theorem State.gatherings_stall (s : State) (i : Instr) : (s.stall i).gatherings = s.gatherings := rfl
@[simp] theorem State.contained_stall (s : State) (i : Instr) : (s.stall i).contained = s.contained := rfl
@[simp] theorem State.arrivals_stall (s : State) (i : Instr) : (s.stall i).arrivals = s.arrivals := rfl
@[simp] theorem State.platform_stall (s : State) (i : Instr) : (s.stall i).platform = s.platform := rfl
@[simp] theorem State.launchSeq_stall (s : State) (i : Instr) : (s.stall i).launchSeq = s.launchSeq := rfl
@[simp] theorem State.now_stall (s : State) (i : Instr) : (s.stall i).now = s.now := rfl
@[simp] theorem State.cpNow_stall (s : State) (i : Instr) : (s.stall i).cpNow = s.cpNow := rfl
@[simp] theorem State.portNow_stall (s : State) (i : Instr) : (s.stall i).portNow = s.portNow := rfl
@[simp] theorem State.cur_stall (s : State) (i : Instr) : (s.stall i).cur = s.cur := rfl
@[simp] theorem State.on_stall (s : State) (i : Instr) : (s.stall i).on = s.on := rfl
@[simp] theorem State.agenda_stall (s : State) (i : Instr) : (s.stall i).agenda = s.agenda := rfl
@[simp] theorem State.steps_stall (s : State) (i : Instr) : (s.stall i).steps = s.steps := rfl
@[simp] theorem State.free_stall (s : State) (i : Instr) : (s.stall i).free = s.free := rfl
@[simp] theorem State.fired_stall (s : State) (i : Instr) : (s.stall i).fired = s.fired := rfl
@[simp] theorem State.sends_stall (s : State) (i : Instr) : (s.stall i).sends = s.sends := rfl
@[simp] theorem State.made_stall (s : State) (i : Instr) : (s.stall i).made = s.made := rfl
@[simp] theorem State.hostReply_stall (s : State) (i : Instr) : (s.stall i).hostReply = s.hostReply := rfl

/-! ## writeQuiet -/

@[simp] theorem State.poison_writeQuiet (s : State) (k : Nat) (bs : List Byte) : (s.writeQuiet k bs).poison = s.poison := rfl
@[simp] theorem State.groups_writeQuiet (s : State) (k : Nat) (bs : List Byte) : (s.writeQuiet k bs).groups = s.groups := rfl
@[simp] theorem State.teams_writeQuiet (s : State) (k : Nat) (bs : List Byte) : (s.writeQuiet k bs).teams = s.teams := rfl
@[simp] theorem State.cores_writeQuiet (s : State) (k : Nat) (bs : List Byte) : (s.writeQuiet k bs).cores = s.cores := rfl
@[simp] theorem State.clusters_writeQuiet (s : State) (k : Nat) (bs : List Byte) : (s.writeQuiet k bs).clusters = s.clusters := rfl
@[simp] theorem State.vdevs_writeQuiet (s : State) (k : Nat) (bs : List Byte) : (s.writeQuiet k bs).vdevs = s.vdevs := rfl
@[simp] theorem State.launches_writeQuiet (s : State) (k : Nat) (bs : List Byte) : (s.writeQuiet k bs).launches = s.launches := rfl
@[simp] theorem State.granules_writeQuiet (s : State) (k : Nat) (bs : List Byte) : (s.writeQuiet k bs).granules = s.granules := rfl
@[simp] theorem State.gens_writeQuiet (s : State) (k : Nat) (bs : List Byte) : (s.writeQuiet k bs).gens = s.gens := rfl
@[simp] theorem State.copies_writeQuiet (s : State) (k : Nat) (bs : List Byte) : (s.writeQuiet k bs).copies = s.copies := rfl
@[simp] theorem State.claims_writeQuiet (s : State) (k : Nat) (bs : List Byte) : (s.writeQuiet k bs).claims = s.claims := rfl
@[simp] theorem State.pointers_writeQuiet (s : State) (k : Nat) (bs : List Byte) : (s.writeQuiet k bs).pointers = s.pointers := rfl
@[simp] theorem State.walks_writeQuiet (s : State) (k : Nat) (bs : List Byte) : (s.writeQuiet k bs).walks = s.walks := rfl
@[simp] theorem State.ports_writeQuiet (s : State) (k : Nat) (bs : List Byte) : (s.writeQuiet k bs).ports = s.ports := rfl
@[simp] theorem State.slots_writeQuiet (s : State) (k : Nat) (bs : List Byte) : (s.writeQuiet k bs).slots = s.slots := rfl
@[simp] theorem State.sent_writeQuiet (s : State) (k : Nat) (bs : List Byte) : (s.writeQuiet k bs).sent = s.sent := rfl
@[simp] theorem State.outbox_writeQuiet (s : State) (k : Nat) (bs : List Byte) : (s.writeQuiet k bs).outbox = s.outbox := rfl
@[simp] theorem State.gatherings_writeQuiet (s : State) (k : Nat) (bs : List Byte) : (s.writeQuiet k bs).gatherings = s.gatherings := rfl
@[simp] theorem State.contained_writeQuiet (s : State) (k : Nat) (bs : List Byte) : (s.writeQuiet k bs).contained = s.contained := rfl
@[simp] theorem State.arrivals_writeQuiet (s : State) (k : Nat) (bs : List Byte) : (s.writeQuiet k bs).arrivals = s.arrivals := rfl
@[simp] theorem State.platform_writeQuiet (s : State) (k : Nat) (bs : List Byte) : (s.writeQuiet k bs).platform = s.platform := rfl
@[simp] theorem State.launchSeq_writeQuiet (s : State) (k : Nat) (bs : List Byte) : (s.writeQuiet k bs).launchSeq = s.launchSeq := rfl
@[simp] theorem State.now_writeQuiet (s : State) (k : Nat) (bs : List Byte) : (s.writeQuiet k bs).now = s.now := rfl
@[simp] theorem State.cpNow_writeQuiet (s : State) (k : Nat) (bs : List Byte) : (s.writeQuiet k bs).cpNow = s.cpNow := rfl
@[simp] theorem State.portNow_writeQuiet (s : State) (k : Nat) (bs : List Byte) : (s.writeQuiet k bs).portNow = s.portNow := rfl
@[simp] theorem State.cur_writeQuiet (s : State) (k : Nat) (bs : List Byte) : (s.writeQuiet k bs).cur = s.cur := rfl
@[simp] theorem State.on_writeQuiet (s : State) (k : Nat) (bs : List Byte) : (s.writeQuiet k bs).on = s.on := rfl
@[simp] theorem State.agenda_writeQuiet (s : State) (k : Nat) (bs : List Byte) : (s.writeQuiet k bs).agenda = s.agenda := rfl
@[simp] theorem State.stalled_writeQuiet (s : State) (k : Nat) (bs : List Byte) : (s.writeQuiet k bs).stalled = s.stalled := rfl
@[simp] theorem State.steps_writeQuiet (s : State) (k : Nat) (bs : List Byte) : (s.writeQuiet k bs).steps = s.steps := rfl
@[simp] theorem State.free_writeQuiet (s : State) (k : Nat) (bs : List Byte) : (s.writeQuiet k bs).free = s.free := rfl
@[simp] theorem State.fired_writeQuiet (s : State) (k : Nat) (bs : List Byte) : (s.writeQuiet k bs).fired = s.fired := rfl
@[simp] theorem State.sends_writeQuiet (s : State) (k : Nat) (bs : List Byte) : (s.writeQuiet k bs).sends = s.sends := rfl
@[simp] theorem State.made_writeQuiet (s : State) (k : Nat) (bs : List Byte) : (s.writeQuiet k bs).made = s.made := rfl
@[simp] theorem State.hostReply_writeQuiet (s : State) (k : Nat) (bs : List Byte) : (s.writeQuiet k bs).hostReply = s.hostReply := rfl

/-! ## Reading a part after writing one -/

@[simp] theorem State.group_setGroup_same (s : State) (k : Nat) (x : Group) : (s.setGroup k x).group k = x := FMap.get_set_same _ _ _ _
theorem State.group_setGroup_other (s : State) {j k : Nat} (x : Group) (h : j ≠ k) : (s.setGroup k x).group j = s.group j :=
  FMap.get_set_other _ _ _ h
@[simp] theorem State.team_setTeam_same (s : State) (k : Nat) (x : Team) : (s.setTeam k x).team k = x := FMap.get_set_same _ _ _ _
theorem State.team_setTeam_other (s : State) {j k : Nat} (x : Team) (h : j ≠ k) : (s.setTeam k x).team j = s.team j :=
  FMap.get_set_other _ _ _ h
@[simp] theorem State.launch_setLaunch_same (s : State) (k : Nat) (x : Launch) : (s.setLaunch k x).launch k = x := FMap.get_set_same _ _ _ _
theorem State.launch_setLaunch_other (s : State) {j k : Nat} (x : Launch) (h : j ≠ k) : (s.setLaunch k x).launch j = s.launch j :=
  FMap.get_set_other _ _ _ h
@[simp] theorem State.vdev_setVdev_same (s : State) (k : Nat) (x : VDev) : (s.setVdev k x).vdev k = x := FMap.get_set_same _ _ _ _
theorem State.vdev_setVdev_other (s : State) {j k : Nat} (x : VDev) (h : j ≠ k) : (s.setVdev k x).vdev j = s.vdev j :=
  FMap.get_set_other _ _ _ h
@[simp] theorem State.core_setCore_same (s : State) (k : Nat) (x : Core) : (s.setCore k x).core k = x := FMap.get_set_same _ _ _ _
theorem State.core_setCore_other (s : State) {j k : Nat} (x : Core) (h : j ≠ k) : (s.setCore k x).core j = s.core j :=
  FMap.get_set_other _ _ _ h
@[simp] theorem State.cluster_setCluster_same (s : State) (k : Nat) (x : Cluster) : (s.setCluster k x).cluster k = x := FMap.get_set_same _ _ _ _
theorem State.cluster_setCluster_other (s : State) {j k : Nat} (x : Cluster) (h : j ≠ k) : (s.setCluster k x).cluster j = s.cluster j :=
  FMap.get_set_other _ _ _ h
@[simp] theorem State.port_setPort_same (s : State) (k : Nat) (x : Port) : (s.setPort k x).port k = x := FMap.get_set_same _ _ _ _
theorem State.port_setPort_other (s : State) {j k : Nat} (x : Port) (h : j ≠ k) : (s.setPort k x).port j = s.port j :=
  FMap.get_set_other _ _ _ h
@[simp] theorem State.slot_setSlot_same (s : State) (k : Nat) (x : TagSlot) : (s.setSlot k x).slot k = x := FMap.get_set_same _ _ _ _
theorem State.slot_setSlot_other (s : State) {j k : Nat} (x : TagSlot) (h : j ≠ k) : (s.setSlot k x).slot j = s.slot j :=
  FMap.get_set_other _ _ _ h
@[simp] theorem State.team_setGroup (s : State) (k : Nat) (g : Group) (j : Nat) : (s.setGroup k g).team j = s.team j := rfl
@[simp] theorem State.launch_setGroup (s : State) (k : Nat) (g : Group) (j : Nat) : (s.setGroup k g).launch j = s.launch j := rfl
@[simp] theorem State.vdev_setGroup (s : State) (k : Nat) (g : Group) (j : Nat) : (s.setGroup k g).vdev j = s.vdev j := rfl
@[simp] theorem State.core_setGroup (s : State) (k : Nat) (g : Group) (j : Nat) : (s.setGroup k g).core j = s.core j := rfl
@[simp] theorem State.cluster_setGroup (s : State) (k : Nat) (g : Group) (j : Nat) : (s.setGroup k g).cluster j = s.cluster j := rfl
@[simp] theorem State.port_setGroup (s : State) (k : Nat) (g : Group) (j : Nat) : (s.setGroup k g).port j = s.port j := rfl
@[simp] theorem State.slot_setGroup (s : State) (k : Nat) (g : Group) (j : Nat) : (s.setGroup k g).slot j = s.slot j := rfl
@[simp] theorem State.team_setGrp (s : State) (g : Group) (j : Nat) : (s.setGrp g).team j = s.team j := rfl
@[simp] theorem State.launch_setGrp (s : State) (g : Group) (j : Nat) : (s.setGrp g).launch j = s.launch j := rfl
@[simp] theorem State.vdev_setGrp (s : State) (g : Group) (j : Nat) : (s.setGrp g).vdev j = s.vdev j := rfl
@[simp] theorem State.core_setGrp (s : State) (g : Group) (j : Nat) : (s.setGrp g).core j = s.core j := rfl
@[simp] theorem State.cluster_setGrp (s : State) (g : Group) (j : Nat) : (s.setGrp g).cluster j = s.cluster j := rfl
@[simp] theorem State.port_setGrp (s : State) (g : Group) (j : Nat) : (s.setGrp g).port j = s.port j := rfl
@[simp] theorem State.slot_setGrp (s : State) (g : Group) (j : Nat) : (s.setGrp g).slot j = s.slot j := rfl
@[simp] theorem State.group_setTeam (s : State) (k : Nat) (t : Team) (j : Nat) : (s.setTeam k t).group j = s.group j := rfl
@[simp] theorem State.launch_setTeam (s : State) (k : Nat) (t : Team) (j : Nat) : (s.setTeam k t).launch j = s.launch j := rfl
@[simp] theorem State.vdev_setTeam (s : State) (k : Nat) (t : Team) (j : Nat) : (s.setTeam k t).vdev j = s.vdev j := rfl
@[simp] theorem State.core_setTeam (s : State) (k : Nat) (t : Team) (j : Nat) : (s.setTeam k t).core j = s.core j := rfl
@[simp] theorem State.cluster_setTeam (s : State) (k : Nat) (t : Team) (j : Nat) : (s.setTeam k t).cluster j = s.cluster j := rfl
@[simp] theorem State.port_setTeam (s : State) (k : Nat) (t : Team) (j : Nat) : (s.setTeam k t).port j = s.port j := rfl
@[simp] theorem State.slot_setTeam (s : State) (k : Nat) (t : Team) (j : Nat) : (s.setTeam k t).slot j = s.slot j := rfl
@[simp] theorem State.group_setLaunch (s : State) (k : Nat) (l : Launch) (j : Nat) : (s.setLaunch k l).group j = s.group j := rfl
@[simp] theorem State.team_setLaunch (s : State) (k : Nat) (l : Launch) (j : Nat) : (s.setLaunch k l).team j = s.team j := rfl
@[simp] theorem State.vdev_setLaunch (s : State) (k : Nat) (l : Launch) (j : Nat) : (s.setLaunch k l).vdev j = s.vdev j := rfl
@[simp] theorem State.core_setLaunch (s : State) (k : Nat) (l : Launch) (j : Nat) : (s.setLaunch k l).core j = s.core j := rfl
@[simp] theorem State.cluster_setLaunch (s : State) (k : Nat) (l : Launch) (j : Nat) : (s.setLaunch k l).cluster j = s.cluster j := rfl
@[simp] theorem State.port_setLaunch (s : State) (k : Nat) (l : Launch) (j : Nat) : (s.setLaunch k l).port j = s.port j := rfl
@[simp] theorem State.slot_setLaunch (s : State) (k : Nat) (l : Launch) (j : Nat) : (s.setLaunch k l).slot j = s.slot j := rfl
@[simp] theorem State.group_setVdev (s : State) (k : Nat) (v : VDev) (j : Nat) : (s.setVdev k v).group j = s.group j := rfl
@[simp] theorem State.team_setVdev (s : State) (k : Nat) (v : VDev) (j : Nat) : (s.setVdev k v).team j = s.team j := rfl
@[simp] theorem State.launch_setVdev (s : State) (k : Nat) (v : VDev) (j : Nat) : (s.setVdev k v).launch j = s.launch j := rfl
@[simp] theorem State.core_setVdev (s : State) (k : Nat) (v : VDev) (j : Nat) : (s.setVdev k v).core j = s.core j := rfl
@[simp] theorem State.cluster_setVdev (s : State) (k : Nat) (v : VDev) (j : Nat) : (s.setVdev k v).cluster j = s.cluster j := rfl
@[simp] theorem State.port_setVdev (s : State) (k : Nat) (v : VDev) (j : Nat) : (s.setVdev k v).port j = s.port j := rfl
@[simp] theorem State.slot_setVdev (s : State) (k : Nat) (v : VDev) (j : Nat) : (s.setVdev k v).slot j = s.slot j := rfl
@[simp] theorem State.group_setCore (s : State) (k : Nat) (x : Core) (j : Nat) : (s.setCore k x).group j = s.group j := rfl
@[simp] theorem State.team_setCore (s : State) (k : Nat) (x : Core) (j : Nat) : (s.setCore k x).team j = s.team j := rfl
@[simp] theorem State.launch_setCore (s : State) (k : Nat) (x : Core) (j : Nat) : (s.setCore k x).launch j = s.launch j := rfl
@[simp] theorem State.vdev_setCore (s : State) (k : Nat) (x : Core) (j : Nat) : (s.setCore k x).vdev j = s.vdev j := rfl
@[simp] theorem State.cluster_setCore (s : State) (k : Nat) (x : Core) (j : Nat) : (s.setCore k x).cluster j = s.cluster j := rfl
@[simp] theorem State.port_setCore (s : State) (k : Nat) (x : Core) (j : Nat) : (s.setCore k x).port j = s.port j := rfl
@[simp] theorem State.slot_setCore (s : State) (k : Nat) (x : Core) (j : Nat) : (s.setCore k x).slot j = s.slot j := rfl
@[simp] theorem State.group_setCluster (s : State) (k : Nat) (x : Cluster) (j : Nat) : (s.setCluster k x).group j = s.group j := rfl
@[simp] theorem State.team_setCluster (s : State) (k : Nat) (x : Cluster) (j : Nat) : (s.setCluster k x).team j = s.team j := rfl
@[simp] theorem State.launch_setCluster (s : State) (k : Nat) (x : Cluster) (j : Nat) : (s.setCluster k x).launch j = s.launch j := rfl
@[simp] theorem State.vdev_setCluster (s : State) (k : Nat) (x : Cluster) (j : Nat) : (s.setCluster k x).vdev j = s.vdev j := rfl
@[simp] theorem State.core_setCluster (s : State) (k : Nat) (x : Cluster) (j : Nat) : (s.setCluster k x).core j = s.core j := rfl
@[simp] theorem State.port_setCluster (s : State) (k : Nat) (x : Cluster) (j : Nat) : (s.setCluster k x).port j = s.port j := rfl
@[simp] theorem State.slot_setCluster (s : State) (k : Nat) (x : Cluster) (j : Nat) : (s.setCluster k x).slot j = s.slot j := rfl
@[simp] theorem State.group_setPort (s : State) (k : Nat) (x : Port) (j : Nat) : (s.setPort k x).group j = s.group j := rfl
@[simp] theorem State.team_setPort (s : State) (k : Nat) (x : Port) (j : Nat) : (s.setPort k x).team j = s.team j := rfl
@[simp] theorem State.launch_setPort (s : State) (k : Nat) (x : Port) (j : Nat) : (s.setPort k x).launch j = s.launch j := rfl
@[simp] theorem State.vdev_setPort (s : State) (k : Nat) (x : Port) (j : Nat) : (s.setPort k x).vdev j = s.vdev j := rfl
@[simp] theorem State.core_setPort (s : State) (k : Nat) (x : Port) (j : Nat) : (s.setPort k x).core j = s.core j := rfl
@[simp] theorem State.cluster_setPort (s : State) (k : Nat) (x : Port) (j : Nat) : (s.setPort k x).cluster j = s.cluster j := rfl
@[simp] theorem State.slot_setPort (s : State) (k : Nat) (x : Port) (j : Nat) : (s.setPort k x).slot j = s.slot j := rfl
@[simp] theorem State.group_setSlot (s : State) (k : Nat) (x : TagSlot) (j : Nat) : (s.setSlot k x).group j = s.group j := rfl
@[simp] theorem State.team_setSlot (s : State) (k : Nat) (x : TagSlot) (j : Nat) : (s.setSlot k x).team j = s.team j := rfl
@[simp] theorem State.launch_setSlot (s : State) (k : Nat) (x : TagSlot) (j : Nat) : (s.setSlot k x).launch j = s.launch j := rfl
@[simp] theorem State.vdev_setSlot (s : State) (k : Nat) (x : TagSlot) (j : Nat) : (s.setSlot k x).vdev j = s.vdev j := rfl
@[simp] theorem State.core_setSlot (s : State) (k : Nat) (x : TagSlot) (j : Nat) : (s.setSlot k x).core j = s.core j := rfl
@[simp] theorem State.cluster_setSlot (s : State) (k : Nat) (x : TagSlot) (j : Nat) : (s.setSlot k x).cluster j = s.cluster j := rfl
@[simp] theorem State.port_setSlot (s : State) (k : Nat) (x : TagSlot) (j : Nat) : (s.setSlot k x).port j = s.port j := rfl
@[simp] theorem State.group_fire (s : State) (j : Nat) : (s.fire).group j = s.group j := rfl
@[simp] theorem State.team_fire (s : State) (j : Nat) : (s.fire).team j = s.team j := rfl
@[simp] theorem State.launch_fire (s : State) (j : Nat) : (s.fire).launch j = s.launch j := rfl
@[simp] theorem State.vdev_fire (s : State) (j : Nat) : (s.fire).vdev j = s.vdev j := rfl
@[simp] theorem State.core_fire (s : State) (j : Nat) : (s.fire).core j = s.core j := rfl
@[simp] theorem State.cluster_fire (s : State) (j : Nat) : (s.fire).cluster j = s.cluster j := rfl
@[simp] theorem State.port_fire (s : State) (j : Nat) : (s.fire).port j = s.port j := rfl
@[simp] theorem State.slot_fire (s : State) (j : Nat) : (s.fire).slot j = s.slot j := rfl
@[simp] theorem State.group_draw (s : State) (j : Nat) : (s.draw).group j = s.group j := rfl
@[simp] theorem State.team_draw (s : State) (j : Nat) : (s.draw).team j = s.team j := rfl
@[simp] theorem State.launch_draw (s : State) (j : Nat) : (s.draw).launch j = s.launch j := rfl
@[simp] theorem State.vdev_draw (s : State) (j : Nat) : (s.draw).vdev j = s.vdev j := rfl
@[simp] theorem State.core_draw (s : State) (j : Nat) : (s.draw).core j = s.core j := rfl
@[simp] theorem State.cluster_draw (s : State) (j : Nat) : (s.draw).cluster j = s.cluster j := rfl
@[simp] theorem State.port_draw (s : State) (j : Nat) : (s.draw).port j = s.port j := rfl
@[simp] theorem State.slot_draw (s : State) (j : Nat) : (s.draw).slot j = s.slot j := rfl
@[simp] theorem State.team_stall (s : State) (i : Instr) (j : Nat) : (s.stall i).team j = s.team j := rfl
@[simp] theorem State.launch_stall (s : State) (i : Instr) (j : Nat) : (s.stall i).launch j = s.launch j := rfl
@[simp] theorem State.vdev_stall (s : State) (i : Instr) (j : Nat) : (s.stall i).vdev j = s.vdev j := rfl
@[simp] theorem State.core_stall (s : State) (i : Instr) (j : Nat) : (s.stall i).core j = s.core j := rfl
@[simp] theorem State.cluster_stall (s : State) (i : Instr) (j : Nat) : (s.stall i).cluster j = s.cluster j := rfl
@[simp] theorem State.port_stall (s : State) (i : Instr) (j : Nat) : (s.stall i).port j = s.port j := rfl
@[simp] theorem State.slot_stall (s : State) (i : Instr) (j : Nat) : (s.stall i).slot j = s.slot j := rfl
@[simp] theorem State.group_writeQuiet (s : State) (k : Nat) (bs : List Byte) (j : Nat) : (s.writeQuiet k bs).group j = s.group j := rfl
@[simp] theorem State.team_writeQuiet (s : State) (k : Nat) (bs : List Byte) (j : Nat) : (s.writeQuiet k bs).team j = s.team j := rfl
@[simp] theorem State.launch_writeQuiet (s : State) (k : Nat) (bs : List Byte) (j : Nat) : (s.writeQuiet k bs).launch j = s.launch j := rfl
@[simp] theorem State.vdev_writeQuiet (s : State) (k : Nat) (bs : List Byte) (j : Nat) : (s.writeQuiet k bs).vdev j = s.vdev j := rfl
@[simp] theorem State.core_writeQuiet (s : State) (k : Nat) (bs : List Byte) (j : Nat) : (s.writeQuiet k bs).core j = s.core j := rfl
@[simp] theorem State.cluster_writeQuiet (s : State) (k : Nat) (bs : List Byte) (j : Nat) : (s.writeQuiet k bs).cluster j = s.cluster j := rfl
@[simp] theorem State.port_writeQuiet (s : State) (k : Nat) (bs : List Byte) (j : Nat) : (s.writeQuiet k bs).port j = s.port j := rfl
@[simp] theorem State.slot_writeQuiet (s : State) (k : Nat) (bs : List Byte) (j : Nat) : (s.writeQuiet k bs).slot j = s.slot j := rfl

end Sys2Proof.Machine
end

