-- ==== Sys2Proof/Laws/Words.lean ====
section
/-! SUPPORT. What a lane-set word and a group-set word do, once: the path of a word that is ready. -/

namespace Sys2Proof.Machine

/-! ## The executing group -/

@[simp] theorem State.grp_setGrp (s : State) (g : Group) : (s.setGrp g).grp = g := by
  simp [State.grp, State.setGrp, State.setGroup, State.group]
@[simp] theorem State.cur_setGrp (s : State) (g : Group) : (s.setGrp g).cur = s.cur := rfl
@[simp] theorem State.setGrp_setGrp (s : State) (a b : Group) : (s.setGrp a).setGrp b = s.setGrp b := by
  simp [State.setGrp, State.setGroup]

/-- A group with a thread is listed. -/
theorem State.listed (s : State) (h : s.grp.threads ≠ []) : s.groups.find s.cur = some s.grp := by
  simp only [State.grp, State.group, FMap.get_eq_find] at h ⊢
  cases hf : s.groups.find s.cur with
  | none => rw [hf] at h; exact absurd rfl h
  | some g => rfl

theorem State.setGrp_grp (s : State) (ho : s.inOrder = true) (h : s.grp.threads ≠ []) : s.setGrp s.grp = s := by
  simp only [State.inOrder, Bool.and_eq_true] at ho
  have := FMap.set_find ho.1.1 (s.listed h)
  simp only [State.setGrp, State.setGroup]
  rw [this]

theorem Group.headPc_nil (g : Group) (h : g.threads = []) : g.headPc = none := by
  simp [Group.headPc, h]

theorem Group.run_nil (g : Group) (h : g.threads = []) : g.run = [] := by
  simp [Group.run, Group.headPc_nil g h]

theorem Group.threads_of_run (g : Group) (h : g.run ≠ []) : g.threads ≠ [] := fun e => h (g.run_nil e)

/-! ## Pops -/

/-- Taking sources changes nothing but the queues of the executing group. -/
theorem State.take_eq (s : State) (os : List Opnd) :
    (s.take os).2 = s ∨ ∃ qs, (s.take os).2 = s.setGrp { s.grp with queues := qs } := by
  induction os generalizing s with
  | nil => exact .inl rfl
  | cons o r ih =>
    cases o with
    | reg n => exact ih s
    | port q =>
      simp only [State.take]
      split
      · exact ih s
      · rcases ih (s.popPort q.val) with h | ⟨qs, h⟩
        · refine .inr ⟨(s.grp.setQueue q.val (s.grp.queue q.val).popped).queues, ?_⟩
          rw [h]; rfl
        · refine .inr ⟨qs, ?_⟩
          rw [h]
          simp [State.popPort, Group.setQueue]

theorem State.take_regs (s : State) (os : List Opnd) (h : os.all (fun o => !o.isPort) = true) :
    s.take os = (os.map (fun o => Taken.reg (regNum o)), s) := by
  induction os with
  | nil => rfl
  | cons o r ih =>
    simp only [List.all_cons, Bool.and_eq_true] at h
    cases o with
    | reg n => simp [State.take, ih h.2, regNum]
    | port q => simp [Opnd.isPort] at h

theorem State.take_cur (s : State) (os : List Opnd) : (s.take os).2.cur = s.cur := by
  rcases s.take_eq os with h | ⟨qs, h⟩ <;> rw [h] <;> rfl

theorem State.take_threads (s : State) (os : List Opnd) : (s.take os).2.grp.threads = s.grp.threads := by
  rcases s.take_eq os with h | ⟨qs, h⟩ <;> simp [h]

theorem State.take_hint (s : State) (os : List Opnd) : (s.take os).2.grp.hint = s.grp.hint := by
  rcases s.take_eq os with h | ⟨qs, h⟩ <;> simp [h]

theorem State.take_inOrder (s : State) (os : List Opnd) (h : s.inOrder = true) : (s.take os).2.inOrder = true := by
  simp only [State.inOrder, Bool.and_eq_true, State.take_threads, State.take_hint] at h ⊢
  refine ⟨⟨?_, h.1.2⟩, h.2⟩
  rcases s.take_eq os with e | ⟨qs, e⟩
  · rw [e]; exact h.1.1
  · rw [e]; exact FMap.rising_set _ _ h.1.1

/-! ## The end of a word -/

/-- A word whose group no signal counts ends so. -/
theorem State.finish_eq (s : State) (h : s.grp.hint = none) : s.finish = s.performed s.grp := by
  have hu : s.unhint s.cur = s := by
    unfold State.unhint
    rw [show (s.group s.cur).hint = none from h]
  simp only [State.finish, hu, State.performed, State.fire, State.setGrp, State.setGroup, Group.ended]

theorem State.finish_setGrp (s : State) (g : Group) (h : g.hint = none) : (s.setGrp g).finish = s.performed g := by
  rw [State.finish_eq _ (by simpa using h), State.grp_setGrp]
  simp [State.performed, State.setGrp, State.setGroup]

/-! ## Lane-set words -/

theorem LaneWord.acting_sub (w : LaneWord) (g : Group) : ∀ t ∈ w.acting g, t ∈ g.run :=
  fun _ h => (List.mem_filter.mp h).1

/-- Sources that all can be read park nobody. -/
theorem Group.parkBySources_ready (g g0 : Group) (ts : List Nat) (os : List Src) (ho : g.threads.rising = true)
    (h0 : g.threads = g0.threads) (h : ts.all (fun t => g0.threadVerdict (g0.thread t) os == .run) = true) :
    g.parkBySources g0 ts os = g := by
  unfold Group.parkBySources Group.mapThreads
  rw [FMap.mapKV_id]
  intro p hp
  split
  · next hc =>
    have hm : p.1 ∈ ts := by simpa using hc
    have hv := List.all_eq_true.mp h p.1 hm
    have hx : g0.thread p.1 = p.2 := by
      simp only [Group.thread, ← h0]
      exact FMap.get_of_mem ho hp _
    rw [hx] at hv
    have hv : g0.threadVerdict p.2 os = .run := by simpa using hv
    simp [hv]
  · rfl

/-- A lane-set word that is ready: its pops, then its effect, then each thread's next PC. -/
theorem State.laneWordM_ready (s : State) (i : Instr) (w : LaneWord) (body : State → List Nat → List Taken → Option State)
    (h : s.laneReady w = true) :
    s.laneWordM i w body =
      match body (s.take (w.srcs.map (·.o))).2 (w.acting s.grp) (s.take (w.srcs.map (·.o))).1 with
      | none => s.stall i
      | some s2 =>
        (s2.setGrp (s2.grp.advanceThreads
          (if w.moves then s.grp.run.filter (fun t => !(w.acting s.grp).contains t) else s.grp.run))).finish := by
  simp only [State.laneReady, Bool.and_eq_true, Bool.not_eq_true', beq_iff_eq] at h
  obtain ⟨⟨⟨⟨⟨⟨⟨⟨ho, ht⟩, hr⟩, hs⟩, ha⟩, hp⟩, hd⟩, hc⟩, hroom⟩ := h
  have hrun : s.grp.run ≠ [] := by
    intro e; rw [e] at hr; simp at hr
  have hth := s.grp.threads_of_run hrun
  have hable : (w.acting s.grp).filter (fun t => s.grp.threadVerdict (s.grp.thread t) w.allSrcs == .run) = w.acting s.grp :=
    List.filter_eq_self.mpr (fun t htm => List.all_eq_true.mp ha t htm)
  have hord := s.take_inOrder (w.srcs.map (·.o)) ho
  have hpark : (s.take (w.srcs.map (·.o))).2.setGrp
      ((s.take (w.srcs.map (·.o))).2.grp.parkBySources s.grp (w.acting s.grp) w.allSrcs) = (s.take (w.srcs.map (·.o))).2 := by
    rw [Group.parkBySources_ready _ _ _ _ _ (s.take_threads _) ha]
    · exact State.setGrp_grp _ hord (by rw [s.take_threads]; exact hth)
    · simp only [State.inOrder, Bool.and_eq_true] at hord; exact hord.1.2
  unfold State.laneWordM
  simp only [LaneWord.acting] at *
  simp only [ht, hr, hs, hp, hd, hc, hable, Bool.and_not_self, Bool.or_false, Bool.false_eq_true, if_false,
    Bool.not_true, hpark, hroom]
  all_goals (cases body (s.take (w.srcs.map (·.o))).2 (s.grp.run.filter (fun t => w.guard (s.grp.thread t))) (s.take (w.srcs.map (·.o))).1 <;> rfl)

/-- The same for a word whose effect waits for no target. -/
theorem State.laneWord_ready (s : State) (i : Instr) (w : LaneWord) (body : State → List Nat → List Taken → State)
    (h : s.laneReady w = true) :
    s.laneWord i w body =
      (let s2 := body (s.take (w.srcs.map (·.o))).2 (w.acting s.grp) (s.take (w.srcs.map (·.o))).1
       (s2.setGrp (s2.grp.advanceThreads
          (if w.moves then s.grp.run.filter (fun t => !(w.acting s.grp).contains t) else s.grp.run))).finish) := by
  unfold State.laneWord
  rw [State.laneWordM_ready _ _ _ _ h]

theorem Group.mem_run {g : Group} (ho : g.threads.rising = true) {p : Nat × Thread} (hp : p ∈ g.threads) (h : p.1 ∈ g.run) :
    p.2.st = .ready := by
  unfold Group.run at h
  split at h
  · simp at h
  · obtain ⟨v, hv, hpv⟩ := FMap.mem_keysWhere.mp h
    have h1 := FMap.find_of_mem ho hp
    have h2 := FMap.find_of_mem ho hv
    simp only at h2
    rw [h1] at h2
    cases h2
    simp only [Bool.and_eq_true, beq_iff_eq] at hpv
    exact hpv.1

@[simp] theorem Thread.st_tidy (x : Thread) : x.tidy.st = x.st := by unfold Thread.tidy; split <;> rfl
@[simp] theorem Thread.pc_tidy (x : Thread) : x.tidy.pc = x.pc := by unfold Thread.tidy; split <;> rfl
@[simp] theorem Thread.st_setState (x : Thread) (r : Nat) (f : Full) : (x.setState r f).st = x.st := by
  unfold Thread.setState; split <;> simp
@[simp] theorem Thread.pc_setState (x : Thread) (r : Nat) (f : Full) : (x.setState r f).pc = x.pc := by
  unfold Thread.setState; split <;> simp
@[simp] theorem Thread.st_write (x : Thread) (r : Nat) (w : W32) : (x.write r w).st = x.st := by simp [Thread.write]
@[simp] theorem Thread.pc_write (x : Thread) (r : Nat) (w : W32) : (x.write r w).pc = x.pc := by simp [Thread.write]
@[simp] theorem Thread.st_setPred (x : Thread) (p : Fin 8) (b : Bool) : (x.setPred p b).st = x.st := by
  unfold Thread.setPred; split <;> rfl

/-- An effect that keeps the acting threads READY, then the advance of the run. -/
theorem Group.advance_mapThreads (g : Group) (ts : List Nat) (f : Nat → Thread → Thread) (ho : g.threads.rising = true)
    (hs : ∀ t ∈ ts, t ∈ g.run) (hf : ∀ t x, (f t x).st = x.st) :
    (g.mapThreads ts f).advanceThreads g.run = g.stepRun ts f := by
  simp only [Group.advanceThreads, Group.mapThreads, Group.stepRun, FMap.mapKV_mapKV]
  congr 1
  apply FMap.mapKV_congr
  intro p hp
  by_cases hr : p.1 ∈ g.run
  · have hst := Group.mem_run ho hp hr
    by_cases ht : p.1 ∈ ts <;> simp [hr, ht, hf, hst]
  · have ht : p.1 ∉ ts := fun h => hr (hs _ h)
    simp [hr, ht]

theorem Group.advance_run (g : Group) (ts : List Nat) (ho : g.threads.rising = true) :
    g.advanceThreads g.run = g.stepRun ts (fun _ x => x) := by
  simp only [Group.advanceThreads, Group.mapThreads, Group.stepRun]
  congr 1
  apply FMap.mapKV_congr
  intro p hp
  by_cases hr : p.1 ∈ g.run
  · have hst := Group.mem_run ho hp hr
    simp [hr, hst]
  · simp [hr]

theorem Group.run_congr (a b : Group) (h : a.threads = b.threads) : a.run = b.run := by
  simp only [Group.run, Group.headPc, h]

theorem State.take_run (s : State) (os : List Opnd) : (s.take os).2.grp.run = s.grp.run :=
  Group.run_congr _ _ (s.take_threads os)

theorem State.portHome_grp (s : State) (q : Nat) (e : QEntry) : (s.pushPort q e).cur = s.cur := rfl

/-- A push changes only a queue. -/
theorem State.pushPort_threads (s : State) (q : Nat) (e : QEntry) : (s.pushPort q e).grp.threads = s.grp.threads := by
  simp only [State.pushPort, State.grp, State.setGroup, State.group]
  by_cases h : s.cur = (s.portHome s.cur q).1
  · rw [← h]; simp [Group.setQueue]
  · rw [FMap.get_set_other _ _ _ h]

theorem State.pushPort_hint (s : State) (q : Nat) (e : QEntry) : (s.pushPort q e).grp.hint = s.grp.hint := by
  simp only [State.pushPort, State.grp, State.setGroup, State.group]
  by_cases h : s.cur = (s.portHome s.cur q).1
  · rw [← h]; simp [Group.setQueue]
  · rw [FMap.get_set_other _ _ _ h]

theorem Group.stepRun_hint (g : Group) (ts : List Nat) (f : Nat → Thread → Thread) : (g.stepRun ts f).hint = g.hint := rfl

theorem State.inOrder_hint {s : State} (h : s.inOrder = true) : s.grp.hint = none := by
  simp only [State.inOrder, Bool.and_eq_true] at h
  simpa using h.2

theorem State.inOrder_threads {s : State} (h : s.inOrder = true) : s.grp.threads.rising = true := by
  simp only [State.inOrder, Bool.and_eq_true] at h
  exact h.1.2

theorem LaneWord.ready_inOrder {s : State} {w : LaneWord} (h : s.laneReady w = true) : s.inOrder = true := by
  simp only [State.laneReady, Bool.and_eq_true] at h
  exact h.1.1.1.1.1.1.1.1

theorem LaneWord.ready_run {s : State} {w : LaneWord} (h : s.laneReady w = true) : s.grp.run ≠ [] := by
  simp only [State.laneReady, Bool.and_eq_true] at h
  intro e
  have := h.1.1.1.1.1.1.2
  rw [e] at this
  simp at this

/-- A ready lane-set word that writes one value per acting thread and raises their conditions. -/
theorem State.laneWord_rule (s : State) (i : Instr) (r : LaneRule) (f : State → List Taken → Nat → W32 × FFlags)
    (h : s.laneReady r.word = true) (hm : r.word.moves = false)
    (hf : ∀ t, f (s.take (r.word.srcs.map (·.o))).2 (s.take (r.word.srcs.map (·.o))).1 t = r.val s t) :
    s.laneWord i r.word (fun s1 ts k => s1.writeLaneF r.d ts (f s1 k)) = s.laneResult r := by
  rw [State.laneWord_ready _ _ _ _ h]
  have ho := s.take_inOrder (r.word.srcs.map (·.o)) (LaneWord.ready_inOrder h)
  have hsub := r.word.acting_sub s.grp
  simp only [hm, Bool.false_eq_true, if_false, State.writeLaneF, hf, State.laneResult]
  generalize hs1 : (s.take (r.word.srcs.map (·.o))).2 = s1 at ho ⊢
  have hrun : s.grp.run = s1.grp.run := by rw [← hs1, s.take_run]
  generalize r.val s = v at *
  generalize hts : r.word.acting s.grp = ts at *
  generalize hfl : flagsOf ts (fun t => (v t).2) = fl
  have hr2 : (s1.setGrp (s1.grp.raise fl)).grp.run = s1.grp.run := Group.run_congr _ _ (by simp [Group.raise])
  have ht2 : (s1.setGrp (s1.grp.raise fl)).grp.threads.rising = true := by simpa [Group.raise] using State.inOrder_threads ho
  have hh2 : (s1.setGrp (s1.grp.raise fl)).grp.hint = none := by simpa [Group.raise] using State.inOrder_hint ho
  generalize hg2 : s1.setGrp (s1.grp.raise fl) = s2 at hr2 ht2 hh2 ⊢
  cases hd : r.d with
  | reg n =>
    simp only [State.writeLane]
    have hsub2 : ∀ t ∈ ts, t ∈ s2.grp.run := by rw [hr2, ← hrun]; exact hsub
    rw [State.setGrp_setGrp, State.grp_setGrp, hrun, ← hr2,
      Group.advance_mapThreads _ _ _ ht2 hsub2 (by simp)]
    exact State.finish_setGrp _ _ (by rw [Group.stepRun_hint]; exact hh2)
  | port q =>
    simp only [State.writeLane]
    generalize hs3 : s2.pushPort q.val _ = s3
    have hr3 : s3.grp.run = s2.grp.run := Group.run_congr _ _ (by rw [← hs3, State.pushPort_threads])
    rw [hrun, ← hr2, ← hr3, Group.advance_run _ ts (by rw [← hs3, State.pushPort_threads]; exact ht2)]
    exact State.finish_setGrp _ _ (by rw [Group.stepRun_hint, ← hs3, State.pushPort_hint]; exact hh2)

theorem FFlags.bits_none : ({} : FFlags).bits = 0 := by decide

theorem flagsOf_none (ts : List Nat) : flagsOf ts (fun _ => {}) = {} := by
  have : ∀ (l : List Nat) (a : FFlags), l.foldl (fun a _ => a.or {}) a = a := by
    intro l
    induction l with
    | nil => intro a; rfl
    | cons t r ih => intro a; simp only [List.foldl_cons]; rw [ih]; simp [FFlags.or]
  exact this ts {}

theorem Group.raise_none (g : Group) : g.raise {} = g := by simp [Group.raise, FFlags.bits_none]

/-- A write without conditions, where the group is listed. -/
theorem State.writeLane_eq (s : State) (d : Opnd) (ts : List Nat) (f : Nat → W32) (ho : s.inOrder = true)
    (h : s.grp.threads ≠ []) : s.writeLane d ts f = s.writeLaneF d ts (fun t => (f t, {})) := by
  simp only [State.writeLaneF, flagsOf_none, Group.raise_none, State.setGrp_grp s ho h]

/-- A ready lane-set word that writes one value per acting thread and raises nothing. -/
theorem State.laneWord_value (s : State) (i : Instr) (r : LaneRule) (f : State → List Taken → Nat → W32)
    (h : s.laneReady r.word = true) (hm : r.word.moves = false)
    (hf : ∀ t, (f (s.take (r.word.srcs.map (·.o))).2 (s.take (r.word.srcs.map (·.o))).1 t, {}) = r.val s t) :
    s.laneWord i r.word (fun s1 ts k => s1.writeLane r.d ts (f s1 k)) = s.laneResult r := by
  rw [← State.laneWord_rule s i r (fun s1 k t => (f s1 k t, {})) h hm hf,
    State.laneWord_ready _ _ _ _ h, State.laneWord_ready _ _ _ _ h]
  simp only
  rw [State.writeLane_eq _ _ _ _ (s.take_inOrder _ (LaneWord.ready_inOrder h))
    (by rw [s.take_threads]; exact s.grp.threads_of_run (LaneWord.ready_run h))]

/-- The `n`-th value read, as an element of the list of values. -/
theorem State.lv_take (s : State) (os : List Opnd) (n t : Nat) :
    (s.take os).2.lv (s.take os).1 n t = ((s.take os).1.map (fun k => k.lane (s.grp.thread t) t)).getD n 0 := by
  simp only [State.lv, Group.thread, s.take_threads, List.getD_eq_getElem?_getD, List.getElem?_map]
  cases (s.take os).1[n]? <;> rfl

/-- A ready lane-set word whose effect is on its threads: `h` is the effect, and a thread that it leaves READY goes on, unless the word
gives the PCs itself. -/
theorem State.laneWord_threads (s : State) (i : Instr) (w : LaneWord) (h : State → List Taken → Nat → Thread → Thread)
    (f : Group → List W32 → Nat → Thread → Thread) (hr : s.laneReady w = true)
    (hf : ∀ p ∈ s.grp.threads, p.1 ∈ w.acting s.grp →
      f (s.take (w.srcs.map (·.o))).2.grp
        ((s.take (w.srcs.map (·.o))).1.map (fun k => k.lane (s.grp.thread p.1) p.1)) p.1 p.2 =
      (let y := h (s.take (w.srcs.map (·.o))).2 (s.take (w.srcs.map (·.o))).1 p.1 p.2
       if w.moves then y else if y.st = .ready then { y with pc := y.pc + 4 } else y)) :
    s.laneWord i w (fun s1 ts k => s1.setGrp (s1.grp.mapThreads ts (h s1 k))) = s.laneThreads w f := by
  rw [State.laneWord_ready _ _ _ _ hr]
  have ho := s.take_inOrder (w.srcs.map (·.o)) (LaneWord.ready_inOrder hr)
  have hsub := w.acting_sub s.grp
  simp only [State.laneThreads, State.grp_setGrp, State.setGrp_setGrp]
  rw [State.finish_setGrp _ _ (by simpa [Group.advanceThreads, Group.mapThreads] using State.inOrder_hint ho)]
  congr 1
  simp only [Group.advanceThreads, Group.mapThreads, FMap.mapKV_mapKV]
  congr 1
  apply FMap.mapKV_congr
  intro p hp
  rw [s.take_threads] at hp
  have hst := fun hm => Group.mem_run (State.inOrder_threads (LaneWord.ready_inOrder hr)) hp hm
  have hfp := hf p hp
  by_cases hrun : p.1 ∈ s.grp.run
  · by_cases ha : p.1 ∈ w.acting s.grp
    · rw [if_pos (List.contains_iff_mem.mpr ha), if_pos (List.contains_iff_mem.mpr ha), hfp ha]
      cases w.moves <;> simp [hrun, ha]
    · cases hm : w.moves <;> simp [hrun, ha, hst hrun]
  · have ha : p.1 ∉ w.acting s.grp := fun h => hrun (hsub _ h)
    cases hm : w.moves <;> simp [hrun, ha]

/-! ## Group-set words -/

/-- What a performed group word leaves. -/
def State.afterGroup (s s0 : State) (i : Instr) (r : GRes) : State :=
  match r with
  | .done s1 => s1.goOn.finish
  | .jump s1 a => (s1.setGrp (s1.grp.jump a)).finish
  | .moved s1 => s1.finish
  | .fault f => s0.trap f
  | .wait => s0.stall i
  | .hold s1 => (s1.setGrp { s1.grp with waitWord := some i }).fire
  | .trapAfter s1 cause addr code =>
    let s2 := s1.goOn.finish
    s2.trapWith s2.cur { addr := addr, cause := cause, fpc := s.grp.pc, entries := s.grp.entriesCount, v := true,
                         grp := true, code := code } s2.grp.pc (maskOf s.grp.run)

/-- A group-set word that is ready: its pops, then its operation on the values. -/
theorem State.groupWord_ready (s : State) (i : Instr) (w : GrpWord) (body : State → List W64 → GRes)
    (h : s.groupReady w = true) :
    s.groupWord i w body =
      s.afterGroup s i (body (s.take (w.srcs.map (·.o))).2 ((s.take (w.srcs.map (·.o))).1.map (fun k => k.group s.grp w.wide))) := by
  simp only [State.groupReady, Bool.and_eq_true, Bool.not_eq_true', bne_iff_ne, ne_eq, beq_iff_eq] at h
  obtain ⟨⟨⟨⟨⟨⟨⟨⟨ho, hpc⟩, hok⟩, hports⟩, hguard⟩, hv⟩, hd⟩, hc⟩, hroom⟩ := h
  have hpc : (s.grp.issuePc == none) = false := by
    cases he : s.grp.issuePc with
    | none => exact absurd he hpc
    | some a => rfl
  unfold State.groupWord
  simp only [hpc, hok, hports, hguard, hv, hd, hc, hroom, Bool.and_self, Bool.not_true, Bool.false_eq_true, if_false, Bool.or_self]
  rfl

/-- A group-set word whose guard is false goes on (02_encoding R19). -/
theorem State.groupWord_unguarded (s : State) (i : Instr) (w : GrpWord) (body : State → List W64 → GRes)
    (hpc : s.grp.issuePc ≠ none) (hok : (w.ok && s.portsOk (w.srcs.map (·.o)) w.dest) = true) (hg : w.guard = false) :
    s.groupWord i w body = s.goOn.finish := by
  have hpc : (s.grp.issuePc == none) = false := by
    cases he : s.grp.issuePc with
    | none => exact absurd he hpc
    | some a => rfl
  unfold State.groupWord
  simp [hpc, hok, hg]

@[simp] theorem Group.hint_tidy (g : Group) : g.tidy.hint = g.hint := by unfold Group.tidy; split <;> rfl
@[simp] theorem Group.hint_setState (g : Group) (r : Nat) (f : Full) : (g.setState r f).hint = g.hint := by
  unfold Group.setState; split <;> simp
@[simp] theorem Group.hint_write (g : Group) (r : Nat) (w : W64) : (g.write r w).hint = g.hint := by simp [Group.write]
@[simp] theorem Group.hint_setCond (g : Group) (c : Fin 4) (b : Bool) : (g.setCond c b).hint = g.hint := by
  unfold Group.setCond; split <;> rfl
@[simp] theorem Group.hint_advance (g : Group) : g.advance.hint = g.hint := by unfold Group.advance; split <;> rfl
@[simp] theorem Group.hint_jump (g : Group) (a : VA) : (g.jump a).hint = g.hint := by unfold Group.jump; split <;> rfl

theorem GrpWord.ready_inOrder {s : State} {w : GrpWord} (h : s.groupReady w = true) : s.inOrder = true := by
  simp only [State.groupReady, Bool.and_eq_true] at h
  exact h.1.1.1.1.1.1.1.1

/-- A performed word that leaves its group uncounted by a signal ends so. -/
theorem State.goOn_finish (s : State) (h : s.grp.hint = none) : s.goOn.finish = s.performed s.grp.advance := by
  unfold State.goOn
  exact State.finish_setGrp _ _ (by simpa using h)

theorem State.writeGroup_hint (s : State) (d : Opnd) (v : W64) : (s.writeGroup d v).grp.hint = s.grp.hint := by
  cases d with
  | reg n => simp [State.writeGroup]
  | port q => exact State.pushPort_hint s q.val _

/-- A ready group-set word whose operation is performed and leaves the group uncounted by a signal. -/
theorem State.groupWord_done (s : State) (i : Instr) (w : GrpWord) (body : State → List W64 → GRes) (s2 : State)
    (h : s.groupReady w = true) (hb : body (s.take (w.srcs.map (·.o))).2 (s.groupValues w) = .done s2)
    (hh : s2.grp.hint = none) : s.groupWord i w body = s2.performed s2.grp.advance := by
  rw [State.groupWord_ready _ _ _ _ h]
  have hb' : body (s.take (w.srcs.map (·.o))).2 ((s.take (w.srcs.map (·.o))).1.map (fun k => k.group s.grp w.wide)) = .done s2 := hb
  rw [hb']
  exact State.goOn_finish s2 hh

/-- A ready group-set word that writes one value. -/
theorem State.groupWord_value (s : State) (i : Instr) (w : GrpWord) (d : Opnd) (f : State → List W64 → W64)
    (h : s.groupReady w = true) :
    s.groupWord i w (fun s1 vs => .done (s1.writeGroup d (f s1 vs))) =
      s.groupResult w d (f (s.take (w.srcs.map (·.o))).2 (s.groupValues w)) := by
  refine State.groupWord_done s i w _ _ h rfl ?_
  rw [State.writeGroup_hint, s.take_hint]
  exact State.inOrder_hint (GrpWord.ready_inOrder h)

end Sys2Proof.Machine
end

