-- ==== Sys2Proof/Tests/Slice0.lean ====
section
/-! SUPPORT. Tests of the model: ill-formed terms that WellFormed refuses, words that decode as the spec's encodings say, single
steps on small states, and for each statement of Obligations.lean states and operands that meet its hypotheses. -/

namespace Sys2Proof.Tests

set_option Elab.async false

open Sys2Proof.Machine Sys2Proof.Claims

/-! ## Small states -/

/-- Register `n`. -/
def R (n : Fin 56) : Opnd := .reg n

/-- The outcome is the state given. -/
def gives (o : Host.Outcome State Fault Refusal) (t : State) : Bool :=
  match o with
  | .next s => decide (s = t)
  | .fault _ => false
  | .refused _ => false

/-- What a state holds after an outcome, if it is a next state. -/
def after {α : Type} (o : Host.Outcome State Fault Refusal) (f : State → α) : Option α :=
  match o with
  | .next s => some (f s)
  | .fault _ => none
  | .refused _ => none

/-- The result is the value given. -/
def okIs {ε α : Type} [DecidableEq α] (o : Except ε α) (a : α) : Bool :=
  match o with
  | .ok x => decide (x = a)
  | .error _ => false

theorem eq_of_okIs {ε α : Type} [DecidableEq α] {o : Except ε α} {a : α} (h : okIs o a = true) : o = .ok a := by
  cases o with
  | ok x => simp_all [okIs]
  | error e => simp [okIs] at h

/-- A READY thread with some registers. -/
def th0 : Thread :=
  { pc := 0x10000, entry := 0x10000, st := .ready, preds := 2, v := [(1, 0x40490FDB), (2, 0xC0000003), (3, 0x3F800000), (4, 0x10)],
    stack := [0x20000] }
/-- Another thread of its run. -/
def th1 : Thread :=
  { pc := 0x10000, entry := 0x10000, st := .ready, v := [(1, 0xFFFFFFFF), (2, 7), (3, 0x80000000), (4, 0x8804)], stack := [0x20000] }
/-- A group of two threads, with a handler for every cause, and two entries in its first queue. -/
def gr : Group :=
  { team := 1, live := true, threads := [(0, th0), (1, th1)],
    g := [(1, 0x8000000500000003), (2, 7), (3, 1), (4, 0x40)], tvec := 0x30000, tcmask := 0xFFFFFFFF, conds := 2,
    queues := [(0, { entries := [.perThread [5, 6], .uniform 9] })] }
/-- A machine in which a group of team 1 on core 0 executes. -/
def stWith (g : Group) : State :=
  { State.reset with groups := [(2, g)], teams := [(1, { launch := 1, groups := [2], launched := 64, phase := .running })],
                     launches := [(1, {})], launchSeq := 1, made := 3, cur := 2, on := { a := 2 } }
/-- The machine with that group. -/
def sR : State := stWith gr
/-- The group with its first thread's registers as given. -/
def grRegs (vst : FMap Full) : Group := { gr with threads := [(0, { th0 with vst := vst }), (1, th1)] }
/-- The group in trap context. -/
def grTrap : Group := { gr with trap := true, hpc := 0x30000, trapmask := 3, trappc := 0x10004, trapcause := 5 }

/-! ## Statements about words on registers: states that meet their hypotheses -/

def fBin (d a b : Opnd) (pg : Fin 8 := 0) (ng : Bool := false) (ea : Bool := false) : LaneBin := { d, a, b, pg, ng, ea, eb := false }
def fUn (d a : Opnd) : LaneUn := { d, a, pg := 1, ng := false, ea := false }
def fImm (d a : Opnd) (imm : BitVec 9) : LaneImm := { d, a, imm, pg := 0 }
def fCvt (d a : Opnd) (fmt : Fin 4) : LaneCvt := { d, a, rnd := .fpm, sat := false, fmt, pg := 0, ng := false, ea := false }
def fG (d a b : Opnd) (w : Bool := true) (ng : Bool := false) : GrpBin := { d, a, b, cg := 0, ng, ea := false, eb := false, w }
def fGU (d a : Opnd) : GrpUn := { d, a, cg := 1, ng := false, ea := false, w := false }
def fGI (n : Fin 56) : GrpImm := { d := R n, imm := 0x3FFFF }

theorem wit_IntegerArithmetic : sR.laneReady (binWord (fBin (R 5) (R 1) (R 2) 1 true)) = true ∧
    sR.laneReady (binWord (fBin (.port 1) (.port 0) (.port 0))) = true ∧ sR.laneReady (triWord (fBin (R 1) (R 1) (R 4))) = true ∧
    sR.laneReady (unWord (fUn (R 55) (R 0))) = true ∧ sR.laneReady (immWord (fImm (R 5) (.port 0) 0x1FF)) = true := by decide
theorem wit_IntegerArithmetic_lea_movi :
    sR.laneReady { sourceless (R 5) 0 false with
      blocks := blockOf (R 5) 1 ++ blockOf (R 1) 1 ++ blockOf (R 2) 1, srcs := [{ o := R 1 }, { o := R 2 }] } = true ∧
    sR.laneReady (sourceless (.port 1) 1 false) = true := by decide
/-- The last team of a grid of 2 by 3 by 4. -/
def sGrid : State :=
  { sR with teams := [(1, { launch := 1, index := 23, groups := [2], launched := 64, phase := .running })], launches := [(1, { grid := (2, 3, 4) })] }
theorem wit_SelectionsAndStates_grid : let l := sGrid.launch sGrid.curTeam.launch
    1 < l.grid.1 ∧ 2 < l.grid.2.1 ∧ sGrid.curTeam.index = 1 + l.grid.1 * (2 + l.grid.2.1 * 3) ∧
    (sGrid.identifier 5 0, sGrid.identifier 6 0, sGrid.identifier 7 0) = (1, 2, 3) := by decide
theorem wit_SelectionsAndStates_record : let x : Thread := { th0 with vst := [(1, .faulted)], fault := { v := true, cause := 4 } }
    x.regState 1 = .faulted ∧ Full.empty ≠ .faulted ∧ x.st ≠ .parked ∧ x.storeFault = none ∧
    (∀ p ∈ x.vst.set 1 .empty, p.2 ≠ .faulted) ∧ (x.setState 1 .empty).fault = {} := by decide
theorem wit_FloatArithmetic : sR.laneReady (binWord (fBin (R 5) (R 1) (R 3))) = true ∧
    sR.laneReady (triWord (fBin (R 1) (R 1) (R 3))) = true ∧ sR.laneReady (unWord (fUn (R 5) (R 3))) = true := by decide
theorem wit_FloatOrderAndClass : sR.laneReady (binWord (fBin (R 5) (R 1) (R 3))) = true ∧
    sR.laneReady (unWord (fUn (.port 2) (.port 0))) = true := by decide
theorem wit_ConversionWords : sR.laneReady (cvtWord (fCvt (R 5) (R 1) 1)) = true ∧ sR.laneReady (cvtWord (fCvt (.port 1) (.port 0) 0)) = true := by
  decide
theorem wit_SelectionsAndStates : sR.laneReady { binWord (fBin (R 5) (R 1) (R 2) 1) with guard := fun _ => true } = true ∧
    sR.laneReady (sourceless (R 5) 1 true) = true ∧ sR.laneReady (oneWord { d := R 55, pg := 0, ng := false }) = true ∧
    sR.laneReady { blocks := blockOf (R 5) 1, guard := laneGuard 0 false, ok := sR.portsOk [R 5] .none } = true ∧
    sR.waiteWaits { d := R 5, pg := 0, ng := false } = false ∧ sR.laneReady { guard := laneGuard 1 false } = true := by decide
theorem wit_PredicateWords : sR.laneReady (comparing (R 1) (R 2) false true 1 true) = true ∧
    sR.laneReady { blocks := blockOf (R 1) 1, guard := laneGuard 0 false, srcs := [{ o := R 1, trap := true }] } = true ∧
    (fp32 0x7FC00000).isNan = true ∧ (Ext.inf true).isNan = false ∧ (fp32 0x3F800000).isNan = false ∧ (7 : Fin 8) ≠ 0 := by decide
theorem wit_LaneBranches : sR.laneReady { guard := laneGuard 1 false, moves := true } = true ∧
    sR.laneReady { blocks := blockOf (R 4) 1, guard := laneGuard 0 false, srcs := [{ o := R 4 }], moves := true } = true ∧
    (stWith { gr with threads := [(0, { th0 with stack := List.replicate 16 4 })] }).laneReady
      { guard := laneGuard 0 false, moves := true } = true ∧
    (stWith { gr with threads := [(0, { th0 with stack := [0x20002] })] }).laneReady { guard := laneGuard 0 false, moves := true } = true := by
  decide
theorem wit_GroupArithmetic : sR.groupReady (gbinWord sR.grp (fG (R 5) (R 1) (R 2) false)) = true ∧
    sR.groupReady (gbinWord sR.grp (fG (.port 1) (.port 0) (R 3))) = true ∧ sR.groupReady (gunWord sR.grp (fGU (R 5) (R 1))) = true ∧
    sR.groupReady { srcs := [{ o := R 2 }], dest := destOf (R 2) 1 } = true ∧ sR.groupReady { dest := destOf (.port 1) 1 } = true ∧
    sR.groupReady { gbinWord sR.grp (fG (R 1) (R 2) (R 3)) with srcs := [{ o := R 2 }, { o := R 3 }, { o := R 1 }] } = true ∧
    sR.groupReady { gbinWord sR.grp (fG (R 1) (R 2) (R 3)) with guard := true } = true ∧
    sR.groupReady { guard := sR.grp.cond 1 != false, srcs := [{ o := R 2, trap := true }, { o := R 3 }], wide := false } = true := by
  decide
theorem wit_GroupArithmetic_unguarded : sR.inOrder = true ∧ sR.grp.issuePc ≠ none ∧
    sR.portsOk [R 1, .port 0] (destOf (R 5) 1) = true ∧ (sR.grp.cond 0 != true) = false ∧ (3 : Fin 4) ≠ 0 := by decide
theorem wit_GroupShiftsAndDivisions : sR.groupReady (gbinWord sR.grp (fG (R 5) (R 1) (R 4))) = true ∧
    sR.groupReady (gbinWord sR.grp (fG (R 1) (R 1) (R 0) false)) = true := by decide
theorem wit_GroupBranches : sR.groupReady { guard := sR.grp.cond 1 != false } = true ∧
    sR.groupReady { srcs := [{ o := R 3 }], dest := destOf (R 3) 1 } = true ∧
    sR.grp.callRun.all (fun t => decide ((sR.grp.thread t).stack.length < 16)) = true ∧ sR.grp.trap = false ∧
    sR.grp.run.all (fun t => decide ((sR.grp.thread t).stack ≠ [])) = true ∧
    sR.grp.run.all (fun t => decide (((sR.grp.thread t).stack.headD 0).toNat % 4 = 0)) = true := by decide
/-- The machine with the first thread's return stack as given. -/
def sStack (st : List VA) : State := stWith { gr with threads := [(0, { th0 with stack := st }), (1, th1)] }
theorem wit_GroupBranches_traps :
    (sStack (List.replicate 16 4)).groupReady { guard := (sStack (List.replicate 16 4)).grp.cond 0 != false } = true ∧
    (∃ t ∈ (sStack (List.replicate 16 4)).grp.run, 16 ≤ ((sStack (List.replicate 16 4)).grp.thread t).stack.length) ∧
    handles (sStack (List.replicate 16 4)).grp (Cause.code .stackOverflow) ∧
    (∃ t ∈ (sStack []).grp.run, ((sStack []).grp.thread t).stack = []) ∧ (sStack []).grp.trap = false ∧
    (sStack []).groupReady { guard := (sStack []).grp.cond 0 != false } = true ∧
    (sStack [6]).groupReady { guard := (sStack [6]).grp.cond 0 != false } = true ∧ (sStack [6]).grp.run = [0, 1] ∧
    (sStack [6]).grp.run.all (fun t => decide (((sStack [6]).grp.thread t).stack ≠ [])) = true ∧
    (((sStack [6]).grp.thread 0).stack.headD 0).toNat % 4 ≠ 0 ∧ handles (sStack [6]).grp (Cause.code .misaligned) := by
  unfold handles; decide
theorem wit_LaneFrames : sR.laneReady (binWord (fBin (R 5) (R 1) (R 2) 1 true)) = true ∧
    after (exec (.iadd (fBin (R 5) (R 1) (R 2) 1 true)) sR) (fun t => t.mem) = some [] ∧
    (binWord (fBin (R 5) (R 1) (R 2))).srcs.all (fun o => !o.o.isPort) = true := by decide
theorem wit_LaneFrames_others : sR.laneReady (triWord (fBin (R 5) (R 1) (R 2))) = true ∧
    sR.laneReady (unWord (fUn (R 5) (R 1))) = true ∧ sR.laneReady (immWord (fImm (R 5) (R 1) 3)) = true ∧
    sR.laneReady (cvtWord (fCvt (R 5) (R 1) 0)) = true ∧
    after (exec (.ffma (fBin (R 5) (R 1) (R 2))) sR) (fun _ => ()) = some () ∧
    after (exec (.popc (fUn (R 5) (R 1))) sR) (fun _ => ()) = some () ∧ after (exec (.andi (fImm (R 5) (R 1) 3)) sR) (fun _ => ()) = some () ∧
    after (exec (.cvtif (fCvt (R 5) (R 1) 0)) sR) (fun _ => ()) = some () := by decide
theorem wit_GroupFrames : sR.groupReady (gbinWord sR.grp (fG (R 5) (R 1) (R 2))) = true ∧
    after (exec (.gadd (fG (R 5) (R 1) (R 2))) sR) (fun _ => ()) = some () ∧ sR.groupReady (gunWord sR.grp (fGU (R 5) (R 1))) = true ∧
    after (exec (.gpopc (fGU (R 5) (R 1))) sR) (fun _ => ()) = some () ∧
    sR.groupReady { srcs := [{ o := R 2 }], dest := destOf (R 2) 1 } = true ∧
    after (exec (.gaddi (fGI 2)) sR) (fun _ => ()) = some () ∧ sR.groupReady { srcs := [], dest := destOf (R 2) 1 } = true ∧
    after (exec (.gmovi (fGI 2)) sR) (fun _ => ()) = some () := by decide

/-! ## Waits, rejections, exceptions -/

/-- A state in which the first thread's v1 is EMPTY. -/
def sEmpty : State := stWith (grRegs [(1, .empty)])
/-- A state in which the first thread's v1 is PENDING. -/
def sPending : State := stWith (grRegs [(1, .pending)])

theorem wit_SourcesAndFates : sEmpty.inOrder = true ∧ sEmpty.grp.trap = false ∧ sEmpty.grp.run ≠ [] ∧
    sEmpty.laneStatic (binWord (fBin (R 5) (R 1) (R 2))) = true ∧
    (binWord (fBin (R 5) (R 1) (R 2))).srcs.all (fun x => !x.o.isPort) = true ∧
    (∀ t ∈ (binWord (fBin (R 5) (R 1) (R 2))).acting sEmpty.grp,
      sEmpty.grp.threadVerdict (sEmpty.grp.thread t) (binWord (fBin (R 5) (R 1) (R 2))).allSrcs ≠ .wait) ∧
    sEmpty.grp.destPending sEmpty.grp.run (binWord (fBin (R 5) (R 1) (R 2))).dest = false := by decide
theorem wit_SourcesAndFates_verdicts :
    sEmpty.grp.threadVerdict (sEmpty.grp.thread 0) [{ o := R 1 }] ≠ .run := by decide
theorem wit_SourcesAndFates_wait : sPending.grp.trap = false ∧ sPending.grp.run ≠ [] ∧
    sPending.laneStatic (binWord (fBin (R 5) (R 1) (R 2))) = true ∧
    (∃ t ∈ (binWord (fBin (R 5) (R 1) (R 2))).acting sPending.grp,
      sPending.grp.threadVerdict (sPending.grp.thread t) (binWord (fBin (R 5) (R 1) (R 2))).allSrcs = .wait) ∧
    sPending.laneStatic (binWord (fBin (R 1) (R 3) (R 2))) = true ∧
    sPending.grp.destPending sPending.grp.run (binWord (fBin (R 1) (R 3) (R 2))).dest = true := by decide
/-- A state in which a group's counter of outstanding operations stands at 63. -/
def sFull : State := stWith { gr with ops := (List.range 63).map (fun i => { id := i, pieces := [{ t := 0, regs := [(40, 0)], ready := false }] }) }
theorem wit_SourcesAndFates_counter : sFull.grp.trap = false ∧ sFull.grp.run ≠ [] ∧ sFull.laneStatic (loadWord (R 12) [R 6] 0 4) = true ∧
    (loadWord (R 12) [R 6] 0 4).counts = true ∧ 63 ≤ sFull.outstanding sFull.cur := by decide
/-- A state in which the group's budget is 8 registers. -/
def sBudget : State := stWith { gr with budget := 8 }
theorem wit_SourcesAndFates_rejected : sBudget.inOrder = true ∧ sBudget.grp.trap = false ∧ sBudget.grp.run ≠ [] ∧
    sBudget.laneStatic (binWord (fBin (R 8) (R 1) (R 2))) = false ∧
    (stWith grTrap).grp.trap = true ∧ (stWith grTrap).grp.hint = none := by decide
theorem wit_SourcesAndFates_unguarded : (stWith grTrap).inOrder = true ∧ (stWith grTrap).grp.issuePc ≠ none ∧
    (stWith grTrap).grp.trap = true ∧ ((stWith grTrap).grp.cond 0 != true) = false := by decide
theorem wit_TrapEntryAndSources : (sR.group 2).trap = false ∧ handles (sR.group 2) 5 ∧
    ((stWith { gr with tvec := 0 }).group 2).trap = false ∧ ¬ handles ((stWith { gr with tvec := 0 }).group 2) 5 ∧
    ((stWith grTrap).group 2).trap = true := by unfold handles; decide
theorem wit_TrapEntryAndSources_source :
    let s := stWith { gr with gst := [(1, .empty)] }
    s.inOrder = true ∧ s.grp.trap = false ∧ s.grp.issuePc ≠ none ∧ s.portsOk [R 1, R 2] (destOf (R 5) 1) = true ∧
    (s.grp.cond 0 != false) = true ∧ s.grp.wordVerdict (gbinWord s.grp (fG (R 5) (R 1) (R 2))).srcs = .fault { cause := .emptyRead } ∧
    handles s.grp (Cause.code .emptyRead) := by unfold handles; decide
theorem wit_TrapEntryAndSources_software : sR.groupReady {} = true ∧ sR.grp.trap = false ∧ handles sR.grp (Cause.code .softwareTrap) ∧
    sR.laneReady { guard := laneGuard 0 false } = true := by unfold handles; decide
theorem wit_ReturnFromTrap : (stWith grTrap).groupReady { guard := (stWith grTrap).grp.cond 0 != false } = true ∧
    (stWith grTrap).grp.trap = true ∧ (stWith grTrap).grp.report = false ∧
    (stWith { grTrap with report := true }).groupReady { guard := (stWith { grTrap with report := true }).grp.cond 0 != false } = true ∧
    (stWith { grTrap with report := true }).grp.trap = true ∧ (stWith { grTrap with report := true }).grp.report = true ∧
    (stWith grTrap).grp.trappc.toNat % 4 = 0 ∧
    (stWith { grTrap with report := true }).grp.threads.all (fun p => decide (p.2.st = .parked → p.2.fault.rpc.toNat % 4 = 0)) = true ∧
    (stWith { grTrap with trappc := 2 }).groupReady { guard := (stWith { grTrap with trappc := 2 }).grp.cond 0 != false } = true ∧
    (stWith { grTrap with trappc := 2 }).grp.trap = true ∧ (stWith { grTrap with trappc := 2 }).grp.report = false ∧
    (stWith { grTrap with trappc := 2 }).grp.trappc.toNat % 4 ≠ 0 ∧
    sR.grp.hint = none ∧ sR.grp.trap = false ∧ handles sR.grp (Cause.code .privileged) := by unfold handles; decide
theorem wit_SystemAndTeamWords_csr : sR.groupReady { ok := csrListed 0x005, dest := destOf (R 5) 1 } = true ∧ sR.groupReady { dest := destOf (R 5) 1 } = true ∧
    sR.groupReady { ok := csrWritable 0x005, srcs := [{ o := R 2 }] } = true ∧ csrPrivileged 0x005 = false ∧
    csrValueOk 0x005 (gv (sR.groupValues { ok := csrWritable 0x005, srcs := [{ o := R 2 }] }) 0) = true ∧
    sR.grp.collGathered = false ∧ sR.grp.laneOutstanding = false ∧
    sR.grp.hint = none ∧ csrPrivileged 0x020 = true ∧ sR.grp.privileged = false ∧ handles sR.grp (Cause.code .privileged) := by
  unfold handles; decide
theorem wit_SystemAndTeamWords_csr_wait : let s := stWith { gr with ops := [{ id := 3, pieces := [{ t := 0, regs := [(9, 9)], ready := false }] }] }
    s.groupReady { ok := csrListed 1, dest := destOf (R 5) 1 } = true ∧ s.grp.laneOutstanding = true := by decide
theorem wit_MemoryLaws : Memory.wf [(3, 7), (0x4FFFFF, 1)] = true ∧ 0 < [(1 : Byte), 0].length ∧ Memory.wf ([] : List Host.Cell) = true := by
  decide

/-! ## Memory -/

/-- Key of byte `o` of core 0's slice. -/
def sl (o : Nat) : Nat := 0x00FE000000000000 + o
/-- A group whose threads hold offsets in v6, v7 and data in v8 to v11. -/
def grMem : Group :=
  { gr with
    threads := [(0, { th0 with v := [(6, 0x1000), (7, 4), (8, 0x11223344), (9, 5), (10, 6), (11, 7)] }),
                (1, { th1 with v := [(6, 0x1020), (7, 5), (8, 0x55667788), (9, 0xFFFFFFFF), (10, 8), (11, 9)] })],
    g := [(1, 0x00FE000000001000), (2, 0x10), (3, 0x1122334455667788), (5, 0xFFFFFFFF)] }
/-- A machine with some bytes in core 0's slice. -/
def sM : State := { stWith grMem with mem := [(sl 0x1000, 0x80), (sl 0x1001, 0x7F), (sl 0x1010, 0x21), (sl 0x1017, 0x80), (sl 0x1021, 3)] }
/-- The keys that v6 names, an offset added. -/
def k6 (d : Nat) (t : Nat) : Nat := sl (0x1000 + 0x20 * t + d)

/-- An access that goes to a slice byte. -/
def reaches? (s : State) (ea : W64) (n : Nat) (k : AccKind) (key : Nat) : Bool :=
  (match s.check s.curCore s.curVd ea n k with
    | .ok p => decide (p = .slice key)
    | .error _ => false) && !s.claimed key n && !s.poisoned key n

theorem reachesSlice_of {s : State} {ea : W64} {n : Nat} {k : AccKind} {key : Nat} (h : reaches? s ea n k key = true) :
    reachesSlice s ea n k key := by
  simp only [reaches?, Bool.and_eq_true, Bool.not_eq_true'] at h
  refine ⟨?_, h.1.2, h.2⟩
  cases hc : s.check s.curCore s.curVd ea n k with
  | ok p => simp [hc] at h; simp [h.1.1]
  | error f => simp [hc] at h

def fMem (d a : Opnd) (off : BitVec 6) (st : Strength := .relaxed) : LaneMem := { d, a, off, sc := .team, st, pg := 0 }
def fIdx (d a b : Opnd) (st : Strength := .relaxed) : LaneMemIdx := { d, a, b, sc := .team, st, pg := 0 }
def fGM (d a b : Opnd) : GrpMem := { d, a, b, sc := .team, st := .relaxed }

theorem wit_LoadsAndTheirCompletion : sM.laneReady (loadWord (R 12) [R 6] 0 16) = true ∧
    ∀ t ∈ (loadWord (R 12) [R 6] 0 16).acting sM.grp,
      reachesSlice sM (addressed sM (loadWord (R 12) [R 6] 0 16) (sizedEa 0x3F 16) t) 16 .load (k6 0 t - 16) :=
  ⟨by decide, fun t ht => reachesSlice_of (by revert t; decide)⟩
theorem wit_LoadsAndTheirCompletion_byte : sM.laneReady (loadWord (R 55) [R 6] 0 1) = true ∧
    ∀ t ∈ (loadWord (R 55) [R 6] 0 1).acting sM.grp,
      reachesSlice sM (addressed sM (loadWord (R 55) [R 6] 0 1) (sizedEa 1 1) t) 1 .load (k6 1 t) :=
  ⟨by decide, fun t ht => reachesSlice_of (by revert t; decide)⟩
theorem wit_LoadsAndTheirCompletion_indexed : sM.laneReady (loadWord (R 12) [R 6, R 7] 0 4) = true ∧
    ∀ t ∈ (loadWord (R 12) [R 6, R 7] 0 4).acting sM.grp,
      reachesSlice sM (addressed sM (loadWord (R 12) [R 6, R 7] 0 4) indexedEa t) 4 .load (k6 0 t + 4 * (4 + t)) :=
  ⟨by decide, fun t ht => reachesSlice_of (by revert t; decide)⟩
/-- A state with one outstanding operation of thread 0. -/
def sOp : State :=
  stWith { gr with ops := [{ id := 3, pieces := [{ t := 0, regs := [(5, 9)] }] }] }
theorem wit_LoadsAndTheirCompletion_complete : (0 : Nat) < 32 ∧ (0xFFFFFFFF : BitVec 32).getLsbD 0 = true ∧
    (sOp.group 2).ops = { id := 3, pieces := [{ t := 0, regs := [(5, 9)] }], acq := false } :: [] := by decide
theorem wit_LoadsAndTheirCompletion_group :
    ((stWith { gr with ops := [{ id := 3, pieces := [{ t := 32, regs := [(5, 9)] }] }] }).group 2).ops =
      { id := 3, pieces := [{ t := 32, regs := [(5, 9)] }], acq := false } :: [] ∧
    ((stWith { gr with ops := [{ id := 3, pieces := [{ t := 0, regs := [(5, 9)], fault := some { v := true } }] }] }).group 2).ops =
      { id := 3, pieces := [{ t := 0, regs := [(5, 9)], fault := some { v := true } }], acq := false } :: [] := by decide

theorem noBuffers_sM : noBuffers sM := by unfold noBuffers; decide
theorem wit_LaneStores : sM.laneReady (storeWord (fMem (R 8) (R 6) 1) 1) = true ∧ noBuffers sM ∧ Memory.wf sM.mem = true ∧
    releases Scope.team (Strength.relaxed == .release) = false ∧ sM.awaitsRemote sM.cur = false ∧
    ∀ t ∈ (storeWord (fMem (R 8) (R 6) 1) 1).acting sM.grp,
      reachesSlice sM (addressed sM (storeWord (fMem (R 8) (R 6) 1) 1) (sizedEa 1 1) t) 1 .store (k6 1 t) :=
  ⟨by decide, noBuffers_sM, by decide, by decide, by decide, fun t ht => reachesSlice_of (by revert t; decide)⟩
theorem wit_LaneStores_block : sM.laneReady (storeWord (fMem (R 8) (R 6) 0x20) 16) = true ∧
    ∀ t ∈ (storeWord (fMem (R 8) (R 6) 0x20) 16).acting sM.grp,
      reachesSlice sM (addressed sM (storeWord (fMem (R 8) (R 6) 0x20) 16) (sizedEa 0x20 16) t) 16 .store (k6 0 t - 512) :=
  ⟨by decide, fun t ht => reachesSlice_of (by revert t; decide)⟩
/-- The shape of STX. -/
def stxWord (f : LaneMemIdx) : LaneWord :=
  { blocks := blockOf f.d 1 ++ blockOf f.a 1 ++ blockOf f.b 1, guard := lmGuard f.pg, srcs := [{ o := f.a }, { o := f.b }, { o := f.d }], counts := true }
theorem wit_LaneStores_indexed : sM.laneReady (stxWord (fIdx (R 8) (R 6) (R 7))) = true ∧
    ∀ t ∈ (stxWord (fIdx (R 8) (R 6) (R 7))).acting sM.grp,
      reachesSlice sM (addressed sM (stxWord (fIdx (R 8) (R 6) (R 7))) indexedEa t) 4 .store (k6 0 t + 4 * (4 + t)) :=
  ⟨by decide, fun t ht => reachesSlice_of (by revert t; decide)⟩
/-- The machine with both threads' addresses in v6 alike. -/
def sA : State := { stWith { grMem with threads := [(0, { th0 with v := [(6, 0x1000), (9, 5)] }), (1, { th1 with v := [(6, 0x1000), (9, 8)] })] }
  with mem := sM.mem }
theorem wit_LaneAtomics : sA.laneReady (atomicWord (fIdx (R 12) (R 6) (R 9)) true) = true ∧ noBuffers sA ∧ Memory.wf sA.mem = true ∧
    releases Scope.team (atomReleases Strength.relaxed) = false ∧ sA.awaitsRemote sA.cur = false ∧ (sA.vdev sA.curVd).capture = [] ∧
    (atomicWord (fIdx (R 12) (R 6) (R 9)) true).acting sA.grp = [0, 1] ∧
    ∀ t ∈ (atomicWord (fIdx (R 12) (R 6) (R 9)) true).acting sA.grp,
      reachesSlice sA (addressed sA (atomicWord (fIdx (R 12) (R 6) (R 9)) true) (sizedEa 0 4) t) 4 .atomic (sl 0x1000) :=
  ⟨by decide, by unfold noBuffers; decide, by decide, by decide, by decide, by decide, by decide, fun t ht => reachesSlice_of (by revert t; decide)⟩
/-- Two AADD of 5 and 8 at one address: the second thread finds what the first left. -/
theorem test_atomics_in_turn : after (exec (.aadd (fIdx (R 12) (R 6) (R 9))) sA)
    (fun t => (Memory.get t.mem (sl 0x1000), t.grp.ops.flatMap (fun o => o.pieces.flatMap (fun p => p.regs.map (·.2.toNat))))) =
      some (0x8D, [0x7F80, 0x7F85]) := by decide
theorem wit_GroupMemoryWords : sM.groupReady (groupLoadWord (fGM (R 6) (R 1) (R 2))) = true ∧
    reachesSlice sM (gv (sM.groupValues (groupLoadWord (fGM (R 6) (R 1) (R 2)))) 0 +
      gv (sM.groupValues (groupLoadWord (fGM (R 6) (R 1) (R 2)))) 1) 8 .load (sl 0x1010) := ⟨by decide, reachesSlice_of (by decide)⟩
/-- The shape of a group store. -/
def gstWord (f : GrpMem) : GrpWord := { srcs := [{ o := f.a }, { o := f.b }, { o := f.d }] }
theorem wit_GroupMemoryWords_store : sM.groupReady (gstWord (fGM (R 3) (R 1) (R 2))) = true ∧ noBuffers sM ∧ Memory.wf sM.mem = true ∧
    releases Scope.team (Strength.relaxed == .release) = false ∧ sM.awaitsRemote sM.cur = false ∧
    reachesSlice sM (gv (sM.groupValues (gstWord (fGM (R 3) (R 1) (R 2)))) 0 + gv (sM.groupValues (gstWord (fGM (R 3) (R 1) (R 2)))) 1)
      8 .store (sl 0x1010) := ⟨by decide, noBuffers_sM, by decide, by decide, by decide, reachesSlice_of (by decide)⟩
/-- The shape of GATOM. -/
def gatomWord (f : GrpAtom) : GrpWord :=
  { srcs := [{ o := f.a }, { o := f.b }], also := if f.op = .cas then [regNum f.d] else [], dest := .regs (regNum f.d) 1, counts := true }
def fGA (op : AtomOp) : GrpAtom := { d := R 3, a := R 1, b := R 5, op, st := .relaxed }
theorem wit_GroupMemoryWords_atomic : sM.groupReady (gatomWord (fGA .cas)) = true ∧ noBuffers sM ∧ Memory.wf sM.mem = true ∧
    releases .device (atomReleases Strength.relaxed) = false ∧ sM.awaitsRemote sM.cur = false ∧ AtomOp.cas ≠ .fadd ∧ (sM.vdev sM.curVd).capture = [] ∧
    reachesSlice sM (gv (sM.groupValues (gatomWord (fGA .cas))) 0) 8 .atomic (sl 0x1000) :=
  ⟨by decide, noBuffers_sM, by decide, by decide, by decide, by decide, by decide, reachesSlice_of (by decide)⟩

/-- Device memory with a page table that maps 0x10000 with a 64 KiB page at 0x60000, readable, writable and executable. -/
def memTable : List Host.Cell := bootMem [] 0x79000000
/-- The machine with that table. -/
def sD : State := { stWith gr with mem := memTable, vdevs := [(0, { live := true, clusters := List.range 96, root := 0x20001 })] }
/-- The machine whose core 0 holds the page's first line. -/
def sL : State := { sD with cores := [(0, { l1 := [{ line := 0xC00, present := BitVec.allOnes 128 }] })] }
/-- The place of an address of that page. -/
def placeD (ea : W64) : Place := .device (0x60000 + (ea.toNat - 0x10000)) 0x600B9 0x50008

theorem wit_AccessesAndChecks : sD.check 0 0 0x10010 4 .load = .ok (placeD 0x10010) ∧
    sD.poisoned 0x60010 4 = false ∧ (sD.core 0).line (lineOf 0x60010) = none ∧
    (L1Line.has { line := lineOf 0x60010 } (0x60010 % 128) 4) = false ∧
    sD.check 0 0 0x10010 [(1 : Byte), 2].length .store = .ok (placeD 0x10010) :=
  ⟨eq_of_okIs (by decide), by decide, by decide, by decide, eq_of_okIs (by decide)⟩
theorem wit_AccessesAndChecks_line : sL.check 0 0 0x1007C 4 .load = .ok (placeD 0x1007C) ∧
    (sL.core 0).line (lineOf 0x6007C) = some { line := 0xC00, present := BitVec.allOnes 128 } ∧
    L1Line.has { line := 0xC00, present := BitVec.allOnes 128 } (0x6007C % 128) 4 = true :=
  ⟨eq_of_okIs (by decide), by decide +kernel, by decide +kernel⟩
theorem wit_AccessesAndChecks_poisoned :
    ({ sD with poison := [(0x60000, 32)] } : State).check 0 0 0x10010 4 .load = .ok (placeD 0x10010) ∧
      ((({ sD with poison := [(0x60000, 32)] } : State).touch 0 0 0x10010 (placeD 0x10010) false).flushLine 0
        (lineOf 0x60010)).poisoned 0x60010 4 = true := ⟨eq_of_okIs (by decide), by decide⟩
theorem wit_AccessesAndChecks_whole : ((sD.touch 0 0 0x10010 (placeD 0x10010) true).flushLine 0 (lineOf 0x60010)).poisonPartial 0x60010 2 = false ∧
    ((sD.touch 0 0 0x10010 (placeD 0x10010) true).lineOrNew 0 (lineOf 0x60010)).badPartial (0x60010 % 128) 2 = false := by decide
/-- A line of which bytes 16 to 23 are uncorrectable in the L1. -/
def badLine : L1Line := { line := 0xC00, present := BitVec.allOnes 128, bad := byteMask 16 8 }
theorem wit_AccessesAndChecks_bad : ({ sD with cores := [(0, { l1 := [badLine] })] } : State).check 0 0 0x10010 4 .load = .ok (placeD 0x10010) ∧
    (({ sD with cores := [(0, { l1 := [badLine] })] } : State).core 0).line (lineOf 0x60010) = some badLine ∧
    badLine.bad &&& byteMask (0x60010 % 128) 4 ≠ 0 ∧ badLine.bad &&& byteMask (0x60020 % 128) 4 = 0 :=
  ⟨eq_of_okIs (by decide), by decide +kernel, by decide +kernel, by decide +kernel⟩
/-- The machine with a full L1 in core 0. -/
def sFullL1 : State := { sD with cores := [(0, { l1 := (List.range 512).map (fun i => { line := i }) })] }
theorem wit_AccessesAndChecks_full : 512 ≤ (sFullL1.core 0).l1.length ∧ (sFullL1.core 0).line 0xC00 = none ∧ sFullL1.evictable 0 ≠ [] ∧
    (sD.core 0).l1.length < 512 := by decide +kernel
theorem wit_AccessesAndChecks_addresses : 2 ^ 56 ≤ (0x0100000000000000 : W64).toNat ∧ sliceBase ≤ (0x00FE000000300000 : W64).toNat ∧
    (0x00FE000000300000 : W64).toNat < 2 ^ 56 ∧ AccKind.load ≠ .fetch ∧ sR.sliceAt 0 0 (0x00FE000000300000 : W64).toNat = none ∧
    sR.sliceAt 0 0 (0x00FF000000000004 : W64).toNat = some (sl 4) ∧ (0x10001 : W64).toNat < sliceBase ∧ (0x10001 : W64).toNat % 4 ≠ 0 := by
  decide +kernel
theorem wit_AccessesAndChecks_tables : sR.translate 0 0 0x10000 = .missing false ∧ (0x10000 : Nat) % 8 = 0 ∧
    sD.translate 0 0 0x10000 = .leaf 0x600B9 0x50008 0 ∧
    ({ sD with mem := Memory.set sD.mem 0x50008 0x21 } : State).translate 0 0 0x10000 = .leaf 0x60021 0x50008 0 ∧
    permOk 0x60021 .load = false ∧ keyOk (({ sD with vdevs := [(0, { keys := 1 })] } : State).vdev 0).keys 0x600B9 .load = false := by decide
theorem wit_AccessesAndChecks_pref : sM.laneReady { blocks := blockOf (R 6) 1, guard := lmGuard 0, srcs := [{ o := R 6 }] } = true ∧
    sM.groupReady { srcs := [{ o := R 1 }, { o := R 2 }] } = true ∧ (0x10000 : W64).toNat < sliceBase ∧
    sD.check 0 0 0x10000 1 .load = .ok (placeD 0x10000) ∧ sD.claimed (lineOf 0x60000 * 128) 128 = false ∧
    sD.l1Room 0 = true ∧ sD.walkFull 0 0 0x10000 = false ∧ sliceBase ≤ (0x00FE000000000000 : W64).toNat :=
  ⟨by decide, by decide, by decide, eq_of_okIs (by decide), by decide, by decide, by decide, by decide⟩

/-! ## Queues and barriers -/

def fQclose : GrpQclose := { d := .port 0, cg := 0, ng := false }
def fQstat : GrpQstat := { d := R 5, a := .port 0, cg := 0, ng := false }
/-- The machine with a QGET of the first queue waiting. -/
def sGet : State := stWith { gr with queues := [(0, { entries := [.uniform 9], gets := [(5, true, 0)] })], gst := [(5, .pending)] }
theorem wit_Queues : sR.groupReady (gunWord sR.grp (fGU (.port 1) (R 1))) = true ∧
    sR.groupReady { guard := sR.grp.cond 1 != false, ok := sR.portsOk [.port 0] .none, dest := .regs 5 1, counts := true } = true ∧
    (sR.portQueue sR.cur 0).gets.length < (sR.portQueue sR.cur 0).entries.length ∧ (sR.portQueue sR.cur 0).gets.length < 4 := by decide
theorem wit_Queues_others :
    ((sGet.group { a := 2, b := 0 : On }.a).queue 0).gets = (5, true, 0) :: [] ∧
    ((sGet.group 2).queue 0).entries = .uniform 9 :: [] ∧
    sR.groupReady { guard := sR.grp.cond 0 != false } = true ∧
    sR.groupReady { guard := sR.grp.cond 0 != false, dest := destOf (R 5) 1 } = true ∧ (sR.portQueue sR.cur 0).entries.length ≤ 4 := by decide
def fAgen (n : Fin 8) (w : Fin 8) : GrpAgen := { d := .port 1, a := R 1, b := R 2, n, w }
theorem wit_Queues_agen :
    let s := sR
    let w : GrpWord := { srcs := [{ o := R 1 }, { o := R 2 }], ok := s.portsOk [] (destOf (.port 1) 1) }
    s.groupReady w = true ∧ s.grp.agen = 0 ∧ (((s.take [R 1, R 2]).2).portQueue s.cur 1).closed = false ∧
    (((s.take [R 1, R 2]).2).portQueue s.cur 1).entries.length + (3 + 1) ≤ 4 := by decide
theorem wit_Barriers : ({ expect := 3, arrived := 2 } : Barrier).expect ≠ 0 ∧ (2 + 1) / 3 = 1 ∧ (2 + 0) / 3 = 0 ∧ 1 < (2 + 7) / 3 ∧
    ({ ew := true } : Barrier).ew = true ∧ ({} : Barrier).ew = false := by decide
/-- A machine whose team has barrier 3 at phase 5. -/
def sB : State := { sR with teams := [(1, { launch := 1, groups := [2], launched := 64, cbs := [(3, { phase := 5, expect := 2 })] })] }
theorem wit_Barriers_words : sB.groupReady { srcs := [{ o := R 2 }] } = true ∧ 1 ≤ (gv (sB.groupValues { srcs := [{ o := R 2 }] }) 0).toNat ∧
    (gv (sB.groupValues { srcs := [{ o := R 2 }] }) 0).toNat ≤ 262143 ∧ sB.cbAwaited sB.cur 3 = ([], []) ∧
    sB.groupReady { srcs := [{ o := R 2 }, { o := R 1 }] } = true ∧ (sB.teams.find sB.grp.team).isSome = true := by decide
theorem wit_Barriers_wait :
    let w : GrpWord := { srcs := [{ o := R 4 }], dest := destOf (R 5) 1 }
    let s := { sB with groups := [(2, { gr with g := [(4, 4)] })] }
    s.groupReady w = true ∧ (s.curTeam.cb 3).passed ((gv (s.groupValues w) 0).truncate 8) = true ∧ (s.curTeam.cb 3).ew = false := by decide
theorem wit_Barriers_stall :
    let w : GrpWord := { srcs := [{ o := R 4 }], dest := destOf (R 5) 1 }
    let s := { sB with groups := [(2, { gr with g := [(4, 5)] })] }
    s.groupReady w = true ∧ (s.curTeam.cb 3).passed ((gv (s.groupValues w) 0).truncate 8) = false := by decide
theorem wit_Barriers_reserved :
    let s := { sB with groups := [(2, { gr with g := [(4, 0x40000)] })] }
    s.groupReady { srcs := [{ o := R 4 }] } = true ∧ 262143 < (gv (s.groupValues { srcs := [{ o := R 4 }] }) 0).toNat ∧
    gv (s.groupValues { srcs := [{ o := R 0 }] }) 0 = 0 ∧ s.grp.trap = false ∧ handles s.grp (Cause.code .reservedField) := by
  unfold handles; decide
def fCbwait : GrpCbwait := { cb := 3, a := R 4, b := R 5, ew := false, te := false }
theorem wit_Barriers_end :
    let s := { sB with groups := [(2, { gr with g := [(4, 4)], waitWord := some (.cbwait fCbwait) })] }
    let w : GrpWord := { srcs := [{ o := R 4 }], dest := destOf (R 5) 1 }
    (s.group s.on.a).waitWord = some (.cbwait fCbwait) ∧ s.mayResume s.on.a = true ∧
    ({ s with cur := s.on.a } : State).groupReady w = true ∧
    (({ s with cur := s.on.a } : State).curTeam.cb 3).passed ((gv (({ s with cur := s.on.a } : State).groupValues w) 0).truncate 8) = true := by
  decide

/-! ## Collectives and regions -/

def fColl : LaneColl := { d := R 5, a := R 1, b := R 6, v := 1, tg := false, ea := false }
/-- A thread that waits at a word, its mask in v6 and its control word in v7. -/
def thColl (i : Instr) (m : W32) : Thread := { pc := 0x10000, entry := 0x10000, st := .wait, waitAt := some i, v := [(1, m), (6, m), (7, 1)] }
/-- Two threads at one collective, a third gone. -/
def sColl (m0 m1 : W32) : State :=
  stWith { gr with threads := [(0, thColl (.shfu fColl) m0), (1, thColl (.shfu fColl) m1), (2, { th1 with st := .exited })] }
theorem wit_Collectives_arrivals : sR.laneReady (collShape (blockOf (R 5) 1 ++ blockOf (R 1) 1) 6 [] (destOf (R 5) 1)) = true ∧
    sR.laneReady (collShape (blockOf (R 5) 1 ++ blockOf (R 1) 1) 6 [5] (destOf (R 5) 1)) = true ∧
    sR.laneReady (collShape [] 6 [] .none) = true ∧ sR.laneReady (collShape (blockOf (R 5) 1) 6 [] (destOf (R 5) 1)) = true ∧
    sR.laneReady {} = true := by decide
theorem wit_Collectives_form : ∀ s ∈ [sColl 3 3, sColl 7 7], (s.group s.on.a).live = true ∧ (s.team (s.group s.on.a).team).runs = true ∧
    (s.group s.on.a).formable = some (⟨6, some (1, false), false, .shuffle 1 5 1⟩, [0, 1]) ∧
    (s.group s.on.a).instances ⟨6, some (1, false), false, .shuffle 1 5 1⟩ 32 [0, 1] = [[0, 1]] ∧
    (s.group s.on.a).masksAgree ⟨6, some (1, false), false, .shuffle 1 5 1⟩ [0, 1] = true ∧
    [0, 1].all (fun t => (s.group s.on.a).valueVerdict ⟨6, some (1, false), false, .shuffle 1 5 1⟩ t == .run) = true := by decide
theorem wit_Collectives_form_mismatch : let s := sColl 3 7
    (s.group s.on.a).formable = some (⟨6, some (1, false), false, .shuffle 1 5 1⟩, [0, 1]) ∧
    (s.group s.on.a).instances ⟨6, some (1, false), false, .shuffle 1 5 1⟩ 32 [0, 1] = [[0, 1]] ∧
    (s.group s.on.a).masksAgree ⟨6, some (1, false), false, .shuffle 1 5 1⟩ [0, 1] = false := by decide
/-- Two threads at different collectives, each awaiting the other. -/
def sStuck : State :=
  stWith { gr with threads := [(0, thColl (.shfu fColl) 3), (1, { thColl (.shfd fColl) 3 with pc := 0x10010 })] }
theorem wit_Collectives_form_stuck : (sStuck.group sStuck.on.a).live = true ∧ (sStuck.team (sStuck.group sStuck.on.a).team).runs = true ∧
    (sStuck.group sStuck.on.a).formable = none ∧ (sStuck.group sStuck.on.a).stuck = true := by decide
theorem wit_CollectiveResults : let g := (sColl 7 7).group 2
    present g [0, 1] ∧ (1 : Nat) ∈ [0, 1] ∧ comesFrom 1 1 ((g.thread 1).reg 7).toNat ((g.thread 1).reg 5).toNat 0 ∧
    comesFrom 2 1 ((g.thread 1).reg 7).toNat ((g.thread 1).reg 5).toNat 2 ∧ (2 : Nat) ∉ [0, 1] ∧
    ((g.thread 1).reg 6).getLsbD 2 = true ∧ (g.thread 2).isLive = false := by
  simp only [present, comesFrom]; decide
theorem wit_CollectiveResults_outside : let g := (sColl 3 3).group 2
    present g [0, 1] ∧ comesFrom 2 1 ((g.thread 1).reg 7).toNat ((g.thread 1).reg 5).toNat 2 ∧ ((g.thread 1).reg 6).getLsbD 2 = false ∧
    (∀ u < 32, ¬ comesFrom 1 0 ((g.thread 0).reg 7).toNat ((g.thread 0).reg 5).toNat u) ∧ [0, 1].Nodup ∧ (∀ u ∈ [0, 1], u < 32) := by
  simp only [present, comesFrom]; decide
/-- Four threads. -/
def grFour (st : TState) (i : Nat → Option Instr) : Group :=
  { gr with threads := (List.range 4).map (fun t =>
      (t, { pc := 0x10000 + BitVec.ofNat 56 (16 * (t / 2)), entry := 0x10000, st := st, waitAt := i t })) }
theorem wit_CollectiveResults_tree : present (grFour .ready (fun _ => none)) [0, 1, 2, 3] ∧ present (grFour .ready (fun _ => none)) [0, 2, 3] ∧
    [0, 1, 2, 3].Nodup ∧ [0, 2, 3].Nodup := by unfold present; decide
/-- Four threads at two REGN words. -/
def sRegn : State := stWith (grFour .wait (fun t => some (.regn (BitVec.ofNat 9 (t / 2)))))
theorem wit_RegionsAndAge : let g := sRegn.group sRegn.on.a
    g.live = true ∧ (sRegn.team g.team).runs = true ∧ g.trap = false ∧ g.held = false ∧
    (∀ p ∈ g.threads, p.2.st = .wait ∧ p.2.waitAt = some (.regn (BitVec.ofNat 9 (p.1 / 2))) ∧ (0x10000 : VA).toNat ≤ p.2.pc.toNat ∧
      (p.2.pc = 0x10000 → BitVec.ofNat 9 (p.1 / 2) = 0)) ∧ (∃ p ∈ g.threads, p.2.st = .wait ∧ p.2.pc = 0x10000) := by decide
/-- Two parked threads. -/
def sParked : State :=
  stWith { gr with threads := [(0, { th0 with st := .exited }), (1, { th1 with st := .parked, fault := { v := true, cause := 5 } }),
                               (2, { th1 with st := .parked, fault := { v := true, cause := 4 } })] }
theorem wit_RegionsAndAge_report : let g := sParked.group sParked.on.a
    g.live = true ∧ (sParked.team g.team).runs = true ∧ g.trap = false ∧ g.held = false ∧ g.settled = true ∧ g.firstParked = some 1 ∧
    FMap.rising g.threads = true ∧ handles g (g.thread 1).fault.cause := by unfold handles; decide
theorem wit_RegionsAndAge_age : ({ sR with now := 125 } : State).ready 2 = true ∧ 125 ≤ ({ sR with now := 125 } : State).age 2 := by decide

/-! ## Remote words -/

/-- A PEER window that permits everything: BASE 0x1000, LIMIT 0x10000, grid 7. -/
def wPeer : List W64 := [0x8F800000000000AA, 0x0007000000001000, 0x10000, 0x41]
/-- Device 1 of a job grid of 4, its window entry known to the cluster, one port in service. -/
def fab (s : State) : State :=
  { s with vdevs := [(0, { live := true, clusters := List.range 96, fabGrid := 0x0007000100000003, fabCoord := 0x41, fabWtab := 5 })],
           clusters := [(0, { windows := [(0, 3, wPeer), (0, 4, [0x8F800000000000AB, 0x0007000000001000, 0x10000, 0])] })],
           ports := [(0, { up := true })] }
/-- A group with offsets in its threads' v6 and window addresses in g1 and g2. -/
def grRem : Group :=
  { gr with
    wsel := 0x0003000000000040, wpat := 0x82,
    threads := [(0, { th0 with v := [(6, 0x100), (8, 1), (9, 2)] }), (1, { th1 with v := [(6, 0x108), (8, 3), (9, 4)] })],
    g := [(1, 0x0003000000000080), (2, 0x82), (3, 0x1122334455667788), (4, 5), (7, 0xC0)] }
def sF : State := fab (stWith grRem)
/-- The target of an access of device 2 at an offset. -/
def tg2 (o : Nat) : Target := { ws := wPeer, pat := 0x82, coords := [2], off := 0x1000 + o }

def fRem : LaneRemote := { d := R 8, a := R 6, off := 1, st := .relaxed, pg := 0 }
def fRG (dp n32 : Bool) : GrpRemote := { d := R 3, a := R 1, b := R 2, dp, n32, st := .relaxed }
theorem wit_RemoteLaneWords_load : let f := fRem
    let w : LaneWord :=
      { blocks := blockOf f.d 2 ++ blockOf f.a 1, guard := lmGuard f.pg, srcs := [{ o := f.a }], dest := .regs (regNum f.d) 2,
        counts := true }
    let s1 := (sF.take [f.a]).2
    let va := fun t => ((sF.take [f.a]).1.headD .nothing).lane (sF.grp.thread t) t
    sF.laneReady w = true ∧ sF.contained = [] ∧ w.acting sF.grp = [0, 1] ∧
    (∀ t ∈ w.acting sF.grp, s1.laneCheck ((sF.grp.wsel.toNat % 2 ^ 48 : Nat) + (va t).toNat + f.off.toInt * (4 * 2))
      { perm := 59, single := true, size := 4 * 2 } = .ok (tg2 (0x148 + 8 * t))) ∧
    s1.canSend s1.curVd 0 ((w.acting sF.grp).map (fun t => tg2 (0x148 + 8 * t))) = true :=
  ⟨by decide, by decide, by decide, fun t ht => eq_of_okIs (by revert t; decide), by decide⟩
theorem wit_RemoteLaneWords_store : ∀ n ∈ [1, 2], let f := fRem
    let regs := (List.range n).map (fun i => regNum f.d + i)
    let w : LaneWord :=
      { blocks := blockOf f.d n ++ blockOf f.a 1, guard := lmGuard f.pg,
        srcs := if n = 1 then [{ o := f.a }, { o := f.d }] else [{ o := f.a }], also := if n = 1 then [] else regs, counts := true }
    let ks := (sF.take (w.srcs.map (·.o))).1
    let s1 := (sF.take (w.srcs.map (·.o))).2
    let val := fun i t => (ks.getD i .nothing).lane (sF.grp.thread t) t
    sF.laneReady w = true ∧
    (∀ t ∈ w.acting sF.grp, s1.laneCheck ((sF.grp.wsel.toNat % 2 ^ 48 : Nat) + (val 0 t).toNat + f.off.toInt * (4 * n))
      { perm := 58, size := 4 * n, wr := true } = .ok (tg2 (0x140 + 4 * n + 8 * t))) ∧
    s1.remoteWaits (f.st == .release) (f.st != .plain) = false ∧
    s1.canSend s1.curVd 0 ((w.acting sF.grp).map (fun t => tg2 (0x140 + 4 * n + 8 * t))) = true := fun n hn =>
  ⟨by revert n; decide, fun t ht => eq_of_okIs (by revert t; revert n; decide), by revert n; decide, by revert n; decide⟩
theorem wit_RemoteLaneWords_atomic : ∀ op ∈ [AtomOp.cas, .add],
    let f : LaneRatom := { d := R 8, a := R 6, b := R 9, op := op, st := .relaxed }
    let w : LaneWord :=
      { blocks := blockOf f.d 1 ++ blockOf f.a 1 ++ blockOf f.b 1, srcs := [{ o := f.a }, { o := f.b }],
        also := if f.op = .cas then [regNum f.d] else [], dest := .regs (regNum f.d) 1, counts := true }
    let s1 := (sF.take [f.a, f.b]).2
    let val := fun i t => ((sF.take [f.a, f.b]).1.getD i .nothing).lane (sF.grp.thread t) t
    sF.laneReady w = true ∧
    (∀ t ∈ w.acting sF.grp, s1.laneCheck ((sF.grp.wsel.toNat % 2 ^ 48 : Nat) + (val 0 t).toNat)
      { perm := 57, single := true, size := 4, wr := true } = .ok (tg2 (0x140 + 8 * t))) ∧
    s1.remoteWaits (atomReleases f.st) true = false ∧
    s1.canSend s1.curVd 2 ((w.acting sF.grp).map (fun t => tg2 (0x140 + 8 * t))) = true := fun op hop =>
  ⟨by revert op; decide, fun t ht => eq_of_okIs (by revert t; revert op; decide), by revert op; decide, by revert op; decide⟩
theorem wit_RemoteGroupWords_load : ∀ dp : Bool, let f := { fRG dp false with a := if dp then R 7 else R 1 }
    let w := remoteShape f [] (.regs (regNum f.d) 1)
    let s := { sF with groups := [(2, { grRem with g := grRem.g.set 7 0x00040000000000C0 })] }
    let s1 := (s.take (w.srcs.map (·.o))).2
    s.groupReady w = true ∧ s.contained = [] ∧
    okIs (s1.grpCheck (gv (s.groupValues w) 0) (if f.dp then none else some (gv (s.groupValues w) 1)) { perm := 59, single := true, size := 8 })
      (if dp then { ws := [0x8F800000000000AB, 0x0007000000001000, 0x10000, 0], pat := 0, coords := [0], off := 0x10C0 } else tg2 0x80) = true ∧
    s1.canSend s1.curVd 0 [tg2 0x80] = true := by decide
theorem wit_RemoteGroupWords_store : ∀ n32 : Bool, let f := fRG false n32
    let w := remoteShape f [{ o := f.d }] .none
    let s1 := (sF.take (w.srcs.map (·.o))).2
    sF.groupReady w = true ∧
    okIs (s1.grpCheck (gv (sF.groupValues w) 0) (some (gv (sF.groupValues w) 1)) { perm := 58, single := true, size := if n32 then 4 else 8, wr := true })
      (tg2 0x80) = true ∧
    s1.remoteWaits false true = false ∧ s1.canSend s1.curVd 0 [tg2 0x80] = true := by decide
theorem wit_RemoteGroupWords_multicast : let f := fRG false false
    let s := { sF with groups := [(2, { grRem with g := grRem.g.set 2 0xC0 })] }
    let w := remoteShape f [{ o := f.d }] .none
    okIs ((s.take (w.srcs.map (·.o))).2.grpCheck (gv (s.groupValues w) 0) (some (gv (s.groupValues w) 1)) { perm := 58, size := 8, wr := true })
      { ws := wPeer, pat := 0xC0, coords := [0, 1, 2, 3], off := 0x1080 } = true := by decide
theorem wit_RemoteGroupWords_atomic : let f : GrpRgatm := { d := R 3, a := R 1, b := R 2, op := .cas, dp := false, n32 := false }
    let w : GrpWord := { srcs := [{ o := f.a }, { o := f.b }], also := [3, 4], dest := .regs 3 1, counts := true }
    let s1 := (sF.take (w.srcs.map (·.o))).2
    sF.groupReady w = true ∧
    okIs (s1.grpCheck (gv (sF.groupValues w) 0) (some (gv (sF.groupValues w) 1)) { perm := 57, single := true, size := 8, wr := true })
      (tg2 0x80) = true ∧
    s1.remoteWaits true true = false ∧ s1.canSend s1.curVd 2 [tg2 0x80] = true := by decide
def uRd : WinUse := { perm := 59, size := 8 }
theorem wit_SourceChecks : (sR.vdev 0).fabricOn = false ∧ (sF.vdev 0).fabWtab.toNat % 2 ^ 16 < 6 ∧ (sF.vdev 0).fabricOn = true ∧
    sF.windowEntry 0 0 3 = some wPeer ∧ 3 ≤ (sF.vdev 0).fabWtab.toNat % 2 ^ 16 ∧ windowOk wPeer = true ∧ windowOk [0, 0, 0, 0] = false ∧
    patternsOk (sF.vdev 0) wPeer 0x82 uRd = true ∧ patternsOk (sF.vdev 0) wPeer 0x104 uRd = false ∧
    entryPerm wPeer uRd.perm = true ∧ uRd.kinds.contains (entryKind wPeer) = true ∧ entryPerm wPeer 56 = true ∧
    ([0, 3] : List Nat).contains (entryKind [0xA000000000000000, 0, 0, 0]) = false ∧ entryPerm [0xA000000000000000, 0, 0, 0] 57 = false := by decide
theorem wit_SourceChecks_bounds : ((4 : Int) % uRd.size ≠ 0) ∧ (0xFFF8 : Int) % uRd.size = 0 ∧
    (((entryWord wPeer 2).toNat % 2 ^ 48 : Nat) : Int) < 0x10000 + uRd.size ∧ (-8 : Int) < 0 ∧ (-8 : Int) % uRd.size = 0 ∧
    (0xFFF8 : Int) + uRd.size ≤ ((entryWord wPeer 2).toNat % 2 ^ 48 : Nat) := by decide
/-- A request to device 2. -/
def qPosted : Request := { vd := 0, group := 2, t := tg2 0x80, vc := 0, kind := 1, size := 8, rk := .posted, data := [1, 2, 3, 4, 5, 6, 7, 8] }
theorem wit_RequestsAndReplies_tags : 0 < sF.freeSlots ∧ sF.contained = [] ∧ qPosted.rk = .posted ∧ qPosted.t.coords = [2] ∧
    (sF.groups.find qPosted.group).isSome = true ∧
    ({ sF with contained := [(7, 2)] } : State).contained.contains ((entryWord qPosted.t.ws 1).toNat / 2 ^ 48 % 2 ^ 16, 2) = true ∧
    (sF.group qPosted.group).rerrCause = 0 := by decide
/-- A packet. -/
def pk : SentPkt := { vc := 0, kind := 0, tag := 0, gentag := 0, port := 0, words := [], data := [] }
/-- A machine with a busy slot 1. -/
def sSlot (x : TagSlot) (g : Group) : State := { sF with groups := [(2, g)], slots := [(1, { x with busy := true, group := 2, serial := 9 })] }
def opOf (t : Nat) : OutOp := { id := 4, pieces := [{ t := t, regs := [(5, 0)], ready := false, fault := some { rmt := true } }], acq := false }
theorem wit_RequestsAndReplies_load : ∀ t ∈ [1, 32], let s := sSlot { kind := .load 4 t 4, targets := [2] } { grRem with ops := [opOf t] }
    s.slotOf 32 = some 1 ∧ s.slotOf 33 = none ∧ (s.slot 1).kind = .load 4 t 4 ∧ (s.slot 1).targets = [2] ∧ (s.slot 1).group = 2 ∧
    (s.groups.find 2).isSome = true ∧ (s.group 2).ops = opOf t :: [] := by decide
theorem wit_RequestsAndReplies_posted : ∀ ts ∈ [[2], [2, 3]], let s := sSlot { kind := .posted, targets := ts } { grRem with posted := [[9], [10]] }
    s.slotOf 32 = some 1 ∧ (s.slot 1).kind = .posted ∧ (s.slot 1).targets = ts ∧ (s.slot 1).group = 2 ∧ (s.groups.find 2).isSome = true ∧
    (s.group 2).posted = [(s.slot 1).serial] :: [[10]] ∧ ∀ m ∈ [[10]], m ≠ [] ∧ (s.slot 1).serial ∉ m := by decide
theorem wit_RequestsAndReplies_timers : let s := { sSlot { kind := .posted, targets := [2] } { grRem with posted := [[9]] } with on := { a := 1 } }
    (s.slot s.on.a).busy = true ∧ (s.slot s.on.a).deadline ≤ s.portNow ∧ (s.slot s.on.a).kind = .posted ∧ (s.slot s.on.a).group = 2 ∧
    (s.groups.find 2).isSome = true ∧ (s.group 2).posted = [(s.slot s.on.a).serial] :: [] ∧
    ({ s with slots := [(1, { quarantine := some 0 })] } : State).slot 1 = { quarantine := some 0 } ∧ 0 ≤ s.portNow ∧
    s.on.a < ({ s with sent := [pk, pk] } : State).sent.length := by decide

/-! ## Numbers -/

theorem wit_Numbers : Fmt.maxCode .e4m3 < 0x7F ∧ Fmt.hasInf .e4m3 = false ∧ Fmt.maxCode .fp32 < 0x7F800000 ∧
    0x7F800000 = Fmt.maxCode .fp32 + 1 ∧ 0x7F800001 ≠ Fmt.maxCode .fp32 + 1 ∧ (Ext.nan.isNan || (Ext.inf true).isNan) = true ∧
    (2 ^ 40 + 1) % 2 = 1 ∧ magLt (2 ^ 40, 0) (2 ^ 41 + 1, -1) ∧ magLt (2 ^ 41 + 1, -1) (2 ^ 40 + 2, 0) := by decide +kernel
theorem wit_Numbers_powers : (0 : Int) ≤ 3 ∧ 25 ≠ 0 ∧ 25 * 2 ^ (3 : Int).toNat ≤ 200 ∧ 149 ≤ 149 ∧ 256 * 2 ^ 149 - 1 < 256 * 2 ^ 149 ∧
    ¬ 2 ^ 149 ∣ 256 * 2 ^ 149 - 1 ∧ (1 : Nat) < 256 * 2 ^ 1 ∧ ¬ 2 ^ 1 ∣ 1 ∧ (-149 : Int) ≤ -149 ∧ (104 : Int) ≤ 104 := by decide +kernel
theorem wit_Numbers_log (t : Nat) : 3 ≠ 2 ^ t := by
  cases t with
  | zero => decide
  | succ k => rw [Nat.pow_succ]; omega
/-- The code between 1 and 1.125 in E4M3: 1.0625 is halfway and goes to the even one, 1.1 to the upper one. -/
theorem test_e4m3_rounding : (Fmt.encode .e4m3 .rn false (.fin false 17 (-4))).1 = 0x38 ∧
    (Fmt.encode .e4m3 .rn false (.fin false 1126 (-10))).1 = 0x39 ∧
    roundsTo .e4m3 .rn false (1126, -10) 0x39 := by
  exact ⟨by decide, by decide, 0x38, by decide, by decide, by decide, by decide⟩
/-- 1.5 as a DS8 code, 2 less 1/2: the exponents 6 and 8 are those of 2^1 and 2^-1. -/
theorem test_ds8 : ds8Value (ds8Encode (.fin false 3 (-1))).1 = 192 := by decide +kernel

/-! ## Signals -/

/-- A value that passes a test. -/
def okAnd {ε α : Type} (o : Except ε α) (p : α → Bool) : Bool :=
  match o with
  | .ok a => p a
  | .error _ => false
/-- The fabric machine with a slice address and a pattern in registers, and a SIGNAL window behind handle 4. -/
def sSig : State :=
  { fab (stWith { grRem with
      g := [(1, 0x0003000000000080), (2, 0xC0), (3, 0x82), (4, 5), (5, 0x0004000000000080), (10, 0x00FE000000001000), (11, 0x82)] })
    with mem := sM.mem,
         clusters := [(0, { windows := [(0, 3, wPeer), (0, 4, [0xBF800000000000AB, 0x0007000000001000, 0x10000, 0x82])] })] }
theorem wit_RemoteGroupWords_wsel : ∀ dp : Bool, let w : GrpWord := { srcs := if dp then [{ o := R 5 }] else [{ o := R 1 }, { o := R 3 }] }
    let s1 := (sSig.take (w.srcs.map (·.o))).2
    let h := (gv (sSig.groupValues w) 0).toNat / 2 ^ 48
    let vd := sSig.vdev sSig.curVd
    sSig.groupReady w = true ∧ vd.fabricOn = true ∧ h ≤ vd.fabWtab.toNat % 2 ^ 16 ∧
    (match s1.windowEntry sSig.curCore sSig.curVd h with
      | some ws => windowOk ws && patOk vd.axes (if dp then entryWord ws 3 else gv (sSig.groupValues w) 1)
      | none => false) = true := by decide
theorem wit_RemoteGroupWords_rrst : let w : GrpWord := { srcs := remoteSrcs (R 1) (R 2) false, also := [10, 11], counts := true }
    let s1 := (sSig.take (w.srcs.map (·.o))).2
    sSig.groupReady w = true ∧ sSig.contained = [] ∧
    okAnd (s1.grpCheck (gv (sSig.groupValues w) 0) (some (gv (sSig.groupValues w) 1))
      { perm := 55, kinds := [0], size := 64, wr := true, dest := some (sSig.grp.reg 11) })
      (fun t => t.coords == [2] && s1.canSend s1.curVd 0 [t]) = true ∧
    reachesSlice sSig (sSig.grp.reg 10) 64 .load (sl 0x1000) := ⟨by decide, by decide, by decide, reachesSlice_of (by decide)⟩
theorem wit_RemoteGroupWords_rget : let w : GrpWord := { srcs := remoteSrcs (R 1) (R 3) false ++ [{ o := R 10 }], counts := true }
    let s1 := (sSig.take (w.srcs.map (·.o))).2
    let dst := gv (sSig.groupValues w) 2
    sSig.groupReady w = true ∧ sSig.contained = [] ∧
    okAnd (s1.grpCheck (gv (sSig.groupValues w) 0) (some (gv (sSig.groupValues w) 1)) { perm := 59, single := true, size := 64 })
      (fun t => s1.canSend s1.curVd 0 [t]) = true ∧
    sliceBase ≤ dst.toNat ∧ dst.toNat < 2 ^ 56 ∧ dst.toNat % 64 = 0 ∧ sSig.sliceAt sSig.curCore sSig.curVd dst.toNat = some (sl 0x1000) ∧
    sSig.claimed (sl 0x1000) 64 = false := by decide
theorem wit_RemoteGroupWords_sigadd : let w : GrpWord := { srcs := [{ o := R 10 }, { o := R 4 }] }
    sSig.groupReady w = true ∧ plainSlices sSig ∧ (sSig.vdev sSig.curVd).capture = [] ∧ sSig.awaitsRemote sSig.cur = false ∧
    sSig.check sSig.curCore sSig.curVd (gv (sSig.groupValues w) 0) 16 .atomic = .ok (.slice (sl 0x1000)) ∧
    sSig.claimed (sl 0x1000) 8 = false ∧ sSig.poisoned (sl 0x1000) 8 = false :=
  ⟨by decide, by unfold plainSlices noBuffers; decide, by decide, by decide, eq_of_okIs (by decide), by decide, by decide⟩
theorem wit_RemoteGroupWords_sigadd_remote : let w : GrpWord := { srcs := remoteSrcs (R 5) (R 3) false ++ [{ o := R 4 }], counts := true }
    let s1 := (sSig.take (w.srcs.map (·.o))).2
    sSig.groupReady w = true ∧ sSig.contained = [] ∧ (sSig.core sSig.curCore).l1 = [] ∧
    okAnd (s1.grpCheck (gv (sSig.groupValues w) 0) (some (gv (sSig.groupValues w) 1)) { perm := 57, kinds := [3], size := 8, wr := true })
      (fun t => s1.canSend s1.curVd 3 [t]) = true ∧
    sSig.awaitsRemote sSig.cur = false ∧ sSig.grp.posted = [] ∧ sSig.writesAcked = true := by decide
/-- The machine whose signal holds 5 and no error. -/
def sSigSet : State := { sSig with mem := [(sl 0x1000, 5)] }
/-- The machine whose signal holds 5 and an error. -/
def sSigErr : State := { sSig with mem := [(sl 0x1000, 5), (sl 0x100C, 1)] }
theorem wit_RemoteGroupWords_wait : let w : GrpWord := { srcs := [{ o := R 10 }, { o := R 4 }], dest := destOf (R 6) 1 }
    sSigSet.groupReady w = true ∧ plainSlices sSigSet ∧ (sSigSet.load64 (sl 0x1000)).toInt = 5 ∧ (sSigSet.load64 (sl 0x1008)).getLsbD 32 = false ∧
    reachesSlice sSigSet (gv (sSigSet.groupValues w) 0) 16 .load (sl 0x1000) :=
  ⟨by decide, by unfold plainSlices noBuffers; decide, by decide, by decide, reachesSlice_of (by decide)⟩
theorem wit_RemoteGroupWords_wait_short : let w : GrpWord := { srcs := [{ o := R 10 }, { o := R 2 }], dest := destOf (R 6) 1 }
    sSigSet.groupReady w = true ∧ plainSlices sSigSet ∧ (sSigSet.load64 (sl 0x1000)).toInt = 5 ∧ (sSigSet.load64 (sl 0x1008)).getLsbD 32 = false ∧
    reachesSlice sSigSet (gv (sSigSet.groupValues w) 0) 16 .load (sl 0x1000) :=
  ⟨by decide, by unfold plainSlices noBuffers; decide, by decide, by decide, reachesSlice_of (by decide)⟩
theorem wit_RemoteGroupWords_wait_error : let w : GrpWord := { srcs := [{ o := R 10 }, { o := R 4 }], dest := destOf (R 6) 1 }
    sSigErr.groupReady w = true ∧ plainSlices sSigErr ∧ (sSigErr.load64 (sl 0x1000)).toInt = 5 ∧ (sSigErr.load64 (sl 0x1008)).getLsbD 32 = true ∧
    reachesSlice sSigErr (gv (sSigErr.groupValues w) 0) 16 .load (sl 0x1000) :=
  ⟨by decide, by unfold plainSlices noBuffers; decide, by decide, by decide, reachesSlice_of (by decide)⟩

/-! ## Replies to RGET, a packet's life, a port in order -/

theorem wit_RequestsAndReplies_quiet : quietPort sF ∧ ∀ d, (Instr.readData 32 d, sF.on) ∉ sF.arrivals := by
  unfold quietPort; exact ⟨by decide, fun d => by simp [sF, fab, stWith, State.reset]⟩
theorem wit_RequestsAndReplies_rget : let s := sSlot { kind := .rget (sl 0x1000) 1 3 0x3000080, targets := [2] } grRem
    s.slotOf 32 = some 1 ∧ (s.slot 1).kind = .rget (sl 0x1000) 1 3 0x3000080 ∧ (s.slot 1).targets = [2] ∧ quietPort s ∧
    s.claimed (sl 0x1000) 64 = false ∧ s.sliceStays (s.slot 1).vd (sl 0x1000) = true ∧ noBuffers s ∧ Memory.wf s.mem = true ∧
    (s.teams.find 1).isSome = true := by unfold quietPort noBuffers; decide
theorem wit_RequestsAndReplies_life : ∀ t ∈ [327599, 327600],
    let s := { sF with sent := [pk], portNow := t }
    s.sent[s.on.b]? = some pk ∧ (pk.sentAt + 80 * 4095 ≤ s.portNow ↔ t = 327600) ∧ s.replyHeld 1 = false := by decide

/-! ## Copy commands -/

/-- Descriptor words as bytes. -/
def descBytes (ws : List Nat) : List Byte := ws.flatMap (fun w => leBytes 8 w)
/-- Descriptors: CPY; CPYS of rows of 64 bytes; CPYG and CPYX with an index table. -/
def dCpy : List Nat := [0x00FF000000002000, 0x00FF000000003000, 0, 0, 0, 0, 0, 0]
def dCpys : List Nat := [0x00FF000000002000, 0x00FF000000003000, 0x4000000040, 64, 0, 0, 0, 0]
def dCpyg : List Nat := [0x00FF000000002000, 0x00FF000000003000, 0x4000000040, 64, 0x00FF000000001100, 0, 0, 0]
def dCpyq : List Nat := [0x00FF000000002000, 0x00FF000000003000, 0x2000000080, 128, 0, 0x00FF000000004000, 0, 0]
/-- A machine whose slice holds a descriptor at 0x1000; g1 its address, g2 the count. -/
def sDesc (ws : List Nat) (count : W64) : State :=
  { stWith { gr with g := [(1, 0x00FF000000001000), (2, count), (4, 0x00FF000000001008)] } with
    mem := Memory.setBytes [] (sl 0x1000) (descBytes ws) }
def fCpy : GrpCpy := { d := R 5, a := R 1, b := R 2, np := false, cb := 3 }
/-- The hypotheses of a copy word that reads its descriptor, its own checks apart. -/
def readsDesc (s : State) : Bool :=
  s.groupReady { srcs := [{ o := R 1 }, { o := R 2 }], dest := destOf (R 5) 1 } && s.grp.copyWait.isNone &&
  decide ((gv (s.groupValues { srcs := [{ o := R 1 }, { o := R 2 }], dest := destOf (R 5) 1 }) 0).toNat % 64 = 0) &&
  !(s.take [R 1, R 2]).2.blocked s.curCore s.curVd 0x00FF000000001000 64 .load false
/-- The descriptor as the load reads it. -/
def descRead (s : State) : Option (State × List Byte) :=
  match (s.take [R 1, R 2]).2.performLoad s.curCore s.curVd 0x00FF000000001000 64 false with
  | (r, .ok bs) => some (r, bs)
  | (_, .error _) => none
theorem descRead_spec {s r : State} {bs : List Byte} (h : descRead s = some (r, bs)) :
    (s.take [R 1, R 2]).2.performLoad s.curCore s.curVd 0x00FF000000001000 64 false = (r, .ok bs) := by
  unfold descRead at h
  split at h
  · rename_i heq; simp only [Option.some.injEq, Prod.mk.injEq] at h; rw [heq, h.1, h.2]
  · cases h
/-- The command that the word makes. -/
def made (s : State) (k : CopyKind) (ws : List Nat) (count : Nat) : CopyCmd :=
  (s.take [R 1, R 2]).2.newCopy k ((CopyDesc.ofWords (wordsOf64 (descBytes ws))).resolve 0 k) 0x00FF000000001000 count 3 5 false
theorem wit_CopyWords : ∀ p ∈ [(CopyKind.cpy, dCpy, (0x1800 : W64)), (.cpys, dCpys, 3), (.cpyg, dCpyg, 2), (.cpyx, dCpyg, 2), (.cpyq, dCpyq, 2)],
    let s := sDesc p.2.1 p.2.2
    let s1 := (s.take [R 1, R 2]).2
    readsDesc s = true ∧ descRead s = some (s1, descBytes p.2.1) ∧ s1.copyChecks p.1 (wordsOf64 (descBytes p.2.1)) p.2.2 = none ∧
    s1.counterFull s.cur = false ∧ s1.engineLoad (clusterOf s.curCore) < 64 ∧ s1.dirtyClaimed s.curCore = false ∧
    (made s p.1 p.2.1 p.2.2.toNat).err = none ∧ s1.canGrant s1.copyKey (made s p.1 p.2.1 p.2.2.toNat) = true := by decide +kernel
/-- A destination that no page maps: the command ends at once in error. -/
theorem wit_CopyWords_error : let d := [0x00FF000000002000, 0x50000, 0x4000000040, 64, 0, 0, 0, 0]
    let s := sDesc d 3
    let s1 := (s.take [R 1, R 2]).2
    readsDesc s = true ∧ descRead s = some (s1, descBytes d) ∧ s1.copyChecks .cpys (wordsOf64 (descBytes d)) 3 = none ∧
    s1.counterFull s.cur = false ∧ s1.engineLoad (clusterOf s.curCore) < 64 ∧ s1.dirtyClaimed s.curCore = false ∧
    (made s .cpys d 3).err = some (.pageNotPresent, 0x50000, 0) ∧ (s.teams.find s.grp.team).isSome = true := by decide +kernel
/-- The word whose command has been granted. -/
theorem wit_CopyWords_granted : let s := { stWith { gr with copyWait := some 4 } with copies := [(4, { phase := .queued, granted := true, np := true })] }
    s.groupReady { srcs := [{ o := R 1 }, { o := R 2 }], dest := destOf (R 5) 1 } = true ∧ s.grp.copyWait = some 4 ∧
    s.copies.find 4 = some { phase := .queued, granted := true, np := true } ∧
    (s.take [R 1, R 2]).2.hasPromise s.curCore s.curVd .cpyx true {} = false := by decide
/-- A window copy's descriptor in the slice, the fabric in service. -/
def dPut : List Nat := [0x00FF000000002000, 0, 0x4000000040, 64, 0, 0x0003000000000080, 0x82, 0]
def dGet : List Nat := [0, 0x00FF000000002000, 0x4000000040, 64, 0, 0x0003000000000080, 0x82, 0]
def sWin (ws : List Nat) : State := { fab (sDesc ws 2) with clusters := [(0, { windows := [(0, 3, wPeer)] })] }
theorem wit_CopyWords_window : ∀ p ∈ [(CopyKind.cpywPut, dPut), (.cpywGet, dGet)], let s := sWin p.2
    let s1 := (s.take [R 1, R 2]).2
    let c := s1.newCopy p.1 ((CopyDesc.ofWords (wordsOf64 (descBytes p.2))).resolve 0 p.1) 0x00FF000000001000 2 3 0 true
    s.groupReady { srcs := [{ o := R 1 }, { o := R 2 }] } = true ∧ s.grp.copyWait = none ∧
    s1.blocked s.curCore s.curVd 0x00FF000000001000 64 .load false = false ∧ descRead s = some (s1, descBytes p.2) ∧
    s1.copyChecks p.1 (wordsOf64 (descBytes p.2)) 2 = none ∧ s1.counterFull s.cur = false ∧ s1.engineLoad (clusterOf s.curCore) < 64 ∧
    s1.dirtyClaimed s.curCore = false ∧ c.err = none ∧ (p.1.claims = true → s1.canGrant s1.copyKey c = true) := by decide +kernel
theorem wit_CopyWords_none : ∀ p ∈ [(CopyKind.cpy, dCpy), (.cpys, dCpys), (.cpyg, dCpyg), (.cpyx, dCpyg), (.cpyq, dCpyq)], let s := sDesc p.2 0
    readsDesc s = true ∧ descRead s = some ((s.take [R 1, R 2]).2, descBytes p.2) ∧
    (s.take [R 1, R 2]).2.copyChecks p.1 (wordsOf64 (descBytes p.2)) 0 = none := by decide +kernel
/-- Another command holds the destination. -/
def withClaim (s : State) : State :=
  { s with copies := [(0, { core := 1, phase := .running, granted := true, extents := [(sl 0x3000, 64)] })], claims := [0] }
theorem wit_CopyWords_claimed : ∀ p ∈ [(CopyKind.cpy, dCpy, (0x1800 : W64)), (.cpys, dCpys, 3), (.cpyg, dCpyg, 2), (.cpyq, dCpyq, 2)],
    let s := withClaim (sDesc p.2.1 p.2.2)
    let s1 := (s.take [R 1, R 2]).2
    readsDesc s = true ∧ descRead s = some (s1, descBytes p.2.1) ∧ s1.copyChecks p.1 (wordsOf64 (descBytes p.2.1)) p.2.2 = none ∧
    s1.counterFull s.cur = false ∧ s1.engineLoad (clusterOf s.curCore) < 64 ∧ s1.dirtyClaimed s.curCore = false ∧
    (made s p.1 p.2.1 p.2.2.toNat).err = none ∧ p.1.claims = true ∧
    s1.canGrant s1.copyKey (made s p.1 p.2.1 p.2.2.toNat) = false := by decide +kernel
theorem wit_CopyWords_refused : ∀ k ∈ [CopyKind.cpy, .cpys, .cpyg, .cpyx, .cpyq, .cpywPut, .cpywGet], let s := sDesc [0, 0, 0, 0x10, 0, 0, 0, 1] 0xFFFFFFFFFF
    readsDesc s = true ∧ s.grp.trap = false ∧ descRead s = some ((s.take [R 1, R 2]).2, descBytes [0, 0, 0, 0x10, 0, 0, 0, 1]) ∧
    descOk k (wordsOf64 (descBytes [0, 0, 0, 0x10, 0, 0, 0, 1])) 0xFFFFFFFFFF = false ∧ handles s.grp (Cause.code .reservedField) ∧
    s.groupReady { srcs := [{ o := R 4 }, { o := R 2 }], dest := destOf (R 5) 1 } = true ∧
    (gv (s.groupValues { srcs := [{ o := R 4 }, { o := R 2 }] }) 0).toNat % 64 ≠ 0 ∧ handles s.grp (Cause.code .misaligned) := by
  unfold handles; decide +kernel
/-- The machine with a copy command and some source bytes. -/
def sCmd (c : CopyCmd) (on : On) : State :=
  { sR with copies := [(7, c)], claims := [7], on := on, mem := Memory.setBytes [] (sl 0x2000) (List.replicate 128 0xA5) }
theorem wit_CopyCommands_control : let s := { stWith gr with copies := [(3, { team := 1, cb := 3, desc := { tag := 7 }, phase := .queued, core := 0 }),
      (5, { team := 1, cb := 3, kind := .cpywPut, tags := [2] })] }
    s.groupReady { srcs := [{ o := R 2 }], dest := destOf (R 5) 1 } = true ∧ s.grp.cancelWait = none ∧ FMap.rising s.copies = true ∧
    (∀ p ∈ s.copies, p.2.desc.tag = (gv (s.groupValues { srcs := [{ o := R 2 }], dest := destOf (R 5) 1 }) 0).truncate 32 → p.2.tags = []) ∧
    s.grp.waits.length < 7 ∧ s.groupReady { dest := destOf (R 5) 1, counts := true } = true ∧ s.inOrder = true ∧ s.grp.issuePc ≠ none ∧ canTrap s .reservedField := by
  unfold canTrap handles; decide
theorem wit_CopyCommands_done : let c : CopyCmd := { kind := .cpys, count := 2, phase := .running, rows := [{ i := 0 }, { i := 1, cells := [(sl 0, 3)] }] }
    c.rows = [{ i := 0 }] ++ { i := 1, cells := [(sl 0, 3)] } :: [] ∧ (∀ x ∈ [({ i := 0 } : CopyRow)], x.cells = []) ∧
    ({ c with rows := [{ i := 0 }, { i := 1 }] } : CopyCmd).phase = .running ∧ c.err = none ∧
    (∀ r ∈ ({ c with rows := [{ i := 0 }, { i := 1 }] } : CopyCmd).rows, r.cells = []) := by decide
/-- Commands whose rows lie in the slice; the index table at 0x1100 names row 1 and none. -/
def cRow (k : CopyKind) (ws : List Nat) : CopyCmd :=
  { team := 1, group := 2, kind := k, desc := (CopyDesc.ofWords (wordsOf64 (descBytes ws))).resolve 0 k, count := 2, phase := .running,
    places := [[(sl 0x3000, 64)], [(sl 0x3040, 64)]] }
def sRows : State := { sR with mem := Memory.setBytes [] (sl 0x1100) (leBytes 4 1 ++ leBytes 4 0xFFFFFFFF) }
theorem wit_CopyCommands_rows : okIs (sRows.indexAt (cRow .cpyg dCpyg) 0) 1 = true ∧ okIs (sRows.indexAt (cRow .cpyx dCpyg) 1) 0xFFFFFFFF = true ∧
    okIs (sRows.rowPieces 0 0 .load 0x00FE000000002000 0x00FE000000002040 64) [(sl 0x2040, 64)] = true ∧
    okIs (sRows.rowPieces 0 0 .store 0x00FE000000003000 0x00FE000000003040 64) [(sl 0x3040, 64)] = true ∧
    sRows.badOffset [(sl 0x2040, 64)] = none ∧
    okIs (sRows.rowPieces 0 0 .load 0x00FE000000002000 0x00FE000000002000 2048) [(sl 0x2000, 2048)] = true ∧
    okIs (sRows.rowPieces 0 0 .store 0x00FE000000004000 0x00FE000000004001 1) [(sl 0x4001, 1)] = true := by decide +kernel
theorem wit_CopyCommands_blocks : (List.replicate 128 (0 : Byte)).length = 4 * (32 * 1) ∧
    (∀ x ∈ [Ext.fin true 0 3], ∃ n e, x = .fin n 0 e) ∧ (∃ x ∈ [Ext.fin false 3 0, .nan], ∀ n m e, x ≠ .fin n m e) ∧
    Ext.fin true 3 0 ∈ [Ext.fin false 1 1, .fin true 3 0] ∧ magLe (1, 1) (3, 0) ∧ 2 ^ 1 ≤ 3 ∧ 3 < 2 ^ (1 + 1) :=
  ⟨by simp, fun x hx => ⟨true, 3, List.mem_singleton.mp hx⟩, ⟨.nan, by decide, by intros; simp⟩, by decide, by decide, by decide, by decide⟩
theorem wit_CopyCommands_claims :
    ((0, ({ granted := true, extents := [(sl 0x40, 64)] } : CopyCmd)) ∈ [(0, ({ granted := true, extents := [(sl 0x40, 64)] } : CopyCmd))]) ∧
    (sl 0x60, 8) ∈ ({ extents := [(sl 0x60, 8)] } : CopyCmd).extents ∧ sl 0x60 < sl 0x40 + 64 ∧ sl 0x40 < sl 0x60 + 8 := by decide
theorem wit_CopyCommands_grant : let s := sCmd { extents := [(sl 0x3000, 64)] } { a := 7 }
    s.copies.find s.on.a = some { extents := [(sl 0x3000, 64)] } ∧ ({ extents := [(sl 0x3000, 64)] } : CopyCmd).phase = .claiming ∧
    s.canGrant s.on.a { extents := [(sl 0x3000, 64)] } = true ∧
    ({ s with copies := s.copies ++ [(8, { granted := true, extents := [(sl 0x3000, 64)] })] } : State).canGrant 7
      { extents := [(sl 0x3000, 64)] } = false := by decide
/-- A CPYS of two rows of 64 bytes, from 0x2000 to 0x3000. -/
def cCpys : CopyCmd :=
  { team := 1, group := 2, kind := .cpys, desc := { src := 0x00FE000000002000, dst := 0x00FE000000003000, sstride := 64, dstride := 64, len := 64 },
    count := 2, cb := 3, phase := .queued, granted := true, extents := [(sl 0x3000, 128)], held := [sl 0x3000, sl 0x3040],
    places := [[(sl 0x3000, 64)], [(sl 0x3040, 64)]] }
theorem wit_CopyCommands_release : let c := { cCpys with phase := .running, rows := [{ i := 0, cells := (List.range 64).zipWith (fun j b => (sl 0x3000 + j, b)) (List.replicate 64 7) }] }
    let s := sCmd c { a := 7, b := sl 0x3000 }
    s.copies.find s.on.a = some c ∧ c.phase = .running ∧ c.recallable = true ∧ c.err = none ∧ c.held.contains s.on.b = true ∧ noBuffers s ∧
    s.poison = [] ∧ isSliceKey s.on.b = true ∧ s.on.b % 64 = 0 ∧ (List.replicate 64 (7 : Byte)).length = 64 ∧ Memory.wf s.mem = true := by
  unfold noBuffers; decide +kernel
theorem wit_CopyCommands_unit : let c := { cCpys with phase := .running }
    let s := sCmd c { a := 7, b := sl 0x3040 }
    s.copies.find s.on.a = some c ∧ c.nextUnit ≠ some s.on.b ∧ s.recalled s.on.b = false := by decide
theorem wit_CopyCommands_start : let s := sCmd cCpys { a := 7 }
    s.copies.find s.on.a = some cCpys ∧ cCpys.err = none ∧ cCpys.rows = [] ∧ s.firstQueued (clusterOf cCpys.core) = some s.on.a ∧
    s.engineRunning (clusterOf cCpys.core) < 4 ∧ (s.group cCpys.group).copyWait ≠ some s.on.a ∧
    (∀ i < cCpys.count, okIs (s.rowPieces cCpys.core cCpys.vd .load cCpys.desc.src
        (cCpys.desc.src.toNat + i * cCpys.desc.sstride.toInt) cCpys.desc.len.toNat) [(sl 0x2000 + 64 * i, cCpys.desc.len.toNat)] = true ∧
      s.poisoned (sl 0x2000 + 64 * i) cCpys.desc.len.toNat = false ∧
      cCpys.places.getD i [] = [(sl 0x3000 + 64 * i, cCpys.desc.len.toNat)]) ∧
    s.sourceHeld s.on.a (s.copySources cCpys) = false := by decide +kernel
theorem wit_CopyCommands_waits : let s := { sCmd cCpys { a := 7 } with claims := [8, 7], copies := [(7, cCpys), (8, cCpys)] }
    s.copies.find s.on.a = some cCpys ∧ s.firstQueued (clusterOf cCpys.core) ≠ some s.on.a := by decide
theorem wit_CopyCommands_complete :
    let c := { cCpys with phase := .running, rows := (List.range 2).map (fun i =>
      { i := i, cells := (List.range 64).zipWith (fun j b => (sl 0x3000 + i * 64 + j, b)) (List.replicate 64 (BitVec.ofNat 8 (7 * i))) }) }
    let s := sCmd c { a := 7 }
    s.copies.find s.on.a = some c ∧ c.promise = none ∧ c.qunder = false ∧ c.qover = false ∧ noBuffers s ∧ s.poison = [] ∧ Memory.wf s.mem = true ∧
    sliceBase ≤ sl 0x3000 ∧ sl 0x3000 + c.count * 64 ≤ aliasBase ∧ (s.teams.find c.team).isSome = true := by
  unfold noBuffers; decide +kernel
theorem wit_CopyCommands_failed : let c := { cCpys with phase := .running, err := some (.uncorrectable, 0x2040, 1) }
    let s := sCmd c { a := 7 }
    s.copies.find s.on.a = some c ∧ c.kind ≠ .stow ∧ c.rows = [] ∧ c.pieces = [] ∧ c.tags = [] ∧ c.cancelled = false ∧ c.promise = none ∧
    c.qunder = false ∧ c.qover = false ∧ (s.teams.find c.team).isSome = true := by decide
theorem wit_CopyCommands_missed : let s := { sCmd { cCpys with promise := some 0, descAt := 0x40 } { a := 2 } with now := 100 }
    s.promiseDue s.on.a = some 0x40 ∧ s.overdue s.on.a = some 7 ∧ (s.group s.on.a).late = [] ∧ (s.group s.on.a).issuePc = some 0x10000 ∧ (s.group s.on.a).live = true ∧ (s.group s.on.a).held = false ∧
    (s.group s.on.a).hint = none ∧ (s.group s.on.a).copyWait = none ∧ handles (s.group s.on.a) (Cause.code .missedPromise) ∧
    FMap.rising s.copies = true := by unfold handles; decide
theorem wit_CopyCommands_late : let c := { cCpys with promise := some 0, descAt := 0x40 }
    let s := ({ sCmd c { a := 2 } with now := 100 } : State).endCopy 7 c none
    (s.group 2).late = [0x40] ∧ s.promiseDue 2 = some 0x40 ∧ (s.group 2).issuePc = some 0x10000 ∧ s.copies = [] := by decide
/-- A segment of one granule of core 3, with the engine's work for it. -/
def sSeg (st : SegState) : State :=
  { State.reset with
    vdevs := [(0, { live := true, segs := [(2, { name := 5, state := st, core := 3, gran := 1, ng := 1, stowPa := 0x700000 })] })]
    mem := Memory.setBytes [] (0x00FE000000000000 + 3 * 2 ^ 24 + 0x10000) [1, 2, 3]
    copies := [(4, { kind := if st = .stowing then .stow else .restore, vd := 0, seg := 2, phase := .running })], on := { a := 0, b := 2 } }
theorem wit_SegmentsMove : ∀ st ∈ [SegState.stowing, .restoring], let s := sSeg st
    s.segWork s.on.a s.on.b = some 4 ∧ (s.copies.get 4 {}).phase = .running ∧ (s.seg s.on.a s.on.b).cluster = false ∧ s.poison = [] ∧
    Memory.wf s.mem = true ∧ (∀ x ∈ s.vdevs, x.2.track = false) ∧ (s.seg s.on.a s.on.b).state = st ∧
    isDeviceKey (s.seg s.on.a s.on.b).stowPa = true ∧
    isDeviceKey ((s.seg s.on.a s.on.b).stowPa + (s.seg s.on.a s.on.b).ng * 65536) = true ∧ isSliceKey (s.seg s.on.a s.on.b).base = true ∧
    (s.seg s.on.a s.on.b).gran + (s.seg s.on.a s.on.b).ng ≤ 40 := by decide

/-! ## Exit, spawn bins, combine buffers -/

def fExit (sc : Scope := .team) : LaneExit := { sc, pg := 0 }
theorem wit_ExitsAndIllegalWords : let w : LaneWord := { guard := fun x => x.pred (Fin.ofNat 8 (fExit).pg.val) }
    sR.laneReady w = true ∧ sR.releaseWaits (fExit).sc true = false ∧ (sR.teams.find sR.grp.team).isSome = true ∧
    sR.inOrder = true ∧ sR.grp.trap = false ∧ handles sR.grp (Cause.code .illegalOpcode) ∧
    (0x7F000000 : BitVec 32).getLsbD 31 = false ∧ (0xFF000000 : BitVec 32).getLsbD 31 = true := by unfold handles; decide
theorem wit_ExitsAndIllegalWords_stored : let s := stWith { gr with threads := [(0, { th0 with storeFault := some { v := true } }), (1, th1)] }
    let w : LaneWord := { guard := fun x => x.pred (Fin.ofNat 8 (fExit).pg.val) }
    s.laneReady w = true ∧ 0 ∈ w.acting s.grp ∧ (s.grp.thread 0).storeFault = some { v := true } := by decide
/-- A machine whose launch has bin 3, as given. -/
def sBin (b : Bin) (g : Group := gr) : State := { stWith g with launches := [(1, { bins := [(3, b)], code := 0x10000 })] }
def fSpawn : LaneSpawn := { a := R 1, b := R 6, size := .s16, pg := 0, ng := false, ea := false }
/-- A group whose threads name bin 3 in v6. -/
def grBin (n : W32) : Group :=
  { gr with threads := [(0, { th0 with v := [(1, 0xAAAA), (2, 0xBBBB), (6, n)] }), (1, { th1 with v := [(1, 0xCCCC), (6, n)] })] }
/-- The shape of that SPAWN. -/
def wSpawn : LaneWord :=
  { blocks := blockOf (R 1) 2 ++ blockOf (R 6) 1, guard := laneGuard 0 false, srcs := [{ o := R 1 }, { o := R 6 }], also := [2] }
theorem wit_SpawnWords : let s := sBin { size := 16 } (grBin 3)
    s.laneReady wSpawn = true ∧ wSpawn.acting s.grp ≠ [] ∧
    (∀ t ∈ wSpawn.acting s.grp, (((s.take [R 1, R 6]).1.getD 1 .nothing).lane (s.grp.thread t) t).toNat = 3) ∧
    (s.launch s.curTeam.launch).declares 3 = true ∧ ((s.launch s.curTeam.launch).bin 3).size = 16 ∧
    ((s.launch s.curTeam.launch).bin 3).open_ = true ∧ ((s.launch s.curTeam.launch).bin 3).gran = none ∧
    s.tagRetired (s.launch s.curTeam.launch).vd s.grp.gentag.toNat = false ∧ s.writesOut = false ∧
    ((s.launch s.curTeam.launch).bin 3).records.length + (wSpawn.acting s.grp).length ≤ 1024 := by decide
theorem wit_SpawnWords_in_ring : let s := sBin { size := 16, gran := some 2, written := 1023, records := [[1]] } (grBin 3)
    s.laneReady wSpawn = true ∧ wSpawn.acting s.grp ≠ [] ∧
    (∀ t ∈ wSpawn.acting s.grp, (((s.take [R 1, R 6]).1.getD 1 .nothing).lane (s.grp.thread t) t).toNat = 3) ∧
    (s.launch s.curTeam.launch).declares 3 = true ∧ ((s.launch s.curTeam.launch).bin 3).size = 16 ∧
    ((s.launch s.curTeam.launch).bin 3).open_ = true ∧ ((s.launch s.curTeam.launch).bin 3).gran = some 2 ∧ noBuffers s ∧
    Memory.wf s.mem = true ∧ s.tagRetired (s.launch s.curTeam.launch).vd s.grp.gentag.toNat = false ∧ s.writesOut = false ∧
    ((s.launch s.curTeam.launch).bin 3).records.length + (wSpawn.acting s.grp).length ≤ 1024 := by unfold noBuffers; decide
theorem wit_SpawnWords_waits : let s := sBin { size := 16 } { grBin 3 with posted := [[4]] }
    s.laneReady wSpawn = true ∧ wSpawn.acting s.grp ≠ [] ∧ s.writesOut = true := by decide
theorem wit_SpawnWords_parks : let s := sBin { size := 32 } (grBin 64)
    s.laneReady wSpawn = true ∧ wSpawn.acting s.grp ≠ [] ∧
    (∀ t ∈ wSpawn.acting s.grp, (((s.take [R 1, R 6]).1.getD 1 .nothing).lane (s.grp.thread t) t).toNat = 64) ∧
    (s.launch s.curTeam.launch).declares 4 = false ∧ ((s.launch s.curTeam.launch).bin 3).size ≠ 16 ∧
    ((sBin { open_ := false }).launch 1).declares 3 = true ∧ ((sBin { open_ := false }).launch 1).bin 3 = { open_ := false } ∧
    1024 ≤ (((sBin { records := List.replicate 1024 [] }).launch 1).bin 3).records.length := by decide +kernel
theorem wit_SpawnWords_ring : let s := sBin { gran := some 2 }
    s.tagRetired (s.launch 1).vd 5 = false ∧ ((s.launch 1).bin 3).gran = some 2 ∧ noBuffers s ∧ Memory.wf s.mem = true ∧
    ({ s with vdevs := [(0, { retired := [5] })] } : State).tagRetired (s.launch 1).vd 5 = true := by
  unfold noBuffers; decide
/-- The machine with a payload of one word in core 0's slice. -/
def sPay : State :=
  { sBin { size := 16, gran := some 2 } { gr with g := [(1, 3), (2, 0x00FE000000000100)] } with mem := [(sl 0x100, 0xAB), (sl 0x107, 0xCD)] }
def fSpawnLoc : GrpSpawnLoc := { d := R 2, a := R 1, size := .s16 }
/-- What the payload's load gives. -/
def payRead (s : State) (os : List Opnd) (a : W64) : Option (State × List Byte) :=
  match (s.take os).2.loadPayload a 1 with
  | (r, .ok bs) => some (r, bs)
  | (_, .error _) => none
theorem payRead_spec {s r : State} {os : List Opnd} {a : W64} {bs : List Byte} (h : payRead s os a = some (r, bs)) :
    (s.take os).2.loadPayload a 1 = (r, .ok bs) := by
  unfold payRead at h
  split at h
  · rename_i heq; simp only [Option.some.injEq, Prod.mk.injEq] at h; rw [heq, h.1, h.2]
  · cases h
theorem wit_SpawnWords_group : let w : GrpWord := { srcs := [{ o := R 1 }, { o := R 2 }] }
    sPay.groupReady w = true ∧ (gv (sPay.groupValues w) 0).toNat = 3 ∧ (sPay.launch 1).declares 3 = true ∧
    ((sPay.launch 1).bin 3).size = 16 ∧ ((sPay.launch 1).bin 3).open_ = true ∧ ((sPay.launch 1).bin 3).records.length < 1024 ∧
    ((sPay.launch 1).bin 3).gran = some 2 ∧ sPay.writesOut = false ∧ sPay.tagRetired (sPay.launch 1).vd sPay.grp.gentag.toNat = false ∧
    noBuffers sPay ∧ Memory.wf sPay.mem = true ∧ canTrap sPay .reservedField ∧ canTrap sPay .queueClosed ∧
    (sPay.take [R 1, R 2]).2.payloadBlocked 0x00FE000000000100 1 = false ∧
    payRead sPay [R 1, R 2] 0x00FE000000000100 = some ((sPay.take [R 1, R 2]).2, [0xAB, 0, 0, 0, 0, 0, 0, 0xCD]) := by unfold canTrap handles noBuffers; decide
theorem wit_SpawnWords_payload : ∀ i < 1, reachesSlice sPay (0x00FE000000000100 + BitVec.ofNat 64 (8 * i)) 8 .load (sl 0x100 + 8 * i) := by
  intro i hi
  exact reachesSlice_of (by revert i; decide)
def fSpawnRem : GrpSpawnRem := { d := R 3, a := R 1, b := R 2, dp := false, size := .s16 }
/-- A BIN window. -/
def wBin : List W64 := [0xAF800000000000AA, 0x0007000000000000, 0x1000, 0]
/-- The machine of the fabric with a BIN window, its payload in the slice. -/
def sRemPay : State :=
  { sF with
    groups := [(2, { grRem with g := [(1, 0x0003000000000080), (2, 0x82), (3, 0x00FE000000000100)] })], mem := sPay.mem,
    clusters := [(0, { windows := [(0, 3, wBin)] })] }
theorem wit_SpawnWords_remote_payload : sRemPay.writesOut = false ∧
    ∀ i < 1, reachesSlice sRemPay (0x00FE000000000100 + BitVec.ofNat 64 (8 * i)) 8 .load (sl 0x100 + 8 * i) := by
  refine ⟨by decide, fun i hi => ?_⟩
  exact reachesSlice_of (by revert i; decide)
theorem wit_SpawnWords_remote : let w : GrpWord := { srcs := [{ o := R 1 }, { o := R 2 }, { o := R 3 }], counts := true }
    let s1 := (sRemPay.take [R 1, R 2, R 3]).2
    sRemPay.groupReady w = true ∧ sRemPay.contained = [] ∧
    okIs (s1.grpCheck (gv (sRemPay.groupValues w) 0) (some (gv (sRemPay.groupValues w) 1)) { perm := 58, kinds := [2], size := 16, wr := true })
      { ws := wBin, pat := 0x82, coords := [2], off := 0x80 } = true ∧
    s1.payloadBlocked 0x00FE000000000100 1 = false ∧ s1.remoteWaits false false = false ∧
    s1.canSend s1.curVd 0 [{ ws := wBin, pat := 0x82, coords := [2], off := 0x80 }] = true ∧
    payRead sRemPay [R 1, R 2, R 3] 0x00FE000000000100 = some (s1, [0xAB, 0, 0, 0, 0, 0, 0, 0xCD]) := by decide
theorem wit_BinWords : let w : GrpWord := { srcs := [{ o := R 1 }, { o := R 2 }], dest := destOf (R 5) 1 }
    sPay.groupReady w = true ∧ (gv (sPay.groupValues w) 0).toNat < 64 ∧
    (sPay.launch sPay.curTeam.launch).declares (gv (sPay.groupValues w) 0).toNat = true ∧
    (let s := sBin {} { gr with g := [(1, 4), (2, 1048575)] }
     s.groupReady w = true ∧ (gv (s.groupValues w) 1).toNat ≤ 1048575 ∧ (s.launch 1).declares 4 = false ∧ s.grp.privileged = false ∧
      handles s.grp (Cause.code .privileged) ∧ (sBin {} { gr with fw := true }).grp.privileged = true) ∧
    (let s := sBin {} { gr with g := [(1, 64), (2, 1048576)] }
     64 ≤ (gv (s.groupValues w) 0).toNat ∧ ¬ (gv (s.groupValues w) 1).toNat ≤ 1048575 ∧ s.grp.trap = false ∧
      handles s.grp (Cause.code .reservedField)) := by unfold handles; decide
theorem wit_BinWords_flush : ∀ wt : Bool, let w : GrpWord := { srcs := [{ o := R 1 }], dest := destOf (R 5) 1, counts := wt }
    sPay.groupReady w = true ∧ (gv (sPay.groupValues w) 0).toNat < 64 ∧ sPay.grp.waits.length < 7 := by decide
theorem wit_BinWords_flush_filled : let s := sBin { records := [[1]] } { gr with g := [(1, 3)] }
    let w : GrpWord := { srcs := [{ o := R 1 }], dest := destOf (R 5) 1, counts := true }
    s.groupReady w = true ∧ (gv (s.groupValues w) 0).toNat = 3 ∧ (s.launch s.curTeam.launch).declares 3 = true ∧
    ((s.launch s.curTeam.launch).bin 3).records ≠ [] ∧ s.grp.waits.length < 7 := by decide
theorem wit_BinWords_fill : ∀ kind ∈ [StatusKind.binfl 3, .cpyst 2, .mstat 0 [4]],
    let s := { sBin {} { gr with waits := [(5, kind)] } with on := { a := 2, b := 5 } }
    (s.group s.on.a).live = true ∧ (s.group s.on.a).waits = (s.on.b, kind) :: [] ∧
    ((s.launch (s.team (s.group s.on.a).team).launch).bin 3).records = [] ∧ s.cbCommands (s.group s.on.a).team 2 = [] ∧
    (s.teamSeqs (s.group s.on.a).team).all (fun q => !([4].contains q.id)) = true ∧
    ({ s with copies := [(0, { team := 1, cb := 2, phase := .running })] } : State).cbCommands 1 2 ≠ [] := by decide
theorem wit_BinsAndDeadlines : let s := { sBin { timerAt := some 10, flush := 5, records := [[1]] } with now := 15, on := { a := 1, b := 3 } }
    ((s.launch s.on.a).bin s.on.b).timerAt = some 10 ∧ ((s.launch s.on.a).bin s.on.b).records ≠ [] ∧
    10 + ((s.launch s.on.a).bin s.on.b).flush ≤ s.now := by decide
theorem wit_BinsAndDeadlines_ring : let s := { sR with launches := [(1, { bins := [(3, { core := 6 })], eligible := true, ringsReady := false })], on := { a := 1 } }
    (s.launch s.on.a).eligible = true ∧ (s.launch s.on.a).ringsReady = false ∧ (s.launch s.on.a).retired = false ∧
    (s.launch s.on.a).failed = none ∧ (s.launch s.on.a).bins = [(3, { core := 6 })] ∧ (s.freeRun [6] 1).isSome = true ∧
    s.stowsFor (.rings s.on.a) = false ∧
    Memory.wf s.mem = true := by decide
theorem wit_BinsAndDeadlines_launch :
    let s := { sBin { core := 0, entry := 0x100, records := List.replicate 40 [1, 0, 0, 0, 2, 0, 0, 0, 3, 0, 0, 0, 4, 0, 0, 0], eligible := 40 } with
      vdevs := [(0, { live := true, run := true, clusters := List.range 96 })], on := { a := 1, b := 3 } }
    (s.launch s.on.a).retired = false ∧ (s.launch s.on.a).declares s.on.b = true ∧ ((s.launch s.on.a).bin s.on.b).records ≠ [] ∧
    ((s.launch s.on.a).bin s.on.b).due = true ∧ (s.vdev (s.launch s.on.a).vd).run = true ∧ (s.core 0).out = false ∧
    (s.launch s.on.a).failed = none ∧ 0 ∉ s.reservedCores s.on.a none ∧ s.fitsWithout 0 { budgets := [(s.launch s.on.a).spawnBudget 16] } [] false = true := by decide
/-- A machine with a combine buffer of one slot, OPEN with its one entry present, its deadline as given. -/
def sCmb (deadline : Nat) : State :=
  { sR with
    vdevs := [(0, { live := true, clusters := List.range 96, heldRecords := [{}], segs :=
      [(2, { name := 5, state := .resident, core := 0, gran := 1, ng := 1, buffer := true })] })],
    mem := Memory.setBytes [] (sl 0x10000) (descBytes [0, 1, 0, 0, 0, 0, 0, 0, 0x11100000000, deadline]), on := { a := 0, b := 2, c := 0 } }
theorem some_past (x : W64) : ∃ d ∈ [0, 0x7FFFFFFFFFFFFFFF, 0x8000000000000000, 0xFFFFFFFFFFFFFFFF],
    1 ≤ (x - BitVec.ofNat 64 d).toNat ∧ (x - BitVec.ofNat 64 d).toNat < 2 ^ 63 := by
  rcases Nat.lt_or_ge x.toNat (2 ^ 63) with h | h
  · rcases Nat.eq_zero_or_pos x.toNat with h0 | h0
    · exact ⟨0xFFFFFFFFFFFFFFFF, by decide, by bv_omega, by bv_omega⟩
    · exact ⟨0, by decide, by bv_omega, by bv_omega⟩
  · rcases Nat.eq_or_lt_of_le h with h0 | h0
    · exact ⟨0x7FFFFFFFFFFFFFFF, by decide, by bv_omega, by bv_omega⟩
    · exact ⟨0x8000000000000000, by decide, by bv_omega, by bv_omega⟩
theorem wit_BinsAndDeadlines_combine : ∃ d, let s := sCmb d
    let g := s.seg s.on.a s.on.b
    let b := s.cmbAt s.on.a g
    g.buffer = true ∧ g.present = true ∧ s.on.c < b.nslot ∧ s.bufferClaimed b = false ∧ s.expired b = [0] ∧
    (s.slotWord b 0 0).getLsbD 31 = false ∧ Memory.wf s.mem = true := by
  obtain ⟨d, hd, h1, h2⟩ := some_past ((sCmb 0).engineCycle 0)
  have key : ∀ d ∈ [0, 0x7FFFFFFFFFFFFFFF, 0x8000000000000000, 0xFFFFFFFFFFFFFFFF],
      let s := sCmb d
      let g := s.seg 0 2
      let b := s.cmbAt 0 g
      (s.slotState b 0 = 1 ∧ b.tmo = 1 ∧ s.slotWord b 0 1 = BitVec.ofNat 64 d ∧ b.nslot = 1 ∧ b.core = 0) ∧
      g.buffer = true ∧ g.present = true ∧ s.bufferClaimed b = false ∧ (s.slotWord b 0 0).getLsbD 31 = false ∧ Memory.wf s.mem = true := by
    decide +kernel
  obtain ⟨⟨k1, k2, k3, k4, k5⟩, k6, k7, k8, k9, k10⟩ := key d hd
  have past : (sCmb d).pastDeadline ((sCmb d).cmbAt 0 ((sCmb d).seg 0 2)) 0 = ((sCmb 0).engineCycle 0 - BitVec.ofNat 64 d).toNat := by
    unfold State.pastDeadline; rw [k3, k5]; rfl
  have exp : (sCmb d).slotExpired ((sCmb d).cmbAt 0 ((sCmb d).seg 0 2)) 0 = true := by
    unfold State.slotExpired; rw [past, k1, k2, decide_eq_true h1, decide_eq_true h2]; rfl
  refine ⟨d, k6, k7, ?_, k8, ?_, k9, k10⟩
  · show 0 < ((sCmb d).cmbAt 0 ((sCmb d).seg 0 2)).nslot; rw [k4]; exact Nat.one_pos
  · show (sCmb d).expired ((sCmb d).cmbAt 0 ((sCmb d).seg 0 2)) = [0]
    unfold State.expired; rw [k4]
    have hr : List.range 1 = [0] := rfl
    rw [hr, List.filter_cons_of_pos exp, List.filter_nil]; rfl
theorem wit_BinsAndDeadlines_held : (sCmb 0).on.b = 2 ∧ ({ sCmb 0 with on := {} } : State).on.b = 0 ∧
    (({ sCmb 0 with on := {} } : State).vdev 0).heldRecords = {} :: [] ∧
    (sCmb 0).slotReady ((sCmb 0).cmbAt 0 ((sCmb 0).seg 0 2)) = none := by decide +kernel

/-! ## Combine words -/

/-- A buffer of two slots, KMAX 2, rows of 64 bytes, at granule 1 of core 0: slot 0 holds token 0, entries 3 and 5 with weights 1, as
`st` says; slot 1 is FREE. A record of token 1 stands at 0x1000. `w0` is more of header word 0. -/
def cmbMem (w0 st : Nat) : List Host.Cell :=
  Memory.setBytes (Memory.setBytes [] (sl 0x10000) (descBytes [0x8000000000001001 + w0, 0, 0x00FE000000008000, 64, 0x00FE000000009000, 0, 0x1000000, 0,
    st, 0, 0x50003, 0, 0x3F8000003F800000, 0, 0, 0])) (sl 0x1000) (descBytes [0x200000001, 0, 0x50003, 0, 0x3F8000003F800000, 0, 0, 0])
/-- The machine with it; `ctl` is the control word or token in g3. -/
def sCW (w0 st : Nat) (ctl : W64) (seg : Seg := {}) : State :=
  { stWith { gr with g := [(1, 0x00FE000000001000), (2, 0x00FE000000010000), (3, ctl), (4, 0x00FE000000020000), (7, 0x0003000000000000)] } with
    vdevs := [(0, { live := true, clusters := List.range 96, segs :=
      [(2, { seg with name := 5, state := .resident, core := 0, gran := 1, ng := 1, buffer := true, writer := some 1 })] })], mem := cmbMem w0 st }
/-- The buffer of that machine. -/
def bufOf (s : State) : CmbBuf := s.cmbAt s.curVd (s.seg s.curVd 2)
theorem wit_CombineWords : ∀ s ∈ [sCW 0 0x1200000000 0, sCW 0x2000000 0x1200000000 0, sCW 0 0x2200000000 0, sCW 0 0x11200000000 0],
    findsBuffer s 0x00FE000000010000 2 (bufOf s) := by
  intro s hs
  unfold findsBuffer
  refine ⟨?_, ?_, ?_, ?_, rfl, ?_, ?_, ?_, ?_⟩ <;> (revert s; decide +kernel)
/-- The machine with a descriptor for CMBCFG. -/
def sCfg : State :=
  { sCW 0 0x1200000000 0 with
    mem := Memory.setBytes (cmbMem 0 0) (sl 0x1000) (descBytes [0x1001, 0, 0x00FF000000008000, 64, 0x00FF000000009000, 0, 0, 0]) }
theorem wit_CombineWords_config : let s := sCfg
    let w : GrpWord := { srcs := [{ o := R 1 }, { o := R 2 }], dest := destOf (R 5) 1 }
    s.groupReady w = true ∧ s.segAtBase s.curVd 0x00FE000000010000 = some 2 ∧ s.segAtBase s.curVd 0x00FE000000020000 = none ∧
    (s.seg s.curVd 2).writer = some s.grp.team ∧ (s.seg s.curVd 2).cluster = false ∧
    reachesSlice s 0x00FE000000001000 64 .load (sl 0x1000) ∧ canTrap s .attachMiss ∧ canTrap s .reservedField ∧ canTrap s .misaligned ∧
    s.claimed (s.seg s.curVd 2).base (max (bufferBytes 0x1001) (bufferBytes (s.load64 (s.seg s.curVd 2).base))) = false ∧
    s.expired (bufOf s) = [] ∧ openCount s (bufOf s) ≠ 0 ∧
    openCount { s with mem := Memory.setBytes s.mem (sl 0x10030) (leBytes 8 0) } (bufOf s) = 0 ∧
    (sCW 0 0 0 { cluster := true }).segAtBase 0 0x00FE000000010000 = some 2 := by
  refine ⟨by decide +kernel, by decide +kernel, by decide +kernel, by decide +kernel, by decide +kernel, reachesSlice_of (by decide +kernel), ?_⟩
  unfold canTrap handles; decide +kernel
theorem wit_CombineWords_open : let s := sCW 0 0 0
    let w : GrpWord := { srcs := [{ o := R 1 }, { o := R 2 }], dest := destOf (R 5) 1 }
    s.groupReady w = true ∧ ¬ tagDead s ∧ reachesSlice s 0x00FE000000001000 64 .load (sl 0x1000) ∧
    s.load64 (sl 0x1000) = 0x200000001 ∧ s.load64 (sl 0x1010) = 0x50003 ∧ s.load64 (sl 0x1018) = 0 ∧ s.load64 (sl 0x1020) = 0x3F8000003F800000 ∧
    s.load64 (sl 0x1028) = 0 ∧ (bufOf s).nslot = 2 ∧ (bufOf s).kmax = 2 ∧ s.slotState (bufOf s) 1 = 0 ∧ (s.seg s.curVd 2).state ≠ .stowing ∧
    (sCW 0 0x1200000000 0).slotState (bufOf (sCW 0 0x1200000000 0)) 0 ≠ 0 ∧ canTrap s .combineSlots ∧ canTrap s .generationRetired := by
  refine ⟨by decide +kernel, by unfold tagDead; decide +kernel, reachesSlice_of (by decide +kernel), ?_⟩
  unfold canTrap handles; decide +kernel
/-- A tag that is retired. -/
theorem wit_CombineWords_retired : let s := { stWith { gr with gentag := 7 } with vdevs := [(0, { retired := [7] })] }
    tagDead s := by unfold tagDead; decide
theorem rangeReaches_of {s : State} {core vd : Nat} {k : AccKind} {a n key : Nat}
    (h : (decide (sliceBase ≤ a) && okIs (rangeOf (s.corePlace core vd k) a n) [(key, n)] && isSliceKey key && !s.claimed key n &&
      !s.poisoned key n) = true) : rangeReaches s core vd k a n key := by
  simp only [Bool.and_eq_true, decide_eq_true_eq, Bool.not_eq_true'] at h
  exact ⟨h.1.1.1.1, eq_of_okIs h.1.1.1.2, h.1.1.2, h.1.2, h.2⟩
theorem wit_CombineWords_put : let s := sCW 0 0x1200000000 0x0003000000000000
    let b := bufOf s
    s.groupReady (groupReads [R 4, R 2, R 3]) = true ∧ ¬ tagDead s ∧ rangeReaches s s.curCore s.curVd .load 0x00FE000000020000 b.rlen (sl 0x20000) ∧
    (s.core s.curCore).l1 = [] ∧ noneDoneBut s b b.nslot ∧ s.slotNk b 0 = 2 ∧ s.slotState b 0 = 1 ∧ s.slotToken b 0 = 0 ∧ s.slotTag b 0 = 0 ∧
    s.slotExpert b 0 0 = 3 ∧ s.slotArr b 0 0 = false ∧ s.slotArr b 0 1 = false ∧ s.slotExpert b 0 1 ≠ 3 := by
  refine ⟨by decide +kernel, by unfold tagDead; decide +kernel, rangeReaches_of (by decide +kernel), by decide +kernel,
    by unfold noneDoneBut; decide +kernel, ?_⟩
  decide +kernel
theorem wit_CombineWords_late : let s := sCW 0 0x11200000000 0x0003000000000000
    s.slotExpert (bufOf s) 0 0 = 3 ∧ s.slotArr (bufOf s) 0 0 = true ∧ (sCW 0 0 0).slotState (bufOf (sCW 0 0 0)) 0 ≠ 1 := by decide +kernel
theorem wit_CombineWords_release : let s := sCW 0 0x1200000000 0
    let b := bufOf s
    let w : GrpWord := { srcs := [{ o := R 3 }, { o := R 2 }], dest := destOf (R 5) 1 }
    s.groupReady w = true ∧ s.slotState b 0 = 1 ∧ s.slotToken b 0 = 0 ∧ noneDoneBut s b 0 ∧ b.inOrder = false ∧
    (s.slotWord b 0 0).getLsbD 31 = false ∧ s.slotBad b 0 = false ∧
    rangeReaches s b.core s.curVd .store (b.out.toNat + 0 * b.ostride) (s.slotRow b 0).length (sl 0x8000) ∧
    (s.slotDone b 0).buffersAt (sl 0x8000) (s.slotRow b 0).length = [] ∧ b.sig ≠ 0 ∧ sliceBase ≤ b.sig.toNat ∧
    s.check b.core s.curVd b.sig 16 .atomic = .ok (.slice (sl 0x9000)) ∧ s.claimed (sl 0x9000) 16 = false ∧ s.poisoned (sl 0x9000) 8 = false ∧
    isSliceKey (sl 0x9000) = true ∧ (s.slotDone b 0).buffersAt (sl 0x9000) 8 = [] ∧ sl 0x8000 + (s.slotRow b 0).length ≤ sl 0x9000 ∧
    (s.vdev s.curVd).capture = [] := by
  refine ⟨by decide +kernel, by decide +kernel, by decide +kernel, by unfold noneDoneBut; decide +kernel, by decide +kernel, by decide +kernel,
    by decide +kernel, rangeReaches_of (by decide +kernel), by decide +kernel, by decide +kernel, by decide +kernel,
    eq_of_okIs (by decide +kernel), ?_⟩
  decide +kernel
/-- IN_ORDER, and another token is next. -/
theorem wit_CombineWords_order : let s := { sCW 0x2000000 0x1200000000 0 with mem := Memory.setBytes (cmbMem 0x2000000 0x1200000000) (sl 0x10030) [5] }
    (bufOf s).inOrder = true ∧ nextToken s (bufOf s) = 5 ∧ s.slotState (bufOf s) 0 = 1 ∧ s.slotToken (bufOf s) 0 = 0 := by decide +kernel
theorem wit_CombineWords_stat : let s := sCW 0 0x1200000000 0
    s.groupReady { srcs := [{ o := R 2 }], dest := destOf (R 5) 1 } = true ∧
    s.groupReady { srcs := [{ o := R 3 }, { o := R 2 }], dest := destOf (R 5) 1 } = true ∧
    s.segAtBase s.curVd 0x00FE000000020000 = none ∧ s.claimed (s.seg s.curVd 2).base 64 = false ∧
    (({ s with mem := [] } : State).load64 (s.seg s.curVd 2).base).getLsbD 63 = false := by decide +kernel
/-- RENORM, one entry of two present. -/
theorem wit_CombineWords_renorm : let s := sCW 0x1000000 0x11200000000 0
    let here := (s.slotOrder (bufOf s) 0).filter (s.slotArr (bufOf s) 0)
    (bufOf s).renorm = true ∧ here = [0] ∧ s.slotOrder (bufOf s) 0 = [0, 1] ∧
    fp32 (weightSum (here.map (s.slotWeight (bufOf s) 0))) = .fin false (2 ^ 23) (-23) ∧
    s.slotWeights (bufOf s) 0 = [(0, 0x40000000)] := by decide +kernel
/-- The fabric machine whose g7 names a PEER window, for any row length that the sender may use. -/
def sRemCmb : State := fab (sCW 0 0 0)
theorem wit_CombineWords_rem : let s := { sRemCmb with clusters := [(0, { windows := [(0, 3, wPeer.set 3 0x82)] })] }
    let n := 64 * ((Config.freeWord s.free).toNat % 128 + 1)
    let w : GrpWord := { srcs := [{ o := R 4 }, { o := R 7 }, { o := R 3 }], counts := true }
    let s1 := (s.take [R 4, R 7, R 3]).2
    let t : Target := { ws := wPeer.set 3 0x82, pat := 0x82, coords := [2], off := 0x1000 }
    s.groupReady w = true ∧ s.contained = [] ∧ (gv (s.groupValues w) 0).toNat % 16 = 0 ∧
    s1.grpCheck (gv (s.groupValues w) 1) none { perm := 58, kinds := [0], single := true, size := n, wr := true } = .ok t ∧
    rangeReaches s s.curCore s.curVd .load (gv (s.groupValues w) 0).toNat n (sl 0x20000) ∧ (s.core s.curCore).l1 = [] ∧
    s1.canSend s1.curVd 4 [t] = true := by
  have key : ∀ i < 128, let s := { sRemCmb with clusters := [(0, { windows := [(0, 3, wPeer.set 3 0x82)] })] }
      let w : GrpWord := { srcs := [{ o := R 4 }, { o := R 7 }, { o := R 3 }], counts := true }
      okIs ((s.take [R 4, R 7, R 3]).2.grpCheck (gv (s.groupValues w) 1) none { perm := 58, kinds := [0], single := true, size := 64 * (i + 1), wr := true })
        { ws := wPeer.set 3 0x82, pat := 0x82, coords := [2], off := 0x1000 } = true ∧
      (decide (sliceBase ≤ (gv (s.groupValues w) 0).toNat) &&
        okIs (rangeOf (s.corePlace s.curCore s.curVd .load) (gv (s.groupValues w) 0).toNat (64 * (i + 1))) [(sl 0x20000, 64 * (i + 1))] &&
        isSliceKey (sl 0x20000) && !s.claimed (sl 0x20000) (64 * (i + 1)) && !s.poisoned (sl 0x20000) (64 * (i + 1))) = true := by
    decide +kernel
  obtain ⟨h1, h2⟩ := key _ (Nat.mod_lt (Config.freeWord (fab (sCW 0 0 0)).free).toNat (by decide : 0 < 128))
  exact ⟨by decide +kernel, by decide +kernel, by decide +kernel, eq_of_okIs h1, rangeReaches_of h2, by decide +kernel, by decide +kernel⟩

/-! ## Scheduling, memory, registers -/

/-- A machine whose launch waits for a core. -/
def sWait : State :=
  { sR with
    vdevs := [(0, { live := true, run := true, clusters := List.range 2 })],
    launches := [(1, { nP := 1, nC := 1, roles := true, budgetP := 40, budgetC := 8, eligible := true, code := 0x10000, entryP := 8, scratch := 1, started := true, prio := 9 })], on := { a := 0 } }
theorem wit_Placement : let v := sWait.vdev sWait.on.a
    v.live = true ∧ v.run = true ∧ sWait.teams.all (fun p => !(p.2.vd == sWait.on.a && p.2.phase == .placing)) = true ∧
    (∃ w, sWait.waiting sWait.on.a = w :: [] ∧ w.saved = none ∧ sWait.stowsFor (.scratch w.launch w.key) = false ∧
      sWait.choiceFor sWait.on.a w = .core 1 ∧ w.launch = 1) ∧
    (sWait.launch 1).nextTeam = some 0 := by
  refine ⟨by decide, by decide, by decide, ⟨{ key := 0, prio := 9, queue := 0, saved := none, order := 1, launch := 1, since := 0 }, ?_⟩, by decide⟩
  decide +kernel
theorem wit_Placement_release : let s := { sWait with teams := [(1, { launch := 1, groups := [2], nScratch := 1, scratch := 3, phase := .placing })] }
    s.teams.keysWhere (fun _ t => t.vd == s.on.a && t.phase == .placing) = [1] ∧ (s.launch (s.team 1).launch).attach = [] ∧
    (s.team 1).nScratch ≠ 0 ∧ (s.team 1).groups.Nodup ∧
    (∀ k ∈ (s.team 1).groups, (s.group k).regState 0 ≠ .pending ∧ (s.group k).regState 1 ≠ .pending) := by decide
theorem wit_Placement_fits : sWait.fitsWithout 1 { budgets := [40, 8] } [] true = true := by decide
/-- The machine whose launch is held for a preference, or whose team has waited. -/
theorem wit_TeamsLeave_hold :
    let l : Launch := { eligible := true, started := true, budgetP := 56, attach := [(5, false)], holdFrom := [(0, 0)] }
    let s := { sR with
      vdevs := [(0, { live := true, run := true, clusters := [0], segs := [(2, { name := 5, state := .resident, core := 0, ng := 1 })] })],
      launches := [(1, l)], teams := [(1, { launch := 1, nTiles := 8 })], on := { a := 1 }, cpNow := 9000 }
    let s2 := { s with launches := [(1, { l with tiles := 1 })] }
    (∃ w, s2.waitingOf s2.on.a = [] ++ w :: [] ∧ s2.choiceFor (s2.launch s2.on.a).vd w = .hold 1 ∧
      (s2.launch s2.on.a).holdFrom.find w.key = some 0) ∧ 0 + 8192 ≤ s2.cpNow := by
  refine ⟨⟨{ key := 0, prio := 0, queue := 0, saved := none, order := 1, launch := 1, since := 0 }, ?_⟩, by decide⟩
  decide +kernel
/-- A machine of one core in service whose tiles are all held by a team of low priority, that has run as long as `now` says. -/
def sVictim (hint now : Nat) (idem : Bool) : State :=
  { sR with
    vdevs := [(0, { live := true, run := true, clusters := [0] })], now := now, cpNow := 70000, on := { a := 3 },
    cores := (List.range 7).map (fun i => (i + 1, { out := true })),
    launches := [(1, { hint := hint, idem := idem, prio := 1, next := 1, fates := [(0, .placed)] }),
                 (3, { eligible := true, started := true, tiles := 8, prio := 9, budgetP := 8 })],
    teams := [(1, { launch := 1, groups := [2], launched := 64, phase := .running, nTiles := 8, base := 1, effective := 1 })] }
theorem wit_TeamsLeave_victim : let s := sVictim 1000 990 false
    (∃ w, s.waitingOf s.on.a = [] ++ w :: [] ∧ (∀ x ∈ s.vdCores 0, s.fitsWithout x (s.needOf 0 w) [] true = false) ∧
      s.victimsFor w = some (0, [1]) ∧ w.since + 65536 ≤ s.cpNow ∧ (s.launch s.on.a).victimCore.find w.key = none ∧ s.spareFor 0 w = none) ∧
    (s.vdev (s.launch s.on.a).vd).run = true ∧ s.decision 1 = .drain := by
  refine ⟨⟨{ key := 0, prio := 9, queue := 0, saved := none, order := 3, launch := 3, since := 0 }, ?_⟩, by decide, by decide⟩
  decide +kernel
theorem wit_TeamsLeave_decision :
    ((sVictim 1000 990 false).launch 1).hint - (sVictim 1000 990 false).progressOf ((sVictim 1000 990 false).team 1) ≤
      (sVictim 1000 990 false).drainBudget ((sVictim 1000 990 false).team 1) ∧
    8 * (sVictim 1000000 100 true).progressOf ((sVictim 1000000 100 true).team 1) ≤ ((sVictim 1000000 100 true).launch 1).hint ∧
    (sVictim 1000000 100 true).decision 1 = .flush ∧ (sVictim 1000000 100 false).decision 1 = .save ∧
    (({ sR with teams := [(1, { phase := .draining 0 })], on := { a := 1 } } : State).team 1).phase = .draining 0 := by decide
theorem wit_TeamsLeave_save : let s := { sR with teams := [(1, { launch := 1, groups := [2], phase := .saving })], on := { a := 1 } }
    (s.teams.find s.on.a).isSome = true ∧ s.saveReady s.on.a = true ∧ (s.team s.on.a).spawnBin = none := by decide
theorem wit_TeamsLeave_end : let s := { sR with teams := [(1, { launch := 1, groups := [2], phase := .ending, completion := 7 })], on := { a := 1 } }
    let tm := s.team s.on.a
    (s.teams.find s.on.a).isSome = true ∧ tm.phase = .ending ∧ tm.spawnBin = none ∧ (∀ k ∈ tm.groups, (s.group k).copyWait = none ∧ (s.group k).inPipe = false) ∧
    s.teamCopies s.on.a = [] ∧ s.teamSeqs s.on.a = [] ∧ s.getsOut s.on.a = false ∧ s.dirtyClaimed tm.core = false ∧ tm.domExit = false ∧
    tm.completion ≠ 0 := by decide
theorem wit_MemoryEvents : let l : L1Line := { line := 0xC00, present := 1, dirty := 1 }
    let s := { sR with cores := [(0, { l1 := [l] })], on := { a := 0, b := 0xC00 } }
    (s.core s.on.a).line s.on.b = some l ∧ s.claimed (l.line * 128) 128 = false ∧ l.line = s.on.b ∧ l.dirty = 1 ∧ l.bad = 0 ∧ s.poison = [] ∧
    (∀ p ∈ s.vdevs, p.2.track = false) ∧ Memory.wf s.mem = true := by decide +kernel
theorem wit_MemoryEvents_walk : let w : PendingWalk := { vd := 0, page := 1, cores := [4], leaf := 0x600B9, at_ := 0x50008 }
    let s := { sD with walks := [w], on := { a := 0, b := 1 } }
    s.walks = [w] ∧ w.vd = s.on.a ∧ w.page = s.on.b ∧ w.cores = [4] := by decide
theorem wit_MemoryEvents_host : let s := { sD with on := { a := 0x60000, b := 64 } }
    s.on.a + s.on.b ≤ 2 ^ 39 ∧ s.claimed s.on.a s.on.b = false ∧ 0x60010 % 64 + [(1 : Byte), 2].length ≤ 64 ∧
    0x60010 + [(1 : Byte), 2].length ≤ 2 ^ 39 ∧ s.claimed 0x60010 [(1 : Byte), 2].length = false ∧ s.poison = [] ∧
    (∀ p ∈ s.vdevs, p.2.track = false) ∧ Memory.wf s.mem = true := by decide +kernel
theorem wit_MemoryEvents_repair :
    let s := { sR with on := { a := 77 }, platform := { sR.platform with corrected := [(errorKey .systemSram 77, List.replicate 16 0)] } }
    16 ≤ s.errorsToday .systemSram s.on.a ∧ s.errorsToday .slice s.on.a < 16 ∧
    (∀ c ∈ s.platform.jobs, c / 96 ≠ s.on.a / (6 * 2 ^ 20)) ∧
    (let u := { sR with on := { a := channelOf 0x40 }, platform := { sR.platform with
       channelLimit := 1, corrected := [(errorKey .lpddr 0x40, [0, 0])], sparedChannels := [20 - channelOf 0x40 / 16 * 16] } }
     u.on.a < 32 ∧ u.platform.channelLimit < u.channelErrors u.on.a ∧ ∀ c ∈ u.platform.sparedChannels, c / 16 ≠ u.on.a / 16) ∧
    (let u := { sR with on := { a := 17 }, platform := { sR.platform with sparedChannels := [20] } }
     ∃ c ∈ u.platform.sparedChannels, c / 16 = u.on.a / 16) := by decide
/-- A machine with a live virtual device 0. -/
def sV (v : VDev := {}) : State := { sR with vdevs := [(0, { v with live := true })] }
theorem wit_RegistersAndInvalidations : ((sV).vdev 0).live = true ∧ ((sV).vdev 1).live = false ∧ ((sV { invBusy := true }).vdev 0).invBusy = true ∧
    (0x10 : W64).toNat / 2 ^ 4 % 2 ^ 28 ≠ 0 ∧ (0x500000001 : W64).toNat / 2 ^ 4 % 2 ^ 28 = 0 ∧ (0x500000001 : W64).getLsbD 0 = true ∧
    ((sV).vdev 0).invBusy = false ∧ (0x500000001 : W64).toNat / 2 % 4 = 0 ∧ (0x500000001 : W64).toNat / 2 ^ 32 ≠ 0 ∧
    (3 : W64).toNat / 2 % 4 = 1 ∧ (0x2007 : W64).toNat / 2 % 4 = 3 ∧ (8 : W64).getLsbD 0 = false := by decide
/-- A dirty line of the virtual device lies under a claim. -/
def sInvDirty : State :=
  { sV { invBusy := true } with
    cores := [(0, { l1 := [{ line := 3, dirty := 1 }] })], on := {},
    copies := [(7, { granted := true, phase := .running, extents := [(384, 64)], held := [384] })], claims := [7] }
theorem wit_RegistersAndInvalidations_done : (({ sV { invBusy := true } with on := {} } : State).vdev 0).invBusy = true ∧
    (({ sV { invBusy := true } with on := {} } : State).vdL1 0).any ({ sV { invBusy := true } with on := {} } : State).dirtyClaimed = false ∧
    (sInvDirty.vdL1 0).any sInvDirty.dirtyClaimed = true ∧
    ({ sV { invBusy := true } with on := {} } : State).copyTranslated 0 = false ∧
    ({ sV { invBusy := true } with copies := [(0, { phase := .running })] } : State).copyTranslated 0 = true := by decide
/-- A machine with an event ring of 64 entries at 0x10000, its page's leaf as given: at 0x60000 of device or host memory, marked accessed
and dirty. -/
def sRingAt (l : Nat) : State :=
  { sR with
    mem := Memory.setBytes memTable 0x50008 (leBytes 8 l),
    vdevs := [(0, { live := true, clusters := List.range 96, root := 0x20001, evBase := 0x10000, evEn := true, evLog2n := 6, evWidx := 5 })] }
def sRing : State := sRingAt 0x601B9
theorem readPte_of_agree {s : State} {m : List Host.Cell} {k : Nat} (h : ∀ i < 8, Memory.get m (k + i) = Memory.get s.mem (k + i)) :
    ({ s with mem := m } : State).readPte k = s.readPte k := by
  have : Memory.getBytes m k 8 = Memory.getBytes s.mem k 8 := by
    unfold Memory.getBytes
    exact List.map_congr_left (fun i hi => h i (List.mem_range.mp hi))
  simp only [State.readPte, State.load64, State.loadLe, State.bytes, this]
theorem ptes_sRing : ∀ l ∈ [0x601B9, 0x40000000000601B9], (sRingAt l).readPte 0x20000 = 0x40001 ∧ (sRingAt l).readPte 0x40000 = 0x50001 ∧
    (sRingAt l).readPte 0x50008 = BitVec.ofNat 64 l := by decide +kernel
theorem walk_sRing (l : Nat) (hl : l ∈ [0x601B9, 0x40000000000601B9]) (m : List Host.Cell) (a : Nat)
    (h : ∀ x < 0x60000, Memory.get m x = Memory.get (sRingAt l).mem x)
    (h1 : 0x10000 ≤ a) (h2 : a < 0x20000) : ({ sRingAt l with mem := m } : State).walk 0 a = .leaf (BitVec.ofNat 64 l) 0x50008 0 := by
  have f0 : natField a 42 14 = 0 := by unfold natField; omega
  have f1 : natField a 29 13 = 0 := by unfold natField; omega
  have f2 : natField a 16 13 = 1 := by unfold natField; omega
  have r : ∀ k, k + 8 ≤ 0x60000 → ({ sRingAt l with mem := m } : State).readPte k = (sRingAt l).readPte k :=
    fun k hk => readPte_of_agree (fun i hi => h _ (by omega))
  have hv : ({ sRingAt l with mem := m } : State).vdev 0 = (sRingAt l).vdev 0 := rfl
  have hp : ({ sRingAt l with mem := m } : State).heldPointer 0 0x20000 = none := rfl
  have q : ∀ k n, ({ sRingAt l with mem := m } : State).poisoned k n = false := fun _ _ => rfl
  have p2 := (r 0x20000 (by decide)).trans (ptes_sRing l hl).1
  have p1 := (r 0x40000 (by decide)).trans (ptes_sRing l hl).2.1
  have p0 := (r 0x50008 (by decide)).trans (ptes_sRing l hl).2.2
  have b0 : ((sRingAt l).vdev 0).root.bit 0 = true := (show (0x20001 : W64).bit 0 = true by decide)
  have a2 : ((sRingAt l).vdev 0).root.field 17 39 * 2 ^ 17 + 0 * 8 = 0x20000 := (show (0x20001 : W64).field 17 39 * 2 ^ 17 + 0 * 8 = 0x20000 by decide)
  have a1 : frameOf 0x40001 + 0 * 8 = 0x40000 := by decide
  have le : ∀ l ∈ [0x601B9, 0x40000000000601B9], W64.bit (BitVec.ofNat 64 l) 0 = true ∧ leafOk 0 (BitVec.ofNat 64 l) = true ∧
      W64.bit (BitVec.ofNat 64 l) 2 = false := by decide +kernel
  have w0 : ({ sRingAt l with mem := m } : State).walk0 0x50000 a = .leaf (BitVec.ofNat 64 l) 0x50008 0 := by
    have a0 : 0x50000 + 1 * 8 = 0x50008 := rfl
    simp only [State.walk0, f2, a0, q, p0, le l hl, Bool.not_true, Bool.false_eq_true, if_false]
  simp only [State.walk, State.walk1, f0, f1, hv, b0, a2, a1, hp, q, p2, p1]
  exact w0
theorem wit_EventsAndQueueControl : ∀ l ∈ [0x601B9, 0x40000000000601B9], let s := sRingAt l
    let v := s.vdev 0
    let e := BitVec.ofNat 64 l
    v.evEn = true ∧ v.evStuck = false ∧ v.evFresh = false ∧ v.evBuffer = [] ∧ v.evLog2n = 6 ∧ v.evBase.toNat % 65536 = 0 ∧
    v.evBase.toNat < sliceBase ∧ permOk e .load = true ∧ permOk e .store = true ∧ keyOk v.keys e .load = true ∧
    keyOk v.keys e .store = true ∧ e.getLsbD 7 = true ∧ e.getLsbD 8 = true ∧
    (e.toNat / 2 ^ 62 = if l = 0x601B9 then 0 else 1) ∧ e.toNat / 2 ^ 16 % 2 ^ 40 * 2 ^ 16 = 0x60000 ∧ s.poison = [] ∧
    (∀ p ∈ s.vdevs, p.2.track = false) ∧ Memory.wf s.mem = true ∧
    (∀ pa ∈ [0x60000, 2 ^ 56 + 0x60000], v.evWidx - leValue (Memory.getBytes s.mem (pa + 8) 8) ≠ 64) := by decide +kernel
theorem wit_EventsAndQueueControl_buffers : ((sV).vdev 0).evEn = false ∧ ((sV { evBuffer := [{}] }).vdev 0).evBuffer ≠ [] ∧
    ((({ sRing with on := {} } : State).setVdev 0 { (sRing.vdev 0) with evBuffer := [{ type_ := 1 }] }).vdev 0).evBuffer = { type_ := 1 } :: [] ∧
    (match (({ sRing with on := {} } : State).setVdev 0 { (sRing.vdev 0) with evBuffer := [{ type_ := 1 }] }).ringPut 0 { type_ := 1 } with
      | .done _ => true
      | .full => false
      | .broken => false) = true := by decide +kernel
theorem wit_EventsAndQueueControl_queues : (0x1E5 : W64).getLsbD 8 = true ∧ (0x1E5 : W64).getLsbD 5 = true ∧
    (0xE5 : W64).getLsbD 8 = false ∧ (0xE5 : W64).getLsbD 7 = true ∧ (0x65 : W64).getLsbD 8 = false ∧ (0x65 : W64).getLsbD 7 = false ∧
    (0x65 : W64).getLsbD 5 = true ∧ (5 : W64).getLsbD 5 = false ∧ (5 : Nat) < 64 ∧ ((sV { queues := [(2, { state := .halted })] }).vdev 0).queues.get 2 {} = { state := .halted } := by
  decide
theorem wit_EventsAndQueueControl_saved : let s := { sR with
      vdevs := [(0, { live := true, tflSeq := 1, saved := [(1, { team := { launch := 1 }, groups := [(2, { grTrap with held := true, trappc := 0x10004 })] })] })],
      teams := [] }
    s.tfLive 0 0x1000000000000 = none ∧ s.tfSaved 0 0x1000000000000 = some 1 ∧ ((s.vdev 0).saved.find 1).isSome = true ∧
    (∀ x ∈ (s.vdev 0).saved, ∀ g ∈ x.2.groups, g.2.resumeAt = [0x10004]) ∧ (sV).tfLive 0 0 = none ∧ (sV).tfSaved 0 0 = none ∧
    ({ grTrap with trappc := 2 } : Group).resumeAt = [2] := by decide
/-- A machine whose team's one group is held. -/
def sHeld : State :=
  { stWith { grTrap with report := true, held := true } with
    vdevs := [(0, { live := true, clusters := List.range 96, tflSeq := 1, dbm := 0x100001, dbIdx := 2 })], on := {},
    mem := [(0x100010, 9), (0x100018, 7)] }
theorem wit_EventsAndQueueControl_teams : (0x1000000000000 : W64).toNat / 2 ^ 48 % 4 = 1 ∧ (0x2000000000000 : W64).toNat / 2 ^ 48 % 4 = 2 ∧
    sHeld.tfLive 0 0x1000000000000 = some 1 ∧ sHeld.tfLive 0 0x2000000000000 = some 1 ∧ (sHeld.team 1).groups = [2] ∧ (sHeld.team 1).groups.any (fun k => (sHeld.group k).held) = true ∧
    sHeld.dirtyClaimed (sHeld.team 1).core = false ∧ (sHeld.launch (sHeld.team 1).launch).failed = none ∧
    (sHeld.vdev sHeld.on.a).live = true ∧
    (sHeld.vdev sHeld.on.a).dbm.toNat / 2 ^ 20 % 2 ^ 36 * 2 ^ 20 + 8 * (sHeld.vdev sHeld.on.a).dbIdx + 8 ≤ 2 ^ 39 ∧
    Memory.wf sHeld.mem = true := by decide

/-! ## Command queues -/

/-- A running queue 2 whose ring is at 0x10000 of core 0's slice and whose write index is at 0x20000; one packet is there. -/
def qRun : HQueue := { base := 0x00FE000000010000, widxAt := 0x00FE000000020000, log2n := 4, ridx := 3, state := .running, en := true }
/-- The words of a packet. -/
def mk8 (l : List Nat) : List W64 := (List.range 8).map (fun i => BitVec.ofNat 64 (l.getD i 0))
/-- A machine with that queue, its write index as given, a packet in place 3. -/
def sQ (w : Nat) (x : HQueue := qRun) : State :=
  { sR with
    vdevs := [(0, { live := true, run := true, clusters := List.range 96, queues := [(2, x)] })], on := { a := 0, b := 2 },
    mem := Memory.setBytes (Memory.setBytes [] (sl 0x100C0) (descBytes [0x700000005, 0, 8, 9, 0, 0, 0, 0])) (sl 0x20000) (leBytes 8 w) }
theorem wit_CommandQueues : let s := sQ 4
    (s.vdev 0).live = true ∧ (s.vdev 0).run = true ∧ (s.vdev 0).evBuffer.length < 256 ∧ (s.vdev 0).capOn = false ∧
    (s.hqueue 0 2).state = .running ∧ (s.hqueue 0 2).en = true ∧ okIs (s.readIndex 0 2) 4 = true ∧ (s.hqueue 0 2).ridx < 4 ∧
    4 ≤ (s.hqueue 0 2).ridx + 2 ^ (s.hqueue 0 2).log2n ∧ okIs (s.ringSlot 0 2 3) (mk8 [0x700000005, 0, 8, 9]) = true ∧
    ((mk8 [0x700000005, 0, 8, 9]).getD 0 0).getLsbD 9 = false ∧
    s.packetBad 0 { index := 3, words := mk8 [0x700000005, 0, 8, 9] } = none := by decide +kernel
theorem wit_CommandQueues_bad : okIs ((sQ 2).readIndex 0 2) 2 = true ∧ 2 < ((sQ 2).hqueue 0 2).ridx ∧
    okIs ((sQ 20).readIndex 0 2) 20 = true ∧ ((sQ 20).hqueue 0 2).ridx + 2 ^ ((sQ 20).hqueue 0 2).log2n < 20 := by decide +kernel
theorem wit_CommandQueues_store : plainMemory (sQ 4) ∧ okIs ((sQ 4).ioPlace 0 ((sQ 4).hqueue 0 2).widxAt.toNat 8 .load) (sl 0x20000) = true ∧
    ((sQ 4).hqueue 0 2).ridx ≤ (19 : W64).toNat ∧ (19 : W64).toNat ≤ ((sQ 4).hqueue 0 2).ridx + 2 ^ ((sQ 4).hqueue 0 2).log2n ∧
    ((sQ 4 { qRun with state := .stopped }).hqueue 0 2).state = .stopped := by
  unfold plainMemory noBuffers; decide +kernel
theorem wit_CommandQueues_run : ((sQ 4).vdev 0).run = true ∧ ((sQ 4).teams.find 1).isSome = true ∧ ((sQ 4).team 1).vd = 0 ∧
    ((sQ 4).team 1).phase = .running := by decide
/-- A machine that has been told to stop, with no team left and one L1 line. -/
def sStop : State :=
  { State.reset with vdevs := [(0, { live := true, run := false, clusters := [0] })], cores := [(1, { l1 := [{ line := 0xC00, present := 1, dirty := 1 }] })] }
theorem wit_CommandQueues_stop : (∀ p ∈ sStop.teams, p.2.vd ≠ sStop.on.a) ∧
    (∀ p ∈ sStop.copies, p.2.vd = sStop.on.a → p.2.phase ≠ .running) ∧ (sStop.vdev sStop.on.a).stopped = false ∧
    (sStop.vdev sStop.on.a).live = true ∧ (sStop.vdev sStop.on.a).run = false ∧
    (sStop.vdev sStop.on.a).clusters.contains (1 / 8) = true ∧ (sStop.core 1).l1 = [{ line := 0xC00, present := 1, dirty := 1 }] := by decide +kernel
theorem wit_CommandQueues_stop_claims : ∀ c, sStop.dirtyClaimed c = false := by
  intro c
  by_cases h : c = 1
  · subst h; decide
  · have : sStop.core c = {} := by simp [State.core, sStop, FMap.get, h]
    simp [State.dirtyClaimed, this]
/-- A machine whose queue 2 holds a packet that has not started. -/
def sP (ws : List Nat) (st : QState := .running) : State :=
  { sQ 4 with vdevs := [(0, { live := true, run := true, clusters := List.range 96, queues :=
      [(2, { qRun with state := st, packets := [{ index := 3, words := mk8 ws }] })] })] }
/-- A LAUNCH packet whose kernel record lies at 0x3000 of the slice. -/
def wsLaunch : List Nat := [0x900000001, 0, 0x00FE000000003000, 0x100000002, 1000, 0x09, 0x30000, 0xFFFFFFFF]
/-- The machine with that record: code at 0x10000, entry 8, one group of 8 registers. -/
def sLaunch : State :=
  { sP wsLaunch with mem := Memory.setBytes [] (sl 0x3000) (descBytes [0x10000, 8, 0x8001, 0, 0, 0, 0, 0]) }
theorem wit_Packets_launch : let p : Packet := { index := 3, words := mk8 wsLaunch }
    sLaunch.startable 0 2 = some p ∧ (sLaunch.hqueue 0 2).state ≠ .aborted ∧ (p.words.getD 6 0).toNat % 4 = 0 ∧ (sLaunch.vdev 0).capOn = false ∧ (p.words.getD 0 0).toNat % 256 = 1 ∧ p.words.getD 1 0 = 0 ∧
    p.attachBad = false ∧
    (match sLaunch.kernelRecord 0 (p.words.getD 2 0).toNat with
      | .ok r => decide (r.w = mk8 [0x10000, 8, 0x8001])
      | .error _ => false) = true := by decide +kernel
/-- A BARRIER packet on the signal at 0x4000 of the slice: its VALUE is at least 5. -/
def wsBarrier : List Nat := [2, 0, 0x05FE000000004001, 0, 0, 0, 0, 0]
/-- The machine with that packet and that signal. -/
def sBarrier (v e : Nat) : State := { sP wsBarrier with mem := Memory.setBytes [] (sl 0x4000) (descBytes [v, e]) }
theorem wit_Packets_barrier : ∀ p ∈ [(5, 0, BarrierTest.holds), (4, 0, .waits), (0x8000000000000000, 0, .negative), (7, 2 ^ 32, .error)],
    let s := sBarrier p.1 p.2.1
    let k : Packet := { index := 3, words := mk8 wsBarrier }
    s.startable s.on.a s.on.b = some k ∧ (k.words.getD 0 0).toNat % 256 = 2 ∧ k.words.getD 1 0 = 0 ∧ s.barrierTest s.on.a k = p.2.2 := by
  decide +kernel
theorem wit_Packets_barrier_test : let s := sBarrier 5 0
    ({ index := 3, words := mk8 wsBarrier } : Packet).entries = [0x05FE000000004001] ∧
    okIs (s.ioSignal 0 (BitVec.ofNat 64 ((0x05FE000000004001 : W64).toNat / 16 % 2 ^ 52 * 16)) .load) (sl 0x4000) = true ∧
    s.poisoned (sl 0x4000) 16 = false ∧ 0 ≤ (s.load64 (sl 0x4000)).toInt ∧ (s.load64 (sl 0x4000 + 8)).getLsbD 32 = false ∧
    ((sBarrier 0x8000000000000000 0).load64 (sl 0x4000)).toInt < 0 ∧ ((sBarrier 7 (2 ^ 32)).load64 (sl 0x4000 + 8)).getLsbD 32 = true := by
  decide +kernel
theorem wit_Packets_resolve :
    let k : Packet := { index := 3, words := mk8 wsBarrier, started := true }
    let s := { sBarrier 5 0 with vdevs := [(0, { live := true, clusters := List.range 96, queues := [(2, { qRun with packets := [k] })] })] }
    (s.hqueue s.on.a s.on.b).packets.find? (fun y => y.started && y.kind == 2) = some k ∧ s.barrierTest s.on.a k = .holds := by
  decide +kernel
theorem wit_Packets_aborted : let s := sP [5, 0, 1, 2] .aborted
    (s.hqueue s.on.a s.on.b).state = .aborted ∧ s.startable s.on.a s.on.b = some { index := 3, words := mk8 [5, 0, 1, 2] } ∧
    (mk8 [5, 0, 1, 2]).getD 1 0 = 0 := by decide
theorem wit_Packets_others : ∀ k ∈ [3, 4, 5], let s := sP [k, 0, 0x00FE000000004000, 1]
    s.startable s.on.a s.on.b = some { index := 3, words := mk8 [k, 0, 0x00FE000000004000, 1] } ∧
    (s.hqueue s.on.a s.on.b).state ≠ .aborted ∧ ((mk8 [k, 0, 0x00FE000000004000, 1]).getD 0 0).toNat % 256 = k := by decide
/-- A change of the signal at 0x4000 is made. -/
def changes? (s : State) (o : SignalOp) : Bool :=
  match s.changeSignal 0 0x00FE000000004000 o with
  | .done _ => true
  | .fault _ => false
  | .wait => false
theorem wit_Packets_signal : let s := sP [3, 0, 0x00FE000000004000, 1]
    plainMemory s ∧ (s.vdev 0).capture = [] ∧ okIs (s.ioSignal 0 0x00FE000000004000 .atomic) (sl 0x4000) = true ∧ sliceBase ≤ (0x00FE000000004000 : W64).toNat ∧
    s.claimed (sl 0x4000) 8 = false ∧ changes? s (.add 1) = true ∧ changes? s (.set 1) = true ∧ (s.vdev 0).evEn = false := by
  unfold plainMemory noBuffers; decide +kernel
/-- A machine with a SEGMENT packet of an operation, and a segment of that name, RESIDENT. -/
def sSegP (op name : Nat) (st : SegState := .resident) : State :=
  let s := sP [4, 0, 5, op]
  { s with vdevs := [(0, { s.vdev 0 with stowBase := 0x700000, stowLen := 16, segs := [(1, { name := BitVec.ofNat 64 name, state := st, gran := 2, ng := 1 })] })] }
theorem wit_Packets_segments : (sSegP 0 5).segNamed 0 5 = some 1 ∧ ((sSegP 0 5).stowNamed 0 5 (.packet 0 2 3)).isSome = true ∧
    ((sSegP 1 5 .stowed).dropSeg 0 1 none (.packet 0 2 3)).isSome = true ∧ (∀ op ∈ [0, 1, 2, 3], ∀ y ∈ ((sSegP op 5).hqueue 0 2).packets, y.started = false) ∧
    ((sSegP 2 5 .stowed).vdCores 0).contains (((mk8 [4, 0, 5, 2]).getD 4 0).toNat % 2 ^ 10) = true ∧
    (({ sSegP 2 5 .stowed with vdevs := [(0, { clusters := [1] })] } : State).vdCores 0).contains (((mk8 [4, 0, 5, 2]).getD 4 0).toNat % 2 ^ 10) = false ∧ ((sSegP 2 5).seg 0 1).state = .resident ∧ (sSegP 3 6).segNamed 0 5 = none ∧
    (∀ op ∈ [0, 1, 2, 3], ((mk8 [4, 0, 5, op]).getD 3 0).toNat % 4 = op ∧
      (sSegP op 5).startable 0 2 = some { index := 3, words := mk8 [4, 0, 5, op] }) := by decide +kernel

/-! ## The fabric's other side -/

/-- A request from device 2 of grid 7. -/
def rq (op size : Nat) (data : List Byte) (offset : Nat := 0x10) : FabReq :=
  { port := 1, tag := 0x55, gentag := 0, grid := 7, offset := BitVec.ofNat 48 offset, key := 0xAA, src := 2, op := BitVec.ofNat 4 op,
    size := BitVec.ofNat 8 size, strength := 0, data := data, tagFails := false }
/-- Device 1 of the grid with one import entry of a kind, over 0x5000 of core 0's slice, all permissions, its signal at 0x6000. -/
def sImp (kind : Nat) : State :=
  { sF with
    on := {}, ports := [(1, { up := true })],
    vdevs := [(0, { live := true, run := true, clusters := List.range 96, fabGrid := 0x0007000100000003, fabCoord := 0x41, fabItab := 0x80000 })],
    mem := Memory.setBytes (Memory.setBytes [] 0x80000 (descBytes [0x8F800007000000AA + kind * 2 ^ 60,
      if kind = 2 then 1 else 0x00FE000000005000, 0x1000, 0x00FE000000006000])) (sl 0x5010) [1, 2, 3, 4, 5, 6, 7, 0x88] }
theorem arrives_of {s : State} {vd : Nat} {r : FabReq} (h : (s.on.c == 0 && s.arrivals.isEmpty && (s.vdev vd).live && (s.port r.port.val).up &&
    !(s.port r.port.val).locked && !s.contained.contains (r.grid.toNat, r.src.toNat) && !r.tagFails && !s.tagRetired vd r.gentag.toNat &&
    !(s.port r.port.val).failed && s.outbox.isEmpty && !(s.port r.port.val).paused.contains 1) = true) :
    arrives s vd r := by
  simp only [Bool.and_eq_true, Bool.not_eq_true', beq_iff_eq, List.isEmpty_iff] at h
  obtain ⟨⟨⟨⟨⟨⟨⟨⟨⟨⟨a, b⟩, c⟩, d⟩, e⟩, f⟩, g⟩, i⟩, j⟩, k⟩, l⟩ := h
  exact ⟨a, b, c, d, e, f, g, i, j, k, l⟩
/-- An access under the import comes to one piece of the slice. -/
def imports? (s : State) (r : FabReq) (perms : List Nat) (n : Nat) (k : AccKind) : Bool :=
  okIs (s.importAccess 0 r { kind := 0, perms := perms, n := n } k) (0x00FE000000005010, [(sl 0x5010, n)])
theorem wit_FabricImports : arrives (sImp 0) 0 (rq 0 8 []) ∧ plainMemory (sImp 0) ∧ ((sImp 0).vdev 0).capture = [] ∧
    sliceBase ≤ 0x00FE000000005010 ∧ imports? (sImp 0) (rq 0 8 []) [59] 8 .load = true ∧
    imports? (sImp 0) (rq 0 8 [1, 2, 3, 4]) [58] 4 .store = true ∧ imports? (sImp 0) (rq 0 8 [1, 2, 3, 4]) [58, 56] 4 .store = true ∧
    imports? (sImp 0) { rq 0 8 [1, 2, 3] with bulk := true } [58] 3 .store = true ∧ (rq 0 8 [1, 2, 3]).op ≠ 0xC ∧
    (∀ n ∈ [4, 8], imports? (sImp 0) (rq 9 n []) [57] n .atomic = true) ∧ (sImp 0).claimed (sl 0x5010) 8 = false ∧
    [AtomOp.add, .smin, .smax, .umin, .umax, .and, .or, .xor, .xch, .cas, .fadd][(rq 9 8 []).op.toNat]? = some .cas := by
  refine ⟨arrives_of (by decide), ?_⟩
  unfold plainMemory noBuffers
  decide +kernel
theorem wit_FabricImports_claimed : let s := { sImp 0 with copies := [(0, { phase := .running, granted := true, extents := [(sl 0x5000, 64)], held := [sl 0x5000] })], claims := [0] }
    arrives s 0 (rq 0 8 []) ∧ imports? s (rq 0 8 []) [59] 8 .load = true ∧ s.claimed (sl 0x5010) 8 = true := by
  refine ⟨arrives_of (by decide), ?_⟩
  decide +kernel
theorem wit_FabricImports_replies : ∀ x ∈ [(false, []), (true, []), (false, [1]), (true, [1])],
    let s := { sImp 0 with ports := [(1, { up := true, session := x.1, paused := x.2 })] }
    (s.port 1).paused.contains 1 = !x.2.isEmpty ∧ s.outbox = [] ∧ (s.port 1).session = x.1 ∧ s.on.c = 0 ∧ (s.vdev 0).live = true ∧
    ¬ ((s.port 1).up = false ∨ (s.port 1).locked = true ∨ s.contained.contains ((rq 0 8 []).grid.toNat, (rq 0 8 []).src.toNat) = true) ∧
    10 < (rq 11 8 []).op.toNat ∧ (rq 10 8 []).size = 8 ∧ (rq 10 8 []).op.toNat = 10 := by decide
theorem wit_FabricImports_error : (match (sImp 0).importAccess 0 (rq 0 8 [] 0xFFC) { kind := 0, perms := [59], n := 8 } .load with
      | .ok _ => Cause.none
      | .error c => c) = .windowBounds ∧
    (match (sImp 3).importAccess 0 (rq 0 8 [1]) { kind := 0, perms := [58], n := 1 } .store with
      | .ok _ => Cause.none
      | .error c => c) = .windowPerm := by decide +kernel
theorem wit_FabricImports_signal : let ws := [0xBF800007000000AA, 0x00FE000000005000, 0x1000, 0x00FE000000006000]
    okIs ((sImp 3).importCheck 0 (rq 0 8 [1, 0, 0, 0, 0, 0, 0, 0]) { kind := 3, perms := [57], n := 8 }) ws = true ∧
    sliceBase ≤ ((ws : List W64).getD 1 0).toNat % 2 ^ 56 + 0x10 ∧
    okIs ((sImp 3).ioSignal 0 (BitVec.ofNat 64 (((ws : List W64).getD 1 0).toNat % 2 ^ 56 + 0x10)) .atomic) (sl 0x5010) = true ∧
    (sImp 3).claimed (sl 0x5010) 8 = false := by decide +kernel
/-- A result for a combine buffer: its header's segment is at 0x10000. -/
def sImpCmb : State :=
  let s := sImp 0
  { s with
    vdevs := [(0, { s.vdev 0 with segs := [(2, { name := 5, state := .resident, core := 0, gran := 1, ng := 1, buffer := true })] })],
    mem := Memory.setBytes (Memory.setBytes s.mem 0x80008 (leBytes 8 0x00FE000000010000)) (sl 0x10000)
      (descBytes [0x8000000000000000, 0, 0, 0, 0, 0, 0, 0, 0x1100000000, 5]) }
theorem wit_FabricImports_result : let r := rq 0xC 72 (List.replicate 72 0) 0
    let ws : List W64 := [0x8F800007000000AA, 0x00FE000000010000, 0x1000, 0x00FE000000006000]
    r.op = 0xC ∧ okIs (sImpCmb.importCheck 0 r { kind := 0, perms := [58], n := r.data.length - 8 }) ws = true ∧
    sImpCmb.segAtBase 0 (BitVec.ofNat 64 ((ws.getD 1 0).toNat % 2 ^ 56 + r.offset.toNat)) = some 2 ∧
    (sImpCmb.load64 (sImpCmb.seg 0 2).base).getLsbD 63 = true ∧ (sImpCmb.seg 0 2).cluster = false ∧
    sImpCmb.claimed (sImpCmb.seg 0 2).base (bufferBytes (sImpCmb.load64 (sImpCmb.seg 0 2).base)) = false ∧ (sImpCmb.vdev 0).capture = [] ∧
    (sImpCmb.cmbResult (sImpCmb.cmbAt 0 (sImpCmb.seg 0 2)) 0 0 0 (List.replicate 64 0)).releaseHeld (sImpCmb.cmbAt 0 (sImpCmb.seg 0 2)) = false := by
  decide +kernel
theorem wit_FabricImports_discarded : ({ rq 0 8 [] with tagFails := true } : FabReq).tagFails = true ∧
    ({ sImp 0 with vdevs := [(0, { live := true, retired := [6] })] } : State).tagRetired 0 ({ rq 0 8 [] with gentag := 6 } : FabReq).gentag.toNat = true := by
  decide
/-- A spawn record for bin 3 of launch 1. -/
def rRec : FabReq := { rq 0 16 ((List.range 16).map (fun i => BitVec.ofNat 8 i)) 0xC0 with key := 0xAA }
theorem wit_RecordsAndGatherings : ∀ n ∈ [0, 1024],
    let s := { sImp 2 with launches := [(1, { bins := [(3, { size := 16, records := List.replicate n [] })] })] }
    let ws : List W64 := [0xAF800007000000AA, 1, 0x1000, 0x00FE000000006000]
    okIs (s.importCheck 0 rRec { kind := 2, perms := [58], n := rRec.data.length }) ws = true ∧ (ws.getD 1 0).toNat % 2 ^ 32 = 1 ∧
    rRec.offset.toNat / 64 = 3 ∧ (s.launches.find 1).isSome = true ∧ (s.launch 1).retired = false ∧ (s.launch 1).vd = 0 ∧
    (s.launch 1).declares 3 = true ∧ ((s.launch 1).bin 3).size = (arrivedRecord 3 rRec.data).length ∧ ((s.launch 1).bin 3).open_ = true ∧
    (s.vdev 0).heldRecords = [] ∧ (if n = 0 then ((s.launch 1).bin 3).records.length < binRoom else ((s.launch 1).bin 3).records.length = binRoom) := by
  decide +kernel
/-- The place of a gathering at this device, whose contributors are devices 1 to 2. -/
def gAt : GathKey := { grid := 7, dest := 0x41, key := 0xAA, offset := 0x10 }
def gMsg (src : Nat) : GathMsg := { at_ := gAt, src := src, pattern := 0x81, op := 2, size := 0, data := [BitVec.ofNat 8 src, 0, 0, 0, 0, 0, 0, 0] }
/-- The gathering with some contributions. -/
def gath (got : FMap (List Byte)) : Gathering := { at_ := gAt, vd := 0, op := 2, size := 0, pattern := 0x81, expected := 2, got := got }
def sGath (got : FMap (List Byte)) : State := { sImp 0 with gatherings := [gath got] }
theorem wit_RecordsAndGatherings_contribution : (sImp 0).gatherVd (gMsg 1).at_ = some 0 ∧ (sImp 0).contained = [] ∧
    contributionOk ((sImp 0).vdev 0).axes (gMsg 1) = true ∧ (sImp 0).gathering (gMsg 1).at_ = none ∧
    (sGath [(1, [])]).gathering (gMsg 2).at_ = some (gath [(1, [])]) ∧ (gath [(1, [])]).op = (gMsg 2).op.val ∧
    (gath [(1, [])]).size = (gMsg 2).size.val ∧ (gath [(1, [])]).pattern = (gMsg 2).pattern ∧ (gath [(1, [])]).got.find (gMsg 2).src = none ∧
    (gath [(1, [])]).got.length < (gath [(1, [])]).expected ∧ (gath [(1, [])]).fail = none ∧ ((gath [(1, [])]).got.find (gMsg 1).src).isSome = true ∧
    (gath [(1, [])]).op ≠ ({ gMsg 1 with op := 3 } : GathMsg).op.val ∧ 8 ≤ ([0, 0, 0, 0, 0, 0, 0, 0] : List Byte).length := by decide +kernel
/-- Both contributions. -/
def gBoth : FMap (List Byte) := [(1, [1, 0, 0, 0, 0, 0, 0, 0]), (2, [2, 0, 0, 0, 0, 0, 0, 0])]
theorem wit_RecordsAndGatherings_reduction : let s := sGath gBoth
    let g := gath gBoth
    let ws : List W64 := [0x8F800007000000AA, 0x00FE000000005000, 0x1000, 0x00FE000000006000]
    plainMemory s ∧ complete s g ∧ okIs (s.importEntry g.vd g.at_.grid.toNat g.at_.key.toNat) ws = true ∧ (ws.getD 0 0).getLsbD 55 = true ∧
    (ws.getD 3 0).toNat / 16 % 2 ^ 52 * 16 = 0x00FE000000006000 ∧ g.result.length = 8 * 2 ^ g.size ∧
    sliceBase ≤ 0x00FE000000006000 ∧
    okIs (s.importAccess g.vd g.asRequest { kind := 0, perms := [55], n := 8 } .store) (0x00FE000000005010, [(sl 0x5010, 8)]) = true ∧
    okIs (s.ioSignal g.vd 0x00FE000000006000 .atomic) (sl 0x6000) = true ∧ sl 0x5010 + 8 ≤ sl 0x6000 ∧ s.claimed (sl 0x5010) 8 = false ∧
    s.claimed (sl 0x6000) 16 = false ∧ s.claimed (sl 0x6000) 8 = false ∧ g.op = 2 ∧ g.got ≠ [] ∧ (∀ p ∈ g.got, p.2.length = 8) := by
  unfold plainMemory noBuffers complete; decide +kernel
theorem wit_RecordsAndGatherings_timer : let s := sGath [(1, [1, 0, 0, 0, 0, 0, 0, 0])]
    let g := gath [(1, [1, 0, 0, 0, 0, 0, 0, 0])]
    plainMemory s ∧ s.gathering g.at_ = some g ∧ g.fail = none ∧ g.got.length < g.expected ∧ g.expected - g.got.length < 2 ^ 16 ∧ g.held = [] ∧
    okIs (s.importEntry g.vd g.at_.grid.toNat g.at_.key.toNat) [0x8F800007000000AA, 0x00FE000000005000, 0x1000, 0x00FE000000006000] = true ∧
    okIs (s.ioSignal g.vd 0x00FE000000006000 .atomic) (sl 0x6000) = true ∧ s.claimed (sl 0x6000) 16 = false ∧
    (s.load64 (sl 0x6000 + 8)).getLsbD 32 = false ∧
    s.contained = [] ∧ s.gatherings = [g] ∧ (∀ x ∈ s.slots, x.2.busy = false) ∧ 2 < gridTotal (s.vdev g.vd).axes ∧
    patWithin (s.vdev g.vd).axes g.pattern 2 = true ∧ g.got.find 2 = none := by
  unfold plainMemory noBuffers; decide +kernel
/-- Every operation of a gathering: two contributions of one element. -/
theorem wit_RecordsAndGatherings_values : ∀ op ∈ [0, 1, 2, 3, 4, 5, 6], let w := if op = 2 ∨ op = 5 ∨ op = 6 then 8 else 4
    let g : Gathering := { gath [(1, List.replicate w 0), (2, List.replicate w 0xFF)] with op := op }
    g.op ≤ 6 ∧ g.got = (1, List.replicate w 0) :: [(2, List.replicate w 0xFF)] ∧ (∀ x ∈ g.got, x.2.length = w * 1) := by decide
theorem wit_ContainmentAndPorts : let s := { sF with slots := [(4, { busy := true, targets := [2], grid := 7, group := 2, kind := .posted })] }
    s.contained.contains ((7 : BitVec 16).toNat, 2) = false ∧ s.gatherings = [] ∧ s.arrivals = [] ∧
    s.slots.keysWhere (fun _ x => x.busy && x.grid.toNat == (7 : BitVec 16).toNat && x.targets.contains 2) = [4] ∧
    s.slots.keysWhere (fun _ x => x.busy && x.grid.toNat == (7 : BitVec 16).toNat && x.targets.contains 3) = [] ∧
    ({ s with contained := [(7, 2)] } : State).contained.contains ((7 : BitVec 16).toNat, 2) = true ∧ (s.port 0).draining.getD (s.port 0).up ≠ false ∧
    (s.port 1).draining.getD (s.port 1).up ≠ true ∧ (s.port 1).locked = false ∧ (∀ p ∈ sF.slots, p.2.busy = false) := by decide
theorem wit_ContainmentAndPorts_ports :
    let s := { sF with ports := [(0, { up := true, draining := some false }), (1, { locked := true }), (2, { spareUsed := true, lanes := 3, folds := 1 }), (3, { spareUsed := true, lanes := 2, paused := [3] })] }
    s.ports.find (0 : Fin 16) = some { up := true, draining := some false } ∧ (s.port 1).locked = true ∧ (s.port 2).folds < 6 - 4 ∧
    (s.port 2).folds < 6 - 2 ∧ (s.port 0).spareUsed = false ∧ (s.port 2).spareUsed = true ∧ 2 < (s.port 2).lanes ∧ (s.port 3).spareUsed = true ∧
    0 < (s.port 3).lanes ∧ (s.port 3).lanes ≤ 2 ∧ (s.port 3).paused.contains 3 = true ∧ (s.port 2).paused.contains 3 = false := by decide
theorem wit_ContainmentAndPorts_resume : let x : SentPkt := { vc := 3, kind := 1, port := 3 }
    let s := { sF with ports := [(3, { up := true, paused := [3] })], outbox := [x] }
    (s.port 3).paused.contains 3 = true ∧ s.outbox = [x] ∧ x.port = 3 ∧ x.vc = 3 ∧ (s.port 3).folds = 0 ∧ (s.port 3).session = false ∧
    ({ sF with ports := [(3, { up := true, paused := [3] })] } : State).outbox = [] := by decide
theorem wit_ContainmentAndPorts_errors : ∀ f ∈ [false, true], ∀ t ∈ [false, true],
    let s := { sF with ports := [(3, { up := true, failed := f, session := t })] }
    (s.port 3).up = true ∧ (s.port 3).locked = false ∧ (s.port 3).failed = f ∧ (s.port 3).session = t := by decide

/-! ## The platform -/

theorem wit_Management : let up := fun (p : Platform) => ({ sR with platform := p } : State)
    ({ sR with cpNow := 100000 } : State).platform.beatAt + 100000 ≤ ({ sR with cpNow := 100000 } : State).cpNow ∧
    ({ sR with on := { a := 1 } } : State).on.a = 1 ∧ ({ sR with cpNow := 600000 } : State).platform.beatAt + 600000 ≤ ({ sR with cpNow := 600000 } : State).cpNow ∧
    (up { sR.platform with staged := some (7, false) }).platform.staged = some (7, false) ∧ FMap.rising sV.vdevs = true ∧
    sV.vdevs.find 0 = some { live := true } ∧ (sR.on.a ≠ 1 ∧ ¬ sR.platform.beatAt + 600000 ≤ sR.cpNow ∧ sR.platform.staged = none) ∧
    sR.platform.rollback ≤ 5 ∧ sR.platform.bootFailed = false ∧ (up { sR.platform with bootFailed := true }).platform.bootFailed = true ∧
    5 < (up { sR.platform with rollback := 6 }).platform.rollback ∧ (up { sR.platform with staged := some (7, true) }).platform.staged = some (7, true) ∧
    sR.platform.leaving = none ∧ sR.platform.sensors = none ∧ (up { sR.platform with sensors := some { power := 9 } }).platform.sensors = some { power := 9 } ∧
    1200 ≤ 1200 ∧ 2400 < 2401 ∧ 1199 < 1200 := by decide
theorem wit_Management_sensors : let r : SensorReading := { dies := [100, 440], ioDie := [90], channels := [80, 95], outlet := 259, power := 2401 }
    440 ≤ (r.dies ++ r.ioDie).foldl max 0 ∧ (sV { run := true }).platform.leaving = none ∧ ((sV { run := true }).vdev 0).run = true ∧
    (([100, 439] : List Nat) ++ r.ioDie).foldl max 0 < 440 ∧ r.outlet < 260 ∧ 95 ≤ r.channels.foldl max 0 := by decide
/-- The clock after a reading, the module being over its cap or hot before it. -/
def clockAfter (r : SensorReading) (power heat : Bool) : Option Nat :=
  after (exec (.sensorSample r) { sR with platform := { sR.platform with overPower := power, overHot := heat, clockKHz := 1000000 } })
    fun t => t.platform.clockKHz
/-- R309: the clock goes down above the cap and above 100 degrees, goes on down to 98 percent and 97 degrees, and stays where it is below. -/
theorem test_sensor_clock :
    [clockAfter { power := 2401 } false false, clockAfter { power := 2400 } false false, clockAfter { power := 2353 } true false, clockAfter { power := 2352 } true false,
      clockAfter { dies := [400] } false false, clockAfter { dies := [399] } false false, clockAfter { ioDie := [388] } false true, clockAfter { dies := [387] } false true] =
    [some 937500, some 1000000, some 937500, some 1000000, some 937500, some 1000000, some 937500, some 1000000] := by decide +kernel
/-- A machine with no team, its core 5 a failing one as `out` says. -/
def sCore (jobs : List Nat) (used : Nat) (out : Bool) : State :=
  { State.reset with
    on := { a := 5 }, cores := [(5, { out := out })], platform := { State.reset.platform with jobs := jobs, spares := [(0, used)] } }
theorem wit_CoresAndResets : ∀ used ∈ [3, 4], let s := sCore [5] used true
    s.on.a < 768 ∧ (sCore [] used true).platform.jobs.contains 5 = false ∧ s.platform.jobs = [s.on.a] ∧ (s.core s.on.a).out = true ∧
    s.coreTeams s.on.a = [] ∧ (s.core s.on.a).l1 = [] ∧ (∀ v ∈ s.vdevs, v.2.saved = []) ∧ s.platform.jobs.contains s.on.a = true ∧
    FMap.rising s.cores = true ∧
    (if used = 3 then s.platform.spares.get (s.on.a / 96) 0 < 4 else ¬ s.platform.spares.get (s.on.a / 96) 0 < 4) := by decide
theorem wit_CoresAndResets_lost : let s := { sR with on := { a := 0 } }
    s.coreTeams s.on.a = [1] ∧ (s.launch (s.team 1).launch).idem = false ∧ (s.launch (s.team 1).launch).failed = none ∧
    s.platform.leaving = none ∧ s.platform.removed = false ∧ s.platform.jobs.contains s.on.a = false ∧
    (let u := { s with platform := { s.platform with jobs := [0] } }
     u.platform.jobs = [u.on.a] ∧ u.coreTeams u.on.a = [1] ∧ (u.team 1).phase = .running) := by decide
/-- R311: the fourth uncorrectable error within 24 hours triggers a substitution; one a day earlier does not count. -/
theorem test_core_errors : let s := fun (es : List Nat) => ({ sR with cpNow := 86400000000005, cores := [(5, { errors := es })] } : State)
    ((s [9, 8, 7]).coreError 5).platform.jobs = [5] ∧ ((s [9, 8, 5]).coreError 5).platform.jobs = [] := by decide
theorem wit_CoresAndResets_create : let s := State.reset
    (s.vdev 3).live = false ∧ [4, 7] ≠ [] ∧ [4, 7].eraseDups.length = [4, 7].length ∧ (∀ c ∈ [4, 7], (s.vdev 0).clusters.contains c = true) ∧
    s.vdevs.foldl (fun n v => if v.2.live then n + v.2.journalMiB else n) 0 + 30 ≤ 32 ∧ 0x700000 % 2 ^ 16 = 0 ∧
    0x700000 + 4 * 2 ^ 16 ≤ 2 ^ 39 ∧ (∀ c ∈ [4, 7], ∀ i < 8, s.idleCore (c * 8 + i) = true) := by decide +kernel
theorem wit_CoresAndResets_destroy :
    let s := { State.reset with vdevs := [(0, { live := true, clusters := [0, 1] }), (3, { live := true, clusters := [2] })], on := { a := 3 } }
    s.on.a ≠ 0 ∧ (s.vdev s.on.a).live = true := by decide

/-! ## The whole machine -/

/-- The outcome is a next state. -/
def isNext (o : Host.Outcome State Fault Refusal) : Bool :=
  match o with
  | .next _ => true
  | .fault _ => false
  | .refused _ => false
theorem next_of {o : Host.Outcome State Fault Refusal} (h : isNext o = true) : ∃ t, o = .next t := by
  cases o with
  | next t => exact ⟨t, rfl⟩
  | fault f => cases h
  | refused r => cases h
/-- The machine after reset, about to fetch a word. -/
def sFetch (w : Nat) : State := State.reset.withFetchWord 32 w
theorem wit_StepKeepsMemoryCanonical : Memory.wf (sFetch 0x800C1081).mem = true ∧ ∃ t, step (sFetch 0x800C1081) = .next t :=
  ⟨by decide +kernel, next_of (by decide +kernel)⟩
theorem wit_StepRunsDecoded : ∀ w ∈ [0x800C1081, 0x7F000000, 0x9B000001, 0xF1040020], let s := sFetch w
    let s1 := { s.elapse with agenda := [] }
    s.agenda = [.issue 1] ∧ s.platform.power = true ∧ s.platform.bootFailed = false ∧ s1.mayIssue 1 = true ∧ s1.promiseDue 1 = none ∧ (s1.begin 1).fetchWaits 1 0x10000 = false ∧
    ((s1.begin 1).touchFetch 1 0x10000).heldByAcquire 1 (BitVec.ofNat 32 w) = false ∧
    (s1.begin 1).grp.issuePc = some 0x10000 ∧ okIs ((s1.begin 1).fetchWord 1 0x10000) (BitVec.ofNat 32 w) = true := by decide +kernel
/-- The decoder refuses a word so. -/
def refuses (w : W32) (e : Reject) : Bool :=
  match decode w with
  | .ok _ => false
  | .error x => decide (x = e)
theorem refuses_of {w : W32} {e : Reject} (h : refuses w e = true) : decode w = .error e := by
  cases hd : decode w with
  | ok i => simp [refuses, hd] at h
  | error x => simp [refuses, hd] at h; simp [h]
theorem wit_StepRunsDecoded_words :
    decode 0xF1040020 = .ok (.unlisted (.csrwr (.reg 1) 0x20)) ∧ decode 0x7F000000 = .error .illegalOpcode ∧
    decode 0x9B000001 = .error (.reservedField (.gret { cg := 0, ng := false })) ∧
    (let s := sFetch 0xF1040020
     (({ s.elapse with agenda := [] } : State).begin 1).grp.wordPrivileged (.unlisted (.csrwr (.reg 1) 0x20)) = true) := by
  exact ⟨eq_of_okIs (by decide +kernel), refuses_of (by decide +kernel), refuses_of (by decide +kernel), by decide +kernel⟩
theorem wit_StepRunsDecoded_event : let s := { State.reset with agenda := [.event .heartbeat {}] }
    s.agenda = .event .heartbeat {} :: [] ∧ s.platform.power = true ∧ s.platform.bootFailed = false ∧
    (let u := { State.reset with platform := { State.reset.platform with power := false } }
     u.platform.power = false ∧ u.agenda = []) := by decide
theorem wit_DecodeOfEncode : (Instr.ffma (fBin (R 3) (R 1) (R 2))).wf = true ∧ (Instr.ffma (fBin (R 3) (R 1) (R 2))).enc = some 0x230C1080 := by
  decide
theorem wit_EncodeOfDecode : ∃ i, decode 0x230C1080 = .ok i := 
  ⟨.ffma (fBin (R 3) (R 1) (R 2)), eq_of_okIs (by decide +kernel)⟩

/-! ## Decoding: words written out from the layouts of 02_encoding R18 to R29 -/

/-- Every word of the list decodes to the instruction beside it. -/
def reads (ws : List (W32 × Instr)) : Bool := ws.all fun p => okIs (decode p.1) p.2
/-- Every word of the list is rejected. -/
def rejects (ws : List W32) : Bool := ws.all fun w => match decode w with | .ok _ => false | .error _ => true

/-- Fields d 3, a 1, b 2, guard not p5, ea. -/
def tb : LaneBin := { d := R 3, a := R 1, b := R 2, pg := 5, ng := true, ea := true, eb := false }
/-- Fields d 3, a 1, guard not p5, ea. -/
def tu : LaneUn := { d := R 3, a := R 1, pg := 5, ng := true, ea := true }
/-- Fields d 3, a 1, guard p5 and an immediate. -/
def ti (n : BitVec 9) : LaneImm := { d := R 3, a := R 1, imm := n, pg := 5 }
/-- A conversion of v1 into v3 with guard not p5, ea. -/
def tc (r : CvtRound) (sat : Bool) (fmt : Fin 4) : LaneCvt := { d := R 3, a := R 1, rnd := r, sat := sat, fmt := fmt, pg := 5, ng := true, ea := true }
/-- Fields of a shuffle: d 3, a 1, b 2, validity p5, tag, ea. -/
def ts : LaneColl := { d := R 3, a := R 1, b := R 2, v := 5, tg := true, ea := true }
/-- A load at device scope, acquire, guard p3, offset 63. -/
def tl (d : Fin 56) : LaneMem := { d := R d, a := R 1, off := 63, sc := .device, st := .acquire, pg := 3 }
/-- A store at domain scope, release, guard p1, offset 63. -/
def tst (d : Fin 56) : LaneMem := { d := R d, a := R 1, off := 63, sc := .domain, st := .release, pg := 1 }
/-- An indexed access at device scope, acquire, guard p3. -/
def tx : LaneMemIdx := { d := R 3, a := R 1, b := R 2, sc := .device, st := .acquire, pg := 3 }
/-- A remote access with offset 63. -/
def tr (d : Fin 56) (st : Strength) (pg : Fin 4) : LaneRemote := { d := R d, a := R 1, off := 63, st := st, pg := pg }
/-- Fields d 3, a 1, b 2, guard not c2, eb, w. -/
def tg : GrpBin := { d := R 3, a := R 1, b := R 2, cg := 2, ng := true, ea := false, eb := true, w := true }
/-- Fields d, a, guard not c2, ea, w. -/
def tgu (d a : Opnd) : GrpUn := { d := d, a := a, cg := 2, ng := true, ea := true, w := true }
/-- A group access. -/
def tgm (sc : Scope) (st : Strength) : GrpMem := { d := R 3, a := R 1, b := R 2, sc := sc, st := st }
/-- A copy word: np, cb 9. -/
def tcp : GrpCpy := { d := R 3, a := R 1, b := R 2, np := true, cb := 9 }
/-- Three group fields. -/
def t3 : GrpThree := { d := R 3, a := R 1, b := R 2 }
/-- Two group fields. -/
def t2 : GrpDA := { d := R 3, a := R 1 }
/-- A guard not c2. -/
def tgg : GrpGuard := { cg := 2, ng := true }
/-- A guard not p5. -/
def tlg : LaneGuard := { pg := 5, ng := true }

theorem test_decode_lane_integer : reads
    [(0x00000000, .iadd { d := R 0, a := R 0, b := R 0, pg := 0, ng := false, ea := false, eb := false }),
     (0x000C1E41, .iadd { d := R 3, a := R 1, b := .port 1, pg := 0, ng := false, ea := false, eb := true }),
     (0x010C10AE, .isub tb), (0x020C10AE, .imul tb), (0x030C10AE, .imulhs tb), (0x040C10AE, .imulhu tb),
     (0x050C10AE, .unlisted (.imad tb)), (0x060C10AE, .imin tb), (0x070C10AE, .imax tb), (0x080C10AE, .umin tb),
     (0x090C10AE, .umax tb), (0x0A0C102E, .iabs tu), (0x0B0C10AE, .andv tb), (0x0C0C10AE, .orv tb), (0x0D0C10AE, .xorv tb),
     (0x0E0C10AE, .andn tb), (0x0F0C10AE, .shl tb), (0x100C10AE, .shr tb), (0x110C10AE, .sar tb), (0x120C102E, .popc tu),
     (0x130C102E, .clz tu), (0x140C102E, .brev tu), (0x150C10AE, .bfx tb), (0x160C10AE, .bfi tb),
     (0x174C10AE, .icmp { pd := 2, cc := .le, a := R 1, b := R 2, pg := 5, ng := true, ea := true, eb := false }),
     (0x184C10AE, .ucmp { pd := 2, cc := .le, a := R 1, b := R 2, pg := 5, ng := true, ea := true, eb := false }),
     (0x190C10AE, .sel tb), (0x1A0C1FFD, .iaddi (ti 0x1FF)), (0x1B0C1FFD, .andi (ti 0x1FF)), (0x1C0C10FD, .shli (ti 31)),
     (0x1D0C10FD, .shri (ti 31)), (0x1E0C1815, .lea { d := R 3, a := R 1, sh := 4, b := R 2, pg := 5 }),
     (0x1F0FFFFD, .movi { d := R 3, imm := 0x7FFF, pg := 5 })] = true := by decide +kernel

theorem test_decode_lane_float : reads
    [(0x200C10AE, .fadd tb), (0x210C10AE, .fsub tb), (0x220C10AE, .fmul tb), (0x230C10AE, .ffma tb), (0x240C10AE, .fmin tb),
     (0x250C10AE, .fmax tb),
     (0x265C10AE, .fcmp { pd := 2, cc := .ord, a := R 1, b := R 2, pg := 5, ng := true, ea := true, eb := false }),
     (0x270C102E, .fcls tu), (0x280C102E, .frcp tu), (0x290C102E, .frsq tu), (0x2A0C102E, .fsqrt tu), (0x2B0C102E, .fexp2 tu),
     (0x2C0C102E, .flog2 tu), (0x2D0C10AE, .badd2 tb), (0x2E0C10AE, .bmul2 tb), (0x2F0C10AE, .bfma2 tb), (0x300C10AE, .bmax2 tb),
     (0x310C10AE, .hadd2 tb), (0x320C10AE, .hmul2 tb), (0x330C10AE, .hfma2 tb), (0x340C162E, .cvtif (tc .rp false 0)),
     (0x350C146E, .cvtfi (tc .rz false 1)), (0x360C192E, .cvtfb (tc .rm true 0)), (0x370C102E, .cvtbf (tc .fpm false 0)),
     (0x380C122E, .cvtfh (tc .rn false 0)), (0x390C102E, .cvthf (tc .fpm false 0)), (0x3B0C106E, .cvt8f (tc .fpm false 1)),
     (0x3C0C11AE, .cvtfn (tc .fpm true 2)), (0x3D0C10AE, .cvtnf (tc .fpm false 2)), (0x3E0C102E, .unlisted (.dsenc tu)),
     (0x3F0C10AE, .unlisted (.dsmul tb))] = true := by decide +kernel

theorem test_decode_lane_lists_and_collectives : reads
    [(0x40000045, .unlisted (.kinit 8 5)),
     (0x411010AE, .unlisted (.kins { d := R 4, a := R 1, b := R 2, pg := 5, ng := true, ea := true, eb := false })),
     (0x420C483D, .unlisted (.kext (R 3) (R 4) true 7 5)), (0x430C10AE, .unlisted (.mxscl tb)), (0x440C10AE, .shfi ts),
     (0x450C10AE, .shfu ts), (0x460C10AE, .shfd ts), (0x470C10AE, .shfx ts),
     (0x484A8084, .vote { pd := 2, mode := .uni, ps := 5, b := R 2, tg := true }),
     (0x490E8084, .ballot { d := R 3, ps := 5, b := R 2, tg := true }),
     (0x4A0C10AE, .gred { d := R 3, a := R 1, b := R 2, op := .fadd, tg := true, ea := true }), (0x4B0C10AE, .matchv ts),
     (0x4C0C002C, .mkemp { d := R 3, pg := 5, ng := true }), (0x4D0C002C, .mkful { d := R 3, pg := 5, ng := true }),
     (0x4E0C002C, .pmovPack { d := R 3, pg := 5, ng := true }),
     (0x4E00102F, .pmovUnpack { a := R 1, pg := 5, ng := true, ea := true }),
     (0x4F08005D, .getid { d := R 2, sel := 11, pg := 5 })] = true := by decide +kernel

theorem test_decode_lane_memory : reads
    [(0x500C1FEB, .ld8 (tl 3)), (0x510C1FEB, .ld16 (tl 3)), (0x520C1FEB, .ld32 (tl 3)), (0x53101FEB, .ld64 (tl 4)),
     (0x54201FEB, .ld128 (tl 8)), (0x550C1FFD, .st8 (tst 3)), (0x560C1FFD, .st16 (tst 3)), (0x570C1FFD, .st32 (tst 3)),
     (0x58101FFD, .st64 (tst 4)), (0x59201FFD, .st128 (tst 8)), (0x5A0C10AB, .ldx tx),
     (0x5B0C10BD, .stx { tx with sc := .domain, st := .release, pg := 1 }), (0x5C0C10AB, .aadd tx), (0x5D0C10AB, .amin tx),
     (0x5E0C10AB, .amax tx), (0x5F0C10AB, .aumin tx), (0x600C10AB, .aumax tx), (0x610C10AB, .aand tx), (0x620C10AB, .aor tx),
     (0x630C10AB, .axor tx), (0x640C10AB, .axch tx), (0x650C10AB, .acas tx), (0x660C10AB, .afadd tx),
     (0x67001FC3, .pref { a := R 1, off := 63, pg := 3 }), (0x680C1FFB, .rld32 (tr 3 .acquire 3)),
     (0x69101FFB, .rld64 (tr 4 .acquire 3)), (0x6A0C1FFD, .rst32 (tr 3 .release 1)), (0x6B101FFD, .rst64 (tr 4 .release 1)),
     (0x6C0C10A9, .ratom { d := R 3, a := R 1, b := R 2, op := .fadd, st := .relaxed })] = true := by decide +kernel

theorem test_decode_lane_control : reads
    [(0x7100102E, .brx { a := R 1, pg := 5, ng := true, ea := true }), (0x72B12345, .call { pg := 5, ng := true, off := 0x12345 }),
     (0x7300002C, .ret tlg), (0x74000023, .exitv { sc := .device, pg := 3 }), (0x75000084, .barv { b := R 2, tg := true }),
     (0x76000FF8, .regn 511), (0x7740A52E, .spawn { size := .s32, a := R 10, b := R 20, pg := 5, ng := true, ea := true }),
     (0x7800002C, .yield tlg), (0x7900002C, .nop tlg), (0x7A000FFD, .unlisted (.trap 511 5)), (0x7B00001D, .unlisted (.bkpt 3 5))] = true := by
  decide +kernel

theorem test_decode_group_arithmetic : reads
    [(0x800C10AB, .gadd tg), (0x810C10AB, .gsub tg), (0x820C10AB, .gmul tg), (0x830C10AB, .gmad tg), (0x840C10AB, .gmin tg),
     (0x850C10AB, .gmax tg), (0x860C10AB, .gand tg), (0x870C10AB, .gor tg), (0x880C10AB, .gxor tg), (0x890C10AB, .gshl tg),
     (0x8A0C10AB, .gshr tg), (0x8B0C10AB, .gsar tg), (0x8D0C10AB, .gsel tg), (0x8E0C102D, .gpopc (tgu (R 3) (R 1))),
     (0x8F0C102D, .gclz (tgu (R 3) (R 1))), (0x910E0001, .gmovi { d := R 3, imm := 0x20001 }),
     (0x920E0001, .gmovh { d := R 3, imm := 0x20001 }), (0x930C10AB, .unlisted (.glea tg)), (0x940C10AB, .unlisted (.gbfx tg)),
     (0x950C10AB, .gmulh tg), (0x960C10AB, .gdivu tg), (0x970C10AB, .gremu tg), (0x98AABCDE, .gbr { cg := 2, ng := true, off := 0xABCDE }),
     (0x9AAABCDE, .gcall { cg := 2, ng := true, off := 0xABCDE }), (0x9B000028, .gret tgg), (0x9CEC102D, .qput (tgu (.port 3) (R 1))),
     (0x9D0FB02D, .qget (tgu (R 3) (.port 3))), (0x9EEC0028, .qclose { d := .port 3, cg := 2, ng := true }),
     (0x9F0FB028, .qstat { d := R 3, a := .port 3, cg := 2, ng := true })] = true := by decide +kernel

theorem test_decode_group_memory_and_segments : reads
    [(0xA00C10A8, .gld32 (tgm .device .acquire)), (0xA10C10A8, .gld64 (tgm .device .acquire)), (0xA20C10BC, .gst32 (tgm .domain .release)),
     (0xA30C10BC, .gst64 (tgm .domain .release)), (0xA40C10A5, .gatom { d := R 3, a := R 1, b := R 2, op := .cas, st := .relaxed }),
     (0xA5EC10B8, .agen { d := .port 3, a := R 1, b := R 2, n := 7, w := 0 }),
     (0xA6EC10BD, .agenx { d := .port 3, a := R 1, b := R 2, n := 7, w := 5 }), (0xA7001080, .gpref { a := R 1, b := R 2 }),
     (0xA8001020, .unlisted (.acq (R 1) .device)), (0xA9001030, .unlisted (.rel (R 1) .domain)), (0xAA000010, .unlisted (.fence .team)),
     (0xAB0C1080, .unlisted (.bind t3)), (0xAC0C1000, .unlisted (.unbind t2)), (0xAD241000, .cbinit { cb := 9, a := R 1 }),
     (0xAE241081, .cbarv { cb := 9, a := R 1, b := R 2, err := true }),
     (0xAF241083, .cbwait { cb := 9, a := R 1, b := R 2, ew := true, te := true }),
     (0xB0A41082, .cbtest { c := 2, cb := 9, a := R 1, b := R 2, ew := true }), (0xB10C0083, .unlisted (.sgnew (R 3) (R 2) true true)),
     (0xB20C1080, .unlisted (.sgname t3)), (0xB30C1003, .unlisted (.sgatt t2 true true)), (0xB4001000, .unlisted (.sgdet (R 1))),
     (0xB50C1001, .unlisted (.sgdrop t2 true)), (0xB60C1000, .unlisted (.sgstow t2)), (0xB70C1003, .unlisted (.sgstat t2 3)),
     (0xB80C10A9, .cpy tcp), (0xB90C10A9, .cpys tcp), (0xBA0C10A9, .cpyg tcp), (0xBB0C10A9, .cpyx tcp), (0xBC0C10A9, .unlisted (.cpyq tcp)),
     (0xBD001099, .unlisted (.cpyw (R 1) (R 2) true 9)), (0xBE0C1019, .unlisted (.cpyc t2 true 9)),
     (0xBF0C0019, .unlisted (.cpyst (R 3) true 9))] = true := by decide +kernel

theorem test_decode_table_unit : reads
    [(0xC0141080, .unlisted (.tbld 5 (R 1) (R 2))), (0xC1141080, .unlisted (.tbld4 5 (R 1) (R 2))), (0xC2805000, .unlisted (.tchk 2 5)),
     (0xC3140000, .unlisted (.tinv 5)), (0xC4141000, .unlisted (.tspl 5 (R 1))), (0xC5141000, .unlisted (.tfil 5 (R 1))),
     (0xC6244093, .unlisted (.mloop { acc := 9, t := 4, b := R 2, g4 := false, pm := true, cb := 3 })),
     (0xC7244093, .unlisted (.mloop4 { acc := 9, t := 4, b := R 2, g4 := false, pm := true, cb := 3 })),
     (0xC82450B3, .unlisted (.mstep { acc := 9, t := 5, b := R 2, g4 := true, pm := true, cb := 3 })),
     (0xC9245081, .unlisted (.scacc 9 5 (R 2) true)), (0xCA240001, .unlisted (.azero 9 true)), (0xCB241081, .unlisted (.asto 9 (R 1) (R 2) true)),
     (0xCC241080, .unlisted (.alda 9 (R 1) (R 2))), (0xCD24108E, .unlisted (.acvt 9 (R 1) (R 2) 2 true true)),
     (0xCE0C0005, .unlisted (.mstat (R 3) 2 true))] = true := by decide +kernel

theorem test_decode_fabric_spawn_and_system : reads
    [(0xD0001080, .unlisted (.wsel (R 1) (R 2) false)), (0xD10C1094, .rgld { d := R 3, a := R 1, b := R 2, dp := false, st := .acquire, n32 := true }),
     (0xD20C109C, .rgst { d := R 3, a := R 1, b := R 2, dp := false, st := .release, n32 := true }),
     (0xD30C109C, .rmst { d := R 3, a := R 1, b := R 2, dp := false, st := .release, n32 := true }),
     (0xD4101097, .unlisted (.rrst (R 4) (R 1) (R 2) false 5 3)),
     (0xD5101093, .rgatm { d := R 4, a := R 1, b := R 2, dp := false, op := .cas, n32 := true }),
     (0xD60C1010, .unlisted (.sigadd (R 3) (R 1) (R 0) false true)), (0xD70C1095, .unlisted (.sigwt (R 3) (R 1) (R 2) .le true)),
     (0xD80C1090, .unlisted (.rwait (R 3) (R 1) (R 2) true)), (0xD90C0003, .unlisted (.rfence (R 3) true true)),
     (0xDA0C1089, .unlisted (.rget (R 3) (R 1) (R 2) false 9)), (0xDB0C1005, .unlisted (.coord (R 3) (R 1) 5)),
     (0xE00C1080, .binsetFlush t3), (0xE00C1001, .binsetClose t2), (0xE00C1002, .binsetOpen t2),
     (0xE10C1012, .spawngLoc { d := R 3, a := R 1, size := .s64 }),
     (0xE10C1081, .spawngRemote { d := R 3, a := R 1, b := R 2, dp := false, size := .s32 }), (0xE20C1001, .binfl { d := R 3, a := R 1, wt := true }),
     (0xE30C1080, .unlisted (.cmbcfg t3)), (0xE40C1081, .unlisted (.cmbopen t3 true)), (0xE50C1081, .unlisted (.cmbput t3 true)),
     (0xE60C1081, .unlisted (.cmbrel t3 true)), (0xE70C108D, .unlisted (.cmbstat t3 true 5)), (0xE80C1086, .unlisted (.gentag t3 true 2)),
     (0xF00C0104, .unlisted (.csrrd (R 3) 0x104)), (0xF10C0005, .unlisted (.csrwr (R 3) 5)), (0xF20C0000, .unlisted (.cycle (R 3))),
     (0xF3001000, .unlisted (.sleep (R 1))), (0xF403FFFF, .unlisted (.gtrap 0x3FFFF)), (0xF5000028, .unlisted (.rte tgg)),
     (0xF6000028, .unlisted (.gnop tgg)), (0xF7001028, .unlisted (.teamend (R 1) tgg)), (0xF80C1083, .unlisted (.probe t3 3)),
     (0xF90C1000, .unlisted (.prio t2))] = true := by decide +kernel

/-- The words that the spec's own chapters print beside their assembly text. -/
theorem test_decode_printed_words : reads
    [(0xCD007204, .unlisted (.acvt 0 (R 7) (R 8) 0 true false)), (0xCA100001, .unlisted (.azero 4 true)),
     (0xE20C4001, .binfl { d := R 3, a := R 4, wt := true }), (0xE0105180, .binsetFlush { d := R 4, a := R 5, b := R 6 }),
     (0xE51C8240, .unlisted (.cmbput { d := R 7, a := R 8, b := R 9 } false)),
     (0xA4105180, .gatom { d := R 4, a := R 5, b := R 6, op := .add, st := .plain }), (0x4F080000, .getid { d := R 2, sel := 0, pg := 0 }),
     (0xA130D3A8, .gld64 { d := R 12, a := R 13, b := R 14, sc := .device, st := .acquire }),
     (0xC6000142, .unlisted (.mloop { acc := 0, t := 0, b := R 5, g4 := false, pm := false, cb := 2 })),
     (0xCE240001, .unlisted (.mstat (R 9) 0 true)), (0x67006080, .pref { a := R 6, off := 2, pg := 0 }),
     (0xF80C4001, .unlisted (.probe { d := R 3, a := R 4, b := R 0 } 1)), (0xC9004181, .unlisted (.scacc 0 4 (R 6) true)),
     (0xB3182001, .unlisted (.sgatt { d := R 6, a := R 2 } false true)), (0xF3008000, .unlisted (.sleep (R 8))),
     (0xE1146011, .spawngLoc { d := R 5, a := R 6, size := .s32 }), (0xC2403000, .unlisted (.tchk 1 3)),
     (0xF7002000, .unlisted (.teamend (R 2) { cg := 0, ng := false })), (0x7A000018, .unlisted (.trap 3 0))] = true := by decide +kernel

/-- A field that must be zero, a reserved code or an unassigned opcode refuses the word (R31). -/
theorem test_decode_rejections : rejects
    [0x6D000000, 0x7D000000, 0xCF000000, 0xDC000000, 0xE9000000, 0xFA000000, 0x0A0C1040, 0x12000001, 0x17180000, 0x1C000100, 0x340C1A00,
     0x44000001, 0x48000000 + 0x0C0000, 0x48001000, 0x4A000001, 0x4C001000, 0x4E001000, 0x4F001000, 0x50000008 + 4, 0x52000010, 0x57000028,
     0x67040000, 0x67000010, 0x68000008, 0x6C00002C, 0x70000000 + 0x6D000000, 0x73000001, 0x74000004, 0x75000001, 0x76000001, 0x77C00000,
     0x77040000, 0x79000001, 0x7A001000, 0x8C280000, 0x8E000002, 0x98100000, 0x9B000001, 0x9C000000, 0x9D040000, 0xA0000001, 0xA4000028,
     0xA7040000, 0xA8000001, 0xAA001000, 0xB1001000, 0xB3000040, 0xB4040000, 0xB7000004, 0xBC000010, 0xC0000001, 0xC0200000, 0xC2008000,
     0xC3001000, 0xC6001000, 0xC9010000, 0xCB000002, 0xCE001000, 0xCE000006, 0xD1000001, 0xD7000008, 0xD7000006, 0xD9001000, 0xDB000006,
     0xDB000008, 0xE0000003, 0xE1000003, 0xE3000001, 0xE8000007, 0xF0001000, 0xF0000009, 0xF1000000, 0xF3040000, 0xF4040000, 0xF5000001,
     0xF8000004, 0xF9000040] = true := by decide +kernel

/-! ## Well-formedness: for each check an ill-formed term that it refuses -/

/-- None of the terms is well-formed. -/
def illFormed (is : List Instr) : Bool := is.all fun i => !i.wf
/-- All of the terms are well-formed. -/
def wellFormed (is : List Instr) : Bool := is.all fun i => i.wf

/-- A queue port. -/
def P : Opnd := .port 0

theorem test_wf_lane_refuses : illFormed
    [.shli (ti 32), .shri (ti 32), .cvtif (tc .rn true 0), .cvtif (tc .rn false 2), .cvtfi (tc .rn true 0), .cvtfi (tc .rn false 2),
     .cvtfb (tc .rn false 1), .cvtbf (tc .rn false 0), .cvtbf (tc .fpm true 0), .cvtbf (tc .fpm false 1), .cvtfh (tc .rn false 1),
     .cvthf (tc .rn false 0), .cvthf (tc .fpm true 0), .cvthf (tc .fpm false 1), .cvtf8 (tc .rn false 2), .cvt8f (tc .rn false 0),
     .cvt8f (tc .fpm true 0), .cvt8f (tc .fpm false 2), .cvtfn (tc .rn false 3), .cvtnf (tc .rn false 0), .cvtnf (tc .fpm true 0),
     .cvtnf (tc .fpm false 3), .shfi { ts with d := P }, .shfi { ts with a := P }, .shfi { ts with b := R 55 }, .shfu { ts with d := P },
     .shfu { ts with a := P }, .shfu { ts with b := P }, .shfd { ts with d := P }, .shfd { ts with a := P }, .shfd { ts with b := P },
     .shfx { ts with d := P }, .shfx { ts with a := P }, .shfx { ts with b := P },
     .vote { pd := 1, mode := .all, ps := 1, b := R 55, tg := false }, .ballot { d := P, ps := 1, b := R 2, tg := false },
     .ballot { d := R 1, ps := 1, b := P, tg := false }, .gred { d := P, a := R 1, b := R 2, op := .iadd, tg := false, ea := false },
     .gred { d := R 1, a := P, b := R 2, op := .iadd, tg := false, ea := false },
     .gred { d := R 1, a := R 1, b := P, op := .iadd, tg := false, ea := false }, .matchv { ts with d := P }, .matchv { ts with a := P },
     .matchv { ts with b := P }, .mkemp { d := P, pg := 0, ng := false }, .mkful { d := P, pg := 0, ng := false },
     .getid { d := R 1, sel := 12, pg := 0 }, .unlisted (.kinit 3 0), .unlisted (.kins { tb with d := R 3 }),
     .unlisted (.kext (R 1) (R 3) false 0 0), .barv { b := P, tg := false },
     .spawn { size := .s64, a := R 44, b := R 0, pg := 0, ng := false, ea := false },
     .spawn { size := .s16, a := R 3, b := R 0, pg := 0, ng := false, ea := false }] = true := by decide +kernel

theorem test_wf_lane_memory_refuses : illFormed
    [.ld8 { tl 3 with d := P }, .ld8 { tl 3 with st := .release }, .ld8 { tl 3 with st := .plain }, .ld16 { tl 3 with d := P },
     .ld16 { tl 3 with st := .release }, .ld32 { tl 3 with d := P }, .ld32 { tl 3 with st := .plain }, .ld64 (tl 3),
     .ld64 { tl 4 with st := .release }, .ld128 (tl 6), .ld128 { tl 4 with st := .release }, .st8 { tst 3 with st := .acquire },
     .st8 { tst 3 with st := .plain }, .st16 { tst 3 with st := .acquire }, .st32 { tst 3 with st := .acquire }, .st64 (tst 3),
     .st64 { tst 4 with st := .acquire }, .st128 (tst 6), .st128 { tst 4 with st := .acquire }, .ldx { tx with d := P },
     .ldx { tx with st := .release }, .stx tx, .aadd { tx with d := P }, .amin { tx with d := P }, .amax { tx with d := P },
     .aumin { tx with d := P }, .aumax { tx with d := P }, .aand { tx with d := P }, .aor { tx with d := P }, .axor { tx with d := P },
     .axch { tx with d := P }, .acas { tx with d := P }, .afadd { tx with d := P }, .rld32 { tr 3 .plain 0 with d := P },
     .rld32 (tr 3 .release 0), .rld64 (tr 3 .plain 0), .rld64 (tr 4 .release 0), .rst32 (tr 3 .acquire 0), .rst64 (tr 3 .plain 0),
     .rst64 (tr 4 .acquire 0), .ratom { d := P, a := R 1, b := R 2, op := .add, st := .plain }] = true := by decide +kernel

theorem test_wf_group_refuses : illFormed
    [.gloop { d := P, imm := 0 }, .qput (tgu (R 3) (R 1)), .qget (tgu P P), .qget (tgu (R 3) (R 1)), .qclose { d := R 3, cg := 0, ng := false },
     .qstat { d := P, a := P, cg := 0, ng := false }, .qstat { d := R 3, a := R 1, cg := 0, ng := false },
     .gld32 { tgm .device .acquire with d := P }, .gld32 (tgm .device .release), .gld32 (tgm .team .plain),
     .gld64 { tgm .device .acquire with d := P }, .gld64 (tgm .device .release), .gst32 (tgm .device .acquire), .gst32 (tgm .team .plain),
     .gst64 (tgm .device .acquire), .gatom { d := P, a := R 1, b := R 2, op := .add, st := .plain },
     .gatom { d := R 1, a := R 1, b := R 2, op := .fadd, st := .plain }, .agen { d := R 1, a := R 1, b := R 2, n := 0, w := 0 },
     .agen { d := P, a := P, b := R 2, n := 0, w := 0 }, .agen { d := P, a := R 1, b := R 2, n := 0, w := 1 },
     .agenx { d := R 1, a := R 1, b := R 2, n := 0, w := 0 }, .agenx { d := P, a := P, b := R 2, n := 0, w := 0 },
     .agenx { d := P, a := R 1, b := R 2, n := 0, w := 6 }, .cbarv { cb := 0, a := R 1, b := R 2, err := false },
     .rgld { d := P, a := R 1, b := R 2, dp := false, st := .plain, n32 := false },
     .rgld { d := R 3, a := R 1, b := R 2, dp := false, st := .release, n32 := false },
     .rgld { d := R 3, a := R 1, b := R 2, dp := true, st := .plain, n32 := false },
     .rgst { d := R 3, a := R 1, b := R 2, dp := false, st := .acquire, n32 := false },
     .rgst { d := R 3, a := R 1, b := R 2, dp := true, st := .plain, n32 := false },
     .rmst { d := R 3, a := R 1, b := R 2, dp := false, st := .acquire, n32 := false },
     .rmst { d := R 3, a := R 1, b := R 2, dp := true, st := .plain, n32 := false },
     .rgatm { d := P, a := R 1, b := R 2, dp := false, op := .add, n32 := false },
     .rgatm { d := R 3, a := R 1, b := R 2, dp := false, op := .cas, n32 := false },
     .rgatm { d := R 3, a := R 1, b := R 2, dp := false, op := .fadd, n32 := false },
     .rgatm { d := R 3, a := R 1, b := R 2, dp := true, op := .add, n32 := false },
     .spawngRemote { d := R 3, a := R 1, b := R 2, dp := true, size := .s16 }, .binfl { d := P, a := R 1, wt := true },
     .unlisted (.cpyst P true 0), .unlisted (.mloop { acc := 0, t := 1, b := R 2, g4 := false, pm := false, cb := 0 }),
     .unlisted (.mloop { acc := 0, t := 0, b := R 2, g4 := true, pm := false, cb := 0 }),
     .unlisted (.mloop4 { acc := 0, t := 1, b := R 2, g4 := false, pm := false, cb := 0 }),
     .unlisted (.mloop4 { acc := 0, t := 0, b := R 2, g4 := true, pm := false, cb := 0 }), .unlisted (.scacc 3 3 (R 0) false),
     .unlisted (.mstat (R 3) 3 false), .unlisted (.mstat P 0 true), .unlisted (.wsel (R 1) (R 2) true),
     .unlisted (.rrst (R 3) (R 1) (R 2) false 0 0), .unlisted (.rrst (R 4) (R 1) (R 2) false 7 0), .unlisted (.rrst (R 4) (R 1) (R 2) true 0 0),
     .unlisted (.sigadd (R 3) (R 1) (R 0) true true), .unlisted (.sigadd (R 3) (R 1) (R 2) true false),
     .unlisted (.sigadd (R 3) (R 1) (R 2) false true), .unlisted (.rget (R 3) (R 1) (R 2) true 0), .unlisted (.coord (R 3) (R 0) 6),
     .unlisted (.coord (R 3) (R 1) 0), .unlisted (.cmbstat t3 false 0), .unlisted (.gentag { t3 with d := P } true 1),
     .unlisted (.gentag t3 true 0), .unlisted (.gentag t3 false 0), .unlisted (.csrrd (R 3) 9), .unlisted (.csrwr (R 3) 0)] = true := by
  decide +kernel

/-- The same shapes with the offending field put right. -/
theorem test_wf_accepts : wellFormed
    [.shli (ti 31), .cvtif (tc .rm false 1), .cvtf8 (tc .rz true 1), .cvtnf (tc .fpm false 2), .shfi { ts with b := R 54 },
     .vote { pd := 1, mode := .all, ps := 1, b := R 54, tg := false }, .getid { d := R 1, sel := 11, pg := 0 }, .unlisted (.kinit 8 0),
     .unlisted (.kins { tb with d := R 54 }), .ld8 { tl 3 with sc := .group, st := .plain }, .ld64 (tl 54), .ld128 (tl 52),
     .st64 (tst 54), .st8 { tst 3 with sc := .group, st := .plain }, .st32 { tst 3 with d := P }, .stx { tx with st := .relaxed },
     .rld32 (tr 3 .acquire 0), .rst64 (tr 54 .release 0), .ratom { d := R 0, a := R 1, b := R 2, op := .fadd, st := .plain },
     .spawn { size := .s64, a := R 42, b := R 0, pg := 0, ng := false, ea := false }, .agenx { d := P, a := R 1, b := R 2, n := 0, w := 5 },
     .cbarv { cb := 0, a := R 1, b := R 2, err := true }, .cbarv { cb := 0, a := R 1, b := R 0, err := false },
     .rgatm { d := R 4, a := R 1, b := R 0, dp := true, op := .cas, n32 := false },
     .rgatm { d := R 3, a := R 1, b := R 2, dp := false, op := .fadd, n32 := true }, .unlisted (.cpyst P false 0),
     .unlisted (.mstep { acc := 0, t := 1, b := R 2, g4 := true, pm := false, cb := 0 }), .unlisted (.mstat P 2 false),
     .unlisted (.rrst (R 4) (R 1) (R 0) true 6 0), .unlisted (.sigadd (R 3) (R 1) (R 0) false true), .unlisted (.coord (R 3) (R 1) 3),
     .unlisted (.gentag t3 true 2), .unlisted (.csrrd (R 3) 0x183), .unlisted (.csrwr (R 3) 0x102)] = true := by decide +kernel

/-! ## Single words: results worked out by hand from 03_numbers and 08_compute -/

/-- Thread 0 with v1, v2 and v4 as given, and `fpm` as given. -/
def sV4 (a b d : W32) (fpm : W64 := 0) : State :=
  stWith { gr with threads := [(0, { th0 with v := [(1, a), (2, b), (4, d)] })], fpm := fpm }
/-- v4 of thread 0 and `fpm` after a word. -/
def v4 (i : Instr) (s : State) : Option (W32 × W64) := after (exec i s) fun t => ((t.grp.thread 0).reg 4, t.grp.fpm)
/-- Each word with v1, v2 and v4 as given leaves v4 as given last, and no flag. -/
def laneRows (rows : List (Instr × W32 × W32 × W32 × W32)) : Bool :=
  rows.all fun r => match r with | (i, a, b, d, x) => v4 i (sV4 a b d) == some (x, 0)
/-- The same with the value of `fpm` left. -/
def floatRows (rows : List (Instr × W32 × W32 × W32 × W32 × W64)) : Bool :=
  rows.all fun r => match r with | (i, a, b, d, x, f) => v4 i (sV4 a b d) == some (x, f)
/-- v4 := v1 op v2. -/
def b4 : LaneBin := fBin (R 4) (R 1) (R 2)
/-- v4 := op v1. -/
def u4 : LaneUn := fUn (R 4) (R 1)
/-- v4 := v1 op #n. -/
def i4 (n : BitVec 9) : LaneImm := fImm (R 4) (R 1) n
/-- v4 := conversion of v1. -/
def c4 (r : CvtRound) (sat : Bool) (fmt : Fin 4) : LaneCvt := { fCvt (R 4) (R 1) fmt with rnd := r, sat := sat }

theorem test_lane_add_multiply : laneRows
    [(.iadd b4, 0xFFFFFFFF, 2, 0, 1), (.isub b4, 1, 2, 0, 0xFFFFFFFF), (.imul b4, 0x10001, 0x10001, 0, 0x20001),
     (.imulhs b4, 0xFFFFFFFF, 2, 0, 0xFFFFFFFF), (.imulhu b4, 0xFFFFFFFF, 2, 0, 1), (.unlisted (.imad b4), 3, 4, 5, 17),
     (.imin b4, 0x80000000, 1, 0, 0x80000000), (.imax b4, 0x80000000, 1, 0, 1), (.umin b4, 0x80000000, 1, 0, 1),
     (.umax b4, 0x80000000, 1, 0, 0x80000000), (.iabs u4, 0x80000000, 0, 0, 0x80000000), (.iabs u4, 0xFFFFFFFD, 0, 0, 3)] = true := by
  decide +kernel
theorem test_lane_bits : laneRows
    [(.andv b4, 0xF0F0, 0xFF00, 0, 0xF000), (.orv b4, 0xF0F0, 0xFF00, 0, 0xFFF0), (.xorv b4, 0xF0F0, 0xFF00, 0, 0x0FF0),
     (.andn b4, 0xF0F0, 0xFF00, 0, 0x00F0), (.shl b4, 1, 32, 0, 0), (.shl b4, 1, 31, 0, 0x80000000), (.shr b4, 0x80000000, 31, 0, 1),
     (.shr b4, 0xFFFFFFFF, 0x21, 0, 0), (.sar b4, 0x80000000, 40, 0, 0xFFFFFFFF), (.sar b4, 0xFFFFFFFB, 1, 0, 0xFFFFFFFD),
     (.popc u4, 0xF0F, 0, 0, 8), (.clz u4, 1, 0, 0, 31), (.clz u4, 0, 0, 7, 32), (.brev u4, 1, 0, 0, 0x80000000),
     (.bfx b4, 0xF80, 0x8804, 0, 0xFFFFFFF8), (.bfx b4, 0xF80, 0x0804, 0, 0xF8), (.bfi b4, 0xFF, 0x0404, 0x12345678, 0x123456F8)] = true := by
  decide +kernel
theorem test_lane_immediates : laneRows
    [(.iaddi (i4 0x1FA), 5, 0, 0, 0xFFFFFFFF), (.andi (i4 0x1FE), 0x12345679, 0, 0, 0x12345678), (.shli (i4 31), 1, 0, 0, 0x80000000),
     (.shri (i4 31), 0x80000000, 0, 0, 1), (.lea { d := R 4, a := R 1, sh := 7, b := R 2, pg := 0 }, 0x1000, 3, 0, 0x1180),
     (.movi { d := R 4, imm := 0x7FFF, pg := 0 }, 0, 0, 0, 0xFFFFFFFF), (.sel { b4 with pg := 1 }, 5, 6, 0, 5),
     (.sel { b4 with pg := 1, ng := true }, 5, 6, 0, 6), (.iadd { b4 with pg := 2 }, 5, 6, 9, 9)] = true := by decide +kernel
/-- The predicates of thread 0 after a word. -/
def pr (i : Instr) (s : State) : Option (BitVec 8) := after (exec i s) fun t => (t.grp.thread 0).preds
theorem test_lane_compares :
    pr (.icmp { pd := 2, cc := .lt, a := R 1, b := R 2, pg := 0, ng := false, ea := false, eb := false }) (sV4 0x80000000 1 0) = some 6 ∧
    pr (.ucmp { pd := 1, cc := .lt, a := R 1, b := R 2, pg := 0, ng := false, ea := false, eb := false }) (sV4 0x80000000 1 0) = some 0 ∧
    pr (.icmp { pd := 0, cc := .lt, a := R 1, b := R 2, pg := 0, ng := false, ea := false, eb := false }) (sV4 0x80000000 1 0) = some 2 ∧
    pr (.fcmp { pd := 3, cc := .eq, a := R 1, b := R 2, pg := 0, ng := false, ea := false, eb := false }) (sV4 0x80000000 0 0) = some 10 ∧
    pr (.fcmp { pd := 1, cc := .ge, a := R 1, b := R 2, pg := 0, ng := false, ea := false, eb := false }) (sV4 0x7FC00000 0 0) = some 0 := by
  decide +kernel

theorem test_float_arithmetic : floatRows
    [(.fadd b4, 0x3F800000, 0x33800000, 0, 0x3F800000, 0x80), (.fsub b4, 0x3F800000, 0x3F800000, 0, 0, 0),
     (.fmul b4, 0x7F7FFFFF, 0x40000000, 0, 0x7F800000, 0xA0), (.fmul b4, 0, 0x7F800000, 0, 0x7FC00000, 0x10),
     (.ffma b4, 0x3F800001, 0x3F7FFFFE, 0xBF800000, 0xA8800000, 0), (.fmin b4, 0x80000000, 0, 0, 0x80000000, 0),
     (.fmax b4, 0x80000000, 0, 0, 0, 0), (.fmin b4, 0x7FC00001, 5, 0, 5, 0), (.fcls u4, 0x80000001, 0, 0, 4, 0),
     (.fcls u4, 0x7F800001, 0, 0, 0x100, 0)] = true := by decide +kernel
theorem test_float_minus_zero : v4 (.fsub b4) (sV4 0x3F800000 0x3F800000 0 3) = some (0x80000000, 3) := by decide +kernel
theorem test_float_transcendental : floatRows
    [(.frcp u4, 0, 0, 0, 0x7F800000, 0), (.frcp u4, 0x40800000, 0, 0, 0x3E800000, 0), (.frsq u4, 0x40800000, 0, 0, 0x3F000000, 0),
     (.fsqrt u4, 0x41100000, 0, 0, 0x40400000, 0), (.fsqrt u4, 0xBF800000, 0, 0, 0x7FC00000, 0x10),
     (.fexp2 u4, 0x40400000, 0, 0, 0x41000000, 0), (.flog2 u4, 0x41000000, 0, 0, 0x40400000, 0)] = true := by decide +kernel
theorem test_float_packed : floatRows
    [(.badd2 b4, 0x3F803F80, 0x40003F80, 0, 0x40404000, 0), (.bmul2 b4, 0x3F803F80, 0x40003F80, 0, 0x40003F80, 0),
     (.bfma2 b4, 0x3F803F80, 0x40003F80, 0x3F803F80, 0x40404000, 0), (.bmax2 b4, 0x3F803F80, 0x40003F80, 0, 0x40003F80, 0),
     (.hadd2 b4, 0x3C003C00, 0x40003C00, 0, 0x42004000, 0), (.hmul2 b4, 0x3C003C00, 0x40003C00, 0, 0x40003C00, 0),
     (.hfma2 b4, 0x3C003C00, 0x40003C00, 0x3C003C00, 0x42004000, 0)] = true := by decide +kernel
theorem test_conversions : floatRows
    [(.cvtif (c4 .fpm false 0), 0xFFFFFFFF, 0, 0, 0xBF800000, 0), (.cvtif (c4 .rn false 1), 0xFFFFFFFF, 0, 0, 0x4F800000, 0x80),
     (.cvtfi (c4 .rz false 1), 0xBF400000, 0, 7, 0, 0x80), (.cvtfi (c4 .rn false 1), 0xBF400000, 0, 7, 0, 0x10),
     (.cvtfb (c4 .rn false 0), 0x3F808000, 0, 0, 0x3F80, 0x80), (.cvtbf (c4 .fpm false 0), 0x3F80, 0, 0, 0x3F800000, 0),
     (.cvtfh (c4 .rn false 0), 0x47800000, 0, 0, 0x7C00, 0xA0), (.cvthf (c4 .fpm false 0), 0x3C00, 0, 0, 0x3F800000, 0),
     (.cvtf8 (c4 .rn true 0), 0x43FA0000, 0, 0, 0x7E, 0xA0), (.cvt8f (c4 .fpm false 0), 0x7E, 0, 0, 0x43E00000, 0),
     (.cvtfn (c4 .rn false 2), 0x40A00000, 0, 0, 6, 0x80), (.cvtnf (c4 .fpm false 2), 7, 0, 0, 0x40C00000, 0),
     (.unlisted (.dsenc u4), 0x3E99999A, 0, 0, 0x24, 0x80), (.unlisted (.dsmul b4), 0x40000000, 0x24, 0, 0x3F200000, 0),
     (.unlisted (.dsmul b4), 0x7F800000, 0x08, 1, 0, 0), (.unlisted (.mxscl b4), 0x3F800000, 0x80, 0, 0x40000000, 0),
     (.unlisted (.mxscl b4), 0, 0xFF, 0, 0x7FC00000, 0)] = true := by decide +kernel

/-- Top-2 list (5.0, 2), (2.0, 0) in v8 to v11, with a score in v1 and an index in v2. -/
def sTop (score : W32) (ix : W32) : State :=
  stWith { gr with threads := [(0, { th0 with v := [(1, score), (2, ix), (8, 0x40A00000), (9, 2), (10, 0x40000000), (11, 0)] })], klen := 2 }
/-- The list after KINS. -/
def top (s : State) : Option (List W32) :=
  after (exec (.unlisted (.kins (fBin (R 8) (R 1) (R 2)))) s) fun t => [8, 9, 10, 11].map (t.grp.thread 0).reg
theorem test_kins : top (sTop 0x40A00000 1) = some [0x40A00000, 1, 0x40A00000, 2] ∧
    top (sTop 0xFFFFFFFF 3) = some [0x40A00000, 2, 0x40000000, 0] := by decide +kernel
theorem test_kext_kinit :
    after (exec (.unlisted (.kext (R 4) (R 8) true 0 0)) (sTop 0 0)) (fun t => (t.grp.thread 0).reg 4) = some 2 ∧
    after (exec (.unlisted (.kinit 8 0)) (sTop 0 0)) (fun t => t.grp.klen) = some 8 := by decide +kernel

/-! ## Group words -/

/-- g1, g2 and g4 as given. -/
def sG4 (a b d : W64) : State := stWith { gr with g := [(1, a), (2, b), (4, d)] }
/-- Each word with g1, g2, g4 as given leaves g4 as given last. -/
def groupRows (rows : List (Instr × W64 × W64 × W64 × W64)) : Bool :=
  rows.all fun r => match r with | (i, a, b, d, x) => after (exec i (sG4 a b d)) (fun t => t.grp.reg 4) == some x
/-- g4 := g1 op g2 on 64 bits. -/
def g6 : GrpBin := fG (R 4) (R 1) (R 2)
/-- g4 := g1 op g2 on 32 bits. -/
def g3 : GrpBin := fG (R 4) (R 1) (R 2) false
/-- g4 := op g1. -/
def gu (w : Bool) : GrpUn := { d := R 4, a := R 1, cg := 0, ng := false, ea := false, w := w }

theorem test_group_arithmetic : groupRows
    [(.gadd g6, 0xFFFFFFFFFFFFFFFF, 2, 0, 1), (.gadd g3, 0xFFFFFFFF, 2, 0, 1), (.gsub g6, 1, 2, 0, 0xFFFFFFFFFFFFFFFF),
     (.gmul g6, 0x100000001, 0x100000001, 0, 0x200000001), (.gmad g6, 3, 4, 5, 17), (.gmin g3, 0x180000000, 1, 0, 0x80000000),
     (.gmax g3, 0x180000000, 1, 0, 1), (.gand g6, 0xF0F0, 0xFF00, 0, 0xF000), (.gor g6, 0xF0F0, 0xFF00, 0, 0xFFF0),
     (.gxor g6, 0xF0F0, 0xFF00, 0, 0x0FF0), (.gmulh g6, 0x8000000000000000, 4, 0, 2), (.gdivu g3, 0x100000007, 2, 0, 3),
     (.gdivu g6, 9, 0, 0, 0xFFFFFFFFFFFFFFFF), (.gremu g6, 9, 0, 0, 9), (.gremu g6, 9, 4, 0, 1)] = true := by decide +kernel
theorem test_group_shifts_and_bits : groupRows
    [(.gshl g6, 1, 64, 0, 0), (.gshr g6, 0x8000000000000000, 63, 0, 1), (.gsar g6, 0x8000000000000000, 100, 0, 0xFFFFFFFFFFFFFFFF),
     (.gsar g3, 0x80000000, 31, 0, 0xFFFFFFFF), (.gpopc (gu true), 0xFFFFFFFFFFFFFFFF, 0, 0, 64), (.gclz (gu true), 0, 0, 0, 64),
     (.gclz (gu false), 0, 0, 0, 32), (.gaddi { d := R 4, imm := 0x3FFFF }, 0, 0, 0, 0xFFFFFFFFFFFFFFFF),
     (.gmovi { d := R 4, imm := 0x20000 }, 0, 0, 0, 0xFFFFFFFFFFFE0000), (.gmovh { d := R 4, imm := 0x3FFFF }, 0, 0, 3, 0xFFFFF),
     (.gsel g6, 5, 6, 0, 5), (.gsel { g6 with ng := true }, 5, 6, 0, 6),
     (.unlisted (.glea g6), 0x00FE000009400000, 0x3000000000000005, 0, 0x00FE000009400028),
     (.unlisted (.glea g3), 0x1000, 0x2FFFFFFF, 0, 0xFFC), (.unlisted (.gbfx g6), 0xF80, 0x8804, 0, 0xFFFFFFFFFFFFFFF8),
     (.unlisted (.gbfx g3), 0xF80, 0x0820, 9, 0)] = true := by decide +kernel
/-- The conditions after GCMP into c2. -/
def cmp (cc : GrpCond) (w : Bool) (a b : W64) : Option (BitVec 4) :=
  after (exec (.gcmp { cd := 2, cc := cc, a := R 1, b := R 2, cg := 0, ng := false, ea := false, eb := false, w := w }) (sG4 a b 0))
    fun t => t.grp.conds
theorem test_gcmp : cmp .lt true 0x8000000000000000 1 = some 6 ∧ cmp .ltu true 0x8000000000000000 1 = some 2 ∧
    cmp .eq false 0x100000001 1 = some 6 ∧ cmp .geu false 0x80000000 1 = some 6 := by decide +kernel

/-! ## Control -/

/-- The program counters of both threads after a word at 0x10000. -/
def pcs (i : Instr) (s : State) : Option (List VA) := after (exec i s) fun t => [(t.grp.thread 0).pc, (t.grp.thread 1).pc]
theorem test_branches : pcs (.br { pg := 1, ng := false, off := BitVec.ofInt 20 (-3) }) sR = some [0xFFF4, 0x10004] ∧
    pcs (.gbr { cg := 1, ng := false, off := 4 }) sR = some [0x10010, 0x10010] ∧
    pcs (.gbr { cg := 1, ng := true, off := 4 }) sR = some [0x10004, 0x10004] ∧
    pcs (.gloop { d := R 3, imm := BitVec.ofInt 18 (-4) }) sR = some [0x10004, 0x10004] ∧
    pcs (.gloop { d := R 2, imm := BitVec.ofInt 18 (-4) }) sR = some [0xFFF0, 0xFFF0] ∧
    pcs (.ret { pg := 1, ng := false }) sR = some [0x20000, 0x10004] := by decide +kernel
theorem test_call : after (exec (.call { pg := 1, ng := false, off := 8 }) sR) (fun t => ((t.grp.thread 0).pc, (t.grp.thread 0).stack)) =
    some (0x10020, [0x10004, 0x20000]) := by decide +kernel
theorem test_misaligned_branch :
    after (exec (.brx { a := R 1, pg := 0, ng := false, ea := false }) (sV4 6 0 0)) (fun t => ((t.grp.thread 0).pc, (t.grp.thread 0).st)) =
      some (0x10000, .parked) := by decide +kernel
theorem test_gtrap : after (exec (.unlisted (.gtrap 0x123)) sR) (fun t => (t.grp.trap, t.grp.hpc, t.grp.fault.code, t.grp.trappc)) =
    some (true, 0x30000, 0x123, 0x10004) := by decide +kernel
theorem test_trap_bkpt :
    after (exec (.unlisted (.trap 0x7F 0)) sR) (fun t => ((t.grp.thread 0).st, (t.grp.thread 0).fault.code, (t.grp.thread 0).fault.rpc)) =
      some (.parked, 0x7F, 0x10004) ∧
    after (exec (.unlisted (.bkpt 0x7F 0)) sR) (fun t => ((t.grp.thread 0).st, (t.grp.thread 0).fault.code, (t.grp.thread 0).fault.rpc)) =
      some (.parked, 0x7F, 0x10000) := by decide +kernel
/-- SHFU under control 1, and a vote: threads 0 and 1 with mask 3 in v8 and control in v9. -/
def sC : State :=
  stWith { gr with threads := [(0, { th0 with v := [(1, 10), (8, 3), (9, 1)] }), (1, { th1 with v := [(1, 20), (8, 3), (9, 1)] })] }

/-! ## Memory: bytes of core 0's slice, low address first (09_access R147) -/

theorem test_store_bytes : after (exec (.st32 (fMem (R 8) (R 6) 0)) sM) (fun t => (Memory.get t.mem (sl 0x1000), Memory.get t.mem (sl 0x1003))) =
    some (0x44, 0x11) := by decide +kernel
theorem test_store_offset_scaled :
    after (exec (.st32 (fMem (R 8) (R 6) 1)) sM) (fun t => (Memory.get t.mem (sl 0x1000), Memory.get t.mem (sl 0x1004))) = some (0x80, 0x44) := by
  decide +kernel
theorem test_group_store : after (exec (.gst64 (fGM (R 3) (R 1) (R 2))) sM) (fun t => (Memory.get t.mem (sl 0x1010), Memory.get t.mem (sl 0x1017))) =
    some (0x88, 0x11) := by decide +kernel
/-! ## Computed targets that are no multiple of 4 (02_encoding R17) -/

theorem test_misaligned_returns :
    after (exec (.ret { pg := 0, ng := false }) (sStack [6])) (fun t => ((t.grp.thread 0).st, (t.grp.thread 0).stack, (t.grp.thread 0).fault.addr)) =
      some (.parked, [6], 6) ∧
    gives (exec (.gret { cg := 0, ng := false }) (sStack [6])) ((sStack [6]).performed
      (inHandler (sStack [6]).grp (ownRecord (sStack [6]).grp { cause := .misaligned, addr := 6 }) 0x10000 3)) = true ∧
    gives (exec (.gcall { cg := 0, ng := false, off := 4 }) (sStack (List.replicate 16 4))) ((sStack (List.replicate 16 4)).performed
      (inHandler (sStack (List.replicate 16 4)).grp (ownRecord (sStack (List.replicate 16 4)).grp { cause := .stackOverflow }) 0x10000 3)) = true ∧
    after (exec (.unlisted (.rte { cg := 0, ng := false })) (stWith { grTrap with trappc := 2 })) (fun t => (t.grp.held, t.grp.trap)) =
      some (true, true) := by decide +kernel

/-! ## Save areas (15_faults R268, R269; 07_registers R119) -/

/-- A saved team of one group with budget 8. -/
def savedX : SavedTeam :=
  { team := { launch := 5, index := 6, nTiles := 1, base := 3, progress := 100 }, copies := [{ kind := .cpywGet, cb := 2, count := 4 }],
    groups := [(9, { budget := 8, idx := 0 })] }

theorem test_save_header :
    (List.range 9).map (fun i => (wordIn (savedX.header { idem := true, hint := 7 } true 3) (8 * i)).toNat) =
      [2 ^ 56 + 2 ^ 40 + 8 * 2 ^ 16 + 2 ^ 12, 2 ^ 48 + 2 ^ 7 + 2 ^ 6 + 3, 100, 5 * 2 ^ 32, 6, 7, 0, 0, 0x800 + 2 ^ 32] := by
  decide +kernel
theorem test_save_queue :
    ((wordIn (Queue.bytes { entries := [.uniform 9], closed := true, gets := [(5, true, 0)] }) 0).toNat,
     (wordIn (Queue.bytes { entries := [.uniform 9] }) 32).toNat) = (1 + 8 + 2 ^ 4 + 2 ^ 8 + 5 * 2 ^ 11, 9) := by decide +kernel

/-! ## Words of the maps beside the table -/

/-- The machine with the first values of group registers as given. -/
def sWords (g : FMap W64) : State := stWith { gr with g := g }
/-- The same with a full binding table, and without one. -/
def sBound (bs : FMap Binding) : State :=
  { sWords [(1, 0x40), (2, 0x100), (3, 0x20)] with teams := [(1, { launch := 1, groups := [2], launched := 64, bindings := bs, nTiles := 1, nAccs := 1 })] }

theorem wit_SystemAndTeamWords_plain : sR.groupReady { guard := grpGuard sR.grp 0 false } = true ∧ sR.groupReady {} = true ∧
    sR.awaitsRemote sR.cur = false ∧ sR.grp.posted = [] ∧ sR.groupReady (groupReads [R 2]) = true ∧ sR.grp.sleepLeft = none ∧
    sR.laneReady { guard := laneGuard 0 false } = true ∧ ({ guard := laneGuard 0 false } : LaneWord).acting sR.grp ≠ [] ∧
    (stWith { gr with klen := 2 }).laneReady
      { blocks := [(4, 2 * 2)] ++ blockOf (R 0) 1, guard := laneGuard 0 false, ok := true, srcs := [{ o := regOpnd 7 }], dest := destOf (R 0) 1 } =
        true := by decide
theorem wit_SystemAndTeamWords_bind : (sWords []).groupReady (groupReads [R 1, R 2, R 3]) = true ∧
    gv ((sWords []).groupValues (groupReads [R 1, R 2, R 3])) 1 = 0 ∧ (sBound []).groupReady (groupReads [R 1, R 2, R 3]) = true ∧
    gv ((sBound []).groupValues (groupReads [R 1, R 2, R 3])) 1 = 0x100 ∧ gv ((sBound []).groupValues (groupReads [R 1, R 2, R 3])) 2 = 0x20 ∧
    (sBound []).segHeld (sBound []).curVd (sBound []).grp.team 0x20 = none ∧ (sBound []).curTeam.bindings.find 0 = none ∧
    (∀ n < 16, (sBound ((List.range 16).map (fun n => (n, { obj := 8, base := 0, len := 1 })))).curTeam.bindings.find n ≠ none) ∧
    (∀ p ∈ (List.range 16).map (fun n => (n, ({ obj := 8, base := 0, len := 1 } : Binding))), ¬(p.2.obj = 0x20 ∧ p.2.base = 0x40)) := by
  decide
theorem wit_SystemAndTeamWords_team : (sBound []).groupReady { srcs := [{ o := R 2 }], dest := destOf (R 5) 1 } = true ∧
    (sBound []).groupReady { dest := destOf (R 5) 1 } = true ∧ (sBound []).segNamed (sBound []).curVd 0x100 = none ∧
    (sBound []).curTeam.nTiles = 1 ∧ ((sBound []).core (sBound []).curCore).seqs.countP (fun q => !q.started) < 8 ∧
    (sBound []).curTeam.nAccs = 1 ∧ ((sBound []).curTeam.accs.get 0 {}).hold = none ∧
    ((sBound []).pipe (sBound []).curCore).takeWhile (fun k => k != (sBound []).cur) = [] ∧ (sBound []).grp.replyWait = none := by decide

/-! ## Segment words -/

/-- Team 1's group, its registers, and segments of core 0 as given; the pool has one granule. -/
def sSg (g : FMap W64) (segs : FMap Seg) (att : List (Nat × Bool) := []) : State :=
  { stWith { gr with g := g } with
    vdevs := [(0, { live := true, clusters := List.range 96, segs := segs, stowBase := 0x700000, stowLen := 1 })],
    teams := [(1, { launch := 1, groups := [2], launched := 64, phase := .running, attaches := att })] }
/-- A segment at granule 1 of core 0 under the name 5, as `f` changes it. -/
def seg5 (f : Seg → Seg := id) : FMap Seg := [(2, f { name := 5, state := .resident, core := 0, gran := 1, ng := 1 })]
/-- Every granule of core 0 is taken. -/
def fullSlice : FMap Nat := (List.range 40).map (fun i => (granuleOf 0 i, 1))
theorem wit_SegmentWords_new : let s := sSg [(2, 0x10000)] []
    let w : GrpWord := { srcs := [{ o := R 2 }], dest := destOf (R 5) 1 }
    let s1 := (s.take [R 2]).2
    s.groupReady w = true ∧ (gv (s.groupValues w) 0).toNat = 65536 ∧ canTrap s .sliceRange ∧ (gv ((sSg [] []).groupValues w) 0).toNat = 0 ∧
    (s.vdev s.curVd).segs.length < 4096 ∧ s1.stowsFor (.sgnew s.cur) = false ∧ s1.freeRun [s.curCore] 1 = some 0 ∧
    (s.vdev s.curVd).segs.find 0 = none ∧
    (let u := { s1 with granules := fullSlice }
     u.freeRun [u.curCore] 1 = none ∧ u.candidatesFor u.curVd [u.curCore] = [] ∧ u.stowing [u.curCore] = false) := by
  unfold canTrap handles; decide +kernel
theorem wit_SegmentWords_name : let w : GrpWord := { srcs := [{ o := R 1 }, { o := R 2 }], dest := destOf (R 5) 1 }
    let s := fun (b n : W64) (f : Seg → Seg) => sSg [(1, b), (2, n)] (seg5 f)
    let mine := fun (g : Seg) => { g with state := .local_, name := 0, writer := some 1 }
    let b : W64 := 0x00FE000000010000
    (s b 9 mine).groupReady w = true ∧ (((s b 9 mine).take [R 1, R 2]).2).segHeld 0 1 b = some 2 ∧ (s b 9 mine).segNamed 0 9 = none ∧
    ((s b 9 mine).seg 0 2).state = .local_ ∧ (((s 0 9 mine).take [R 1, R 2]).2).segHeld 0 1 0 = none ∧ canTrap (s b 9 mine) .attachMiss ∧
    gv ((s b 0 mine).groupValues w) 1 = 0 ∧
    ((s b 9 (fun g => { g with writer := some 1 })).seg 0 2).state ≠ .local_ ∧
    (sSg [(1, b), (2, 9)] ([(1, { name := 9, state := .stowed })] ++ seg5 mine)).segNamed 0 9 = some 1 := by
  unfold canTrap handles; decide +kernel
theorem wit_SegmentWords_attach : let w : GrpWord := { srcs := [{ o := R 2 }], dest := destOf (R 5) 1 }
    let s := fun (f : Seg → Seg) => sSg [(2, 5)] (seg5 f)
    (∀ f ∈ [id, fun g => { g with state := .stowing }, fun (g : Seg) => { g with readers := [1, 9] }, fun g => { g with writer := some 9 },
        fun g => { g with writer := some 1 }, fun g => { g with state := .stowed }],
      (s f).groupReady w = true ∧ ((s f).take [R 2]).2.dirtyClaimed (s f).curCore = false ∧ ((s f).take [R 2]).2.segNamed 0 5 = some 2 ∧
      ((s f).take [R 2]).2.turnAt 0 2 (.group 2) = true) ∧
    ((s id).seg 0 2).writer = none ∧ ((s id).seg 0 2).readers = [] ∧ ((s id).seg 0 2).state = .resident ∧
    (sSg [(2, 6)] (seg5)).segNamed 0 6 = none ∧ canTrap (s id) .attachMiss ∧ canTrap (s id) .segmentConflict := by
  unfold canTrap handles; decide +kernel
theorem wit_SegmentWords_detach : let w : GrpWord := { srcs := [{ o := R 1 }] }
    let s := fun (f : Seg → Seg) => sSg [(1, 0x00FE000000010000)] (seg5 (fun g => f { g with writer := some 1 })) [(2, true)]
    (∀ f ∈ [id, fun (g : Seg) => { g with state := .local_, name := 0 }, fun (g : Seg) => { g with dropped := true }],
      let s1 := ((s f).take [R 1]).2
      (s f).groupReady w = true ∧ s1.segHeld 0 1 0x00FE000000010000 = some 2 ∧ s1.releaseWaits .device true = false ∧
      s1.detachWaits 1 ((s f).seg 0 2) = false ∧ s1.turnAt 0 2 (.group 2) = true ∧ ¬ heldElsewhere ((s f).seg 0 2) 1) ∧
    ((s id).take [R 1]).2.segHeld 0 9 0x00FE000000010000 = none ∧ heldElsewhere { writer := none, readers := [1, 9] } 1 := by
  unfold heldElsewhere; decide +kernel
theorem wit_SegmentWords_drop : let w : GrpWord := { srcs := [{ o := R 2 }], dest := destOf (R 5) 1 }
    let s := fun (f : Seg → Seg) => sSg [(2, 5)] (seg5 f)
    (∀ f ∈ [id, fun (g : Seg) => { g with state := .stowing }, fun (g : Seg) => { g with writer := some 9 }],
      (s f).groupReady w = true ∧ ((s f).take [R 2]).2.segNamed 0 5 = some 2 ∧ ((s f).take [R 2]).2.turnAt 0 2 (.group 2) = true) ∧
    ¬ heldElsewhere ((s id).seg 0 2) 1 ∧ heldElsewhere ((s (fun g => { g with writer := some 9 })).seg 0 2) 1 ∧
    (sSg [(2, 6)] (seg5)).segNamed 0 6 = none ∧ (s id).segHeld 0 1 5 = none ∧ canTrap (s id) .attachMiss := by
  unfold heldElsewhere canTrap handles; decide +kernel
theorem wit_SegmentWords_stow : let w : GrpWord := { srcs := [{ o := R 2 }], dest := destOf (R 5) 1 }
    let s := fun (f : Seg → Seg) => sSg [(2, 5)] (seg5 f)
    (∀ f ∈ [id, fun (g : Seg) => { g with pin := true }, fun (g : Seg) => { g with writer := some 9 }, fun (g : Seg) => { g with state := .stowed },
        fun (g : Seg) => { g with state := .restoring }],
      (s f).groupReady w = true ∧ ((s f).take [R 2]).2.segNamed 0 5 = some 2 ∧ (s f).segNamed 0 5 = some 2 ∧
      ((s f).take [R 2]).2.turnAt 0 2 (.group 2) = true ∧ ((s f).take [R 2]).2.imported 0 ((s f).seg 0 2) = false ∧ ((s f).seg 0 2).buffer = false) ∧
    ((s id).take [R 2]).2.poolPlace 0 ((s id).seg 0 2).units ≠ none ∧ ((s id).seg 0 2).attached = false ∧
    ((s (fun g => { g with ng := 2 })).take [R 2]).2.poolPlace 0 2 = none ∧ ((s (fun g => { g with writer := some 9 })).seg 0 2).attached = true ∧
    (sSg [(2, 6)] (seg5)).segNamed 0 6 = none := by decide +kernel

/-! ## The table unit -/

/-- A shape record at 0x2000 of core 0's slice: A at 0x1000 with rows 64 bytes apart, B at 0x4000, the count's address, and word 5. -/
def sTu (rcp w5 : Nat) (more : List (Nat × List Byte) := []) (t : Team := {}) (c : Core := {}) : State :=
  { stWith { gr with g := [(1, 0x00FE000000001000), (2, 0x00FE000000002000), (3, 0x200)] } with
    teams := [(1, { t with launch := 1, groups := [2], launched := 64, phase := .running, nTiles := 8, nAccs := 16 })], cores := [(0, c)],
    mem := more.foldl (fun m p => Memory.setBytes m (sl p.1) p.2)
      (Memory.setBytes [] (sl 0x2000) (descBytes [sl 0x1000, sl 0x4000, 0, 64, rcp, w5, 0, 0])) }
/-- Word 5 of 10_table R168's example: 1 step of 128 columns and 16 rows, G1, BFMT 4, AFMT 0; here 2 columns and 2 rows. -/
def w5a : Nat := 0x0001000002000140
theorem test_shape_record : let h := shapeOf fun i => if i = 5 then 0x0001000080000F40 else 0
    (h.ks, h.s0, h.ne, h.mb, h.bfmt, h.afmt) = (1, 0, 128, 16, 4, 0) := by decide
theorem wit_TableUnit : ∀ t ∈ [(0, w5a), (sl 0x3000, w5a)], let s := sTu t.1 t.2 [(0x3000, [1])]
    let w := groupReads [R 1, R 2]
    let s1 := (s.take [R 1, R 2]).2
    s.groupReady w = true ∧ (5 : Fin 8).val < s.curTeam.nTiles ∧
    okAnd (s1.shapeAt (gv (s.groupValues w) 1) false (fun _ => (gv (s.groupValues w) 0).toNat)) (fun h =>
      okAnd (s1.rowsOf h) (fun r => decide (r = if t.1 = 0 then (2, false, 2) else (1, false, 1)) &&
        okIs (s1.aBlock s.curCore s.curVd (gv (s.groupValues w) 0).toNat (aBlockLen false h r.1)) (sl 0x1000)) && !h.sp) = true ∧
    sequencerFree s := by unfold sequencerFree; decide +kernel
/-- Whether a check ends in the fault given. -/
def faultsWith {α : Type} (o : Except GRes α) (f : AccFault) : Bool :=
  match o with
  | .ok _ => false
  | .error (.fault x) => decide (x = f)
  | .error _ => false
theorem wit_TableUnit_four : let s := sTu 0 0x0001000002000100
    let w := groupReads [R 1, R 2]
    let s1 := (s.take [R 1, R 2]).2
    okAnd (s1.shapeAt (gv (s.groupValues w) 1) true (fun _ => (gv (s.groupValues w) 0).toNat)) (fun h => h.p == 1) = true ∧
    faultsWith (s1.shapeAt (gv (s.groupValues w) 0) true (fun _ => (gv (s.groupValues w) 0).toNat)) { cause := .reservedField } = true ∧
    canTrap s .reservedField := by unfold canTrap handles; decide +kernel
theorem wit_TableUnit_sequence : ∀ pm ∈ [false, true], let s := sTu 0 w5a
    let w := groupReads [R 2]
    let s1 := (s.take [R 2]).2
    s.groupReady w = true ∧ (4 : Fin 8).val < s.curTeam.nTiles ∧ (9 : Fin 16).val < s.curTeam.nAccs ∧
    okAnd (s1.shapeAt (gv (s.groupValues w) 0) false (fun h => h.abase.toNat + h.s0 * h.astep.toInt)) (fun h =>
      okIs (s1.rowsOf h) (2, false, 2) && okIs (s1.aBlock s.curCore s.curVd (sl 0x1000) (aBlockLen false h 2)) (sl 0x1000) &&
      decide (4 % 2 = 0 ∧ 4 + (if h.s0 + 1 < h.ks then 1 else h.s0 % 2) < s.curTeam.nTiles) && decide (9 + h.ns < s.curTeam.nAccs)) = true ∧
    (pm = false → (s.curTeam.accs.get 9 {}).hold = none ∧ s1.pipeNames s.curCore s.grp.team 9 = false) ∧ s.curTeam.steps + 1 ≤ 65535 ∧
    sequencerFree s ∧ s1.dirtyClaimed s.curCore = false := by unfold sequencerFree; decide +kernel
theorem wit_TableUnit_records : let s := sTu (sl 0x3000) (w5a + 2 ^ 20) [(0x3000, [3])]
    s.inOneSlice s.curCore s.curVd (sl 0x2000) 64 = some (sl 0x2000) ∧ s.claimed (sl 0x2000) 64 = false ∧ s.poisoned (sl 0x2000) 64 = false ∧
    (let w := fun i => s.load64 (sl 0x2000 + 8 * i)
     shapeFieldsOk w false = true ∧ shapeFieldsOk w true = false ∧ (shapeOf w).strict = true ∧ (shapeOf w).mb = 2 ∧ (shapeOf w).rcp.toNat = sl 0x3000 ∧
     s.blockWide (sl 0x1000) (aBlockLen false (shapeOf w) 2) = false ∧ s.blockWide (sl 0x1000) (9 * 65536) = true) ∧
    s.inOneSlice s.curCore s.curVd (sl 0x3000) 4 = some (sl 0x3000) ∧ s.claimed (sl 0x3000) 4 = false ∧ s.poisoned (sl 0x3000) 4 = false ∧
    s.load32 (sl 0x3000) = 3 ∧ (sl 0x3000) % 4 = 0 ∧ (sl 0x1020) % 64 ≠ 0 := by decide +kernel
theorem wit_TableUnit_images : let s := sTu 0 w5a
    let w := groupReads [R 1]
    s.groupReady w = true ∧ (gv (s.groupValues w) 0).toNat % 64 = 0 ∧
    (s.inOneSlice s.curCore s.curVd (gv (s.groupValues w) 0).toNat 16448).isSome = true ∧
    (gv ((stWith { gr with g := [(1, 0x00FE000000001020)] }).groupValues w) 0).toNat % 64 ≠ 0 ∧ canTrap s .misaligned ∧
    s.groupReady {} = true ∧ s.grp.replyWait = none ∧ (s.core s.curCore).seqs = [] ∧ s.groupReady { dest := destOf (R 5) 1, counts := true } = true ∧
    s.grp.waits.length < 7 ∧ s.inOrder = true ∧ s.grp.issuePc ≠ none ∧ canTrap s .reservedField ∧ s.curTeam.nAccs ≤ 16 ∧
    (gv ((sSg [(1, 0x00FE000000010000)] []).groupValues w) 0).toNat % 64 = 0 := by unfold canTrap handles; decide +kernel
/-- The machine whose sequencer has one word, for team 1 and tile 0. -/
def sHead (q : SeqCmd) (t : Team := {}) (more : List (Nat × List Byte) := []) : State :=
  sTu 0 w5a more t { seqs := [{ q with id := 7, team := 1, group := 2 }] }
/-- The shape of the record. -/
def shA : Shape := shapeOf fun i => BitVec.ofNat 64 ([sl 0x1000, sl 0x4000, 0, 64, 0, w5a, 0, 0].getD i 0)
theorem wit_TableUnit_builds : let q : SeqCmd := { kind := .tbld, shape := shA, addr := 0x00FE000000001000, rows := 2 }
    let s := sHead q
    heads s 0 { q with id := 7, team := 1, group := 2 } ∧ q.pair = false ∧
    okIs (s.aBlock 0 (s.team 1).vd q.addr.toNat (aBlockLen false q.shape q.rows)) (sl 0x1000) = true ∧
    s.claimed (sl 0x1000) (aBlockLen false q.shape q.rows) = false ∧ s.badRow (sl 0x1000) (q.template q.addr) = none ∧
    32 * 2 ^ bMant q.shape.bfmt * q.rows ≤ 4096 := by
  refine ⟨⟨⟨[], ?_⟩, ?_⟩, ?_⟩ <;> decide +kernel
theorem wit_TableUnit_moves : ∀ k ∈ [SeqKind.tinv, .tspl, .tfil], let q : SeqCmd := { kind := k, addr := 0x00FE000000008000 }
    let s := sHead q
    heads s 0 { q with id := 7, team := 1, group := 2 } ∧ noBuffers s ∧ Memory.wf s.mem = true ∧
    s.inOneSlice 0 (s.team 1).vd q.addr.toNat 16448 = some (sl 0x8000) ∧ s.claimed (sl 0x8000) 16448 = false ∧
    s.poisoned (sl 0x8000) 16448 = false ∧ descriptorOk (fun i => s.load64 (sl 0x8000 + 8 * i)) = true ∧
    descriptorOk (fun i => if i = 3 then 1 else s.load64 (sl 0x8000 + 8 * i)) = false ∧
    s.gensCurrent 0 (tileOf (fun i => s.load64 (sl 0x8000 + 8 * i))) = true := by
  intro k hk
  unfold heads noBuffers
  refine ⟨⟨⟨[], ?_⟩, ?_⟩, ?_⟩ <;> revert k <;> decide +kernel
/-- A started MSTEP of tile 0 into accumulator 1. -/
def qStep : SeqCmd := { kind := .mstep, started := true, acc := 1, cb := 3, shape := shA, rows := 2, id := 7, team := 1, group := 2 }
theorem wit_TableUnit_steps : let t : Team := { tiles := [(0, { state := .valid, rows := 2, bfmt := 4 })], accs := [(1, { full := true, hold := some 7 })], steps := 1 }
    let s := sHead qStep t
    let x := (s.team 1).tile 0
    heads s 0 qStep ∧ qStep.step = qStep.shape.s0 ∧ (∀ a ∈ (s.team 1).accs, a.2.hold = none ∨ a.2.hold = some qStep.id) ∧ x.state = .valid ∧
    x.isPair = false ∧ x.trunc = false ∧ x.rows = qStep.rows ∧ x.mode = 0 ∧ bMant x.bfmt = bMant qStep.shape.bfmt ∧ x.sp = qStep.shape.sp ∧ x.hi = false ∧
    (match s.readBlock 0 0 qStep.bAddr (bBlockSize false qStep.shape.kind qStep.shape.sp qStep.shape.bfmt qStep.shape.p) with
      | some (.ok bs) => decide (bs.length = 2048)
      | some (.error _) => false
      | none => false) = true ∧
    (s.teams.find 1).isSome = true ∧ (sliceBase : Int) ≤ qStep.bAddr := by
  unfold heads
  refine ⟨⟨⟨[], ?_⟩, ?_⟩, ?_⟩ <;> decide +kernel
theorem wit_TableUnit_errors : ∀ x ∈ [({ state := .empty } : Tile), { state := .stale }, { state := .faulted, cause := 9 }, { state := .valid, rows := 1 }],
    let s := sHead qStep { tiles := [(0, x)], steps := 1 }
    heads s 0 qStep ∧ qStep.step = qStep.shape.s0 ∧ (s.team 1).tile 0 = x ∧ (x.state = .valid → x.rows < qStep.rows) := by
  intro x hx
  unfold heads
  refine ⟨⟨⟨[], ?_⟩, ?_⟩, ?_⟩ <;> revert x <;> decide +kernel
theorem wit_TableUnit_sums : exact (bFmt 4) 3 = .fin false 3 (-1) ∧
    3 < 2 ^ bPlanes 4 ∧ 8 % 2 ^ ((bFmt 4).bits - 1) = 0 := by decide
/-- The machine whose accumulators 1 and 2 are as given. -/
def sAcc (a1 a2 : Acc) : State :=
  { sTu 0 w5a [] { accs := [(1, a1), (2, a2)] } with
    groups := [(2, { gr with g := [(1, 0x00FE000000008000), (2, 0x200), (4, 0x00FE000000004000)] })] }
theorem wit_TableUnit_scales : ∀ full ∈ [true, false], let s := sAcc { full := true } { full := full }
    let w := groupReads [R 4]
    s.groupReady w = true ∧ (gv (s.groupValues w) 0).toNat % 16 = 0 ∧
    (∀ j < 9, reachesSlice s (gv (s.groupValues w) 0 + BitVec.ofNat 64 (16 * j)) 16 .load (sl 0x4000 + 16 * j)) ∧ pipeFree s ∧
    (s.curTeam.accs.get 1 {}).hold = none ∧ (s.curTeam.accs.get 2 {}).hold = none ∧ (s.curTeam.accs.get 2 {}).full = full ∧
    canTrap s .emptyRead := by
  intro full hf
  refine ⟨?_, ?_, fun j hj => reachesSlice_of ?_, ?_, ?_, ?_, ?_, ?_⟩
  · revert full; decide +kernel
  · revert full; decide +kernel
  · revert j full; decide +kernel
  · unfold pipeFree; revert full; decide +kernel
  · revert full; decide +kernel
  · revert full; decide +kernel
  · revert full; decide +kernel
  · unfold canTrap handles; revert full; decide +kernel
theorem wit_TableUnit_loads : let s := sAcc {} {}
    let w := groupReads [R 1, R 2]
    s.groupReady w = true ∧ rowsReach s (gv (s.groupValues w) 0) (gv (s.groupValues w) 1) .load 512 (sl 0x8000) 0x200 := by
  refine ⟨by decide +kernel, by decide +kernel, by decide +kernel, by decide +kernel, fun r hr i hi => reachesSlice_of ?_⟩
  revert i r; decide +kernel
theorem wit_TableUnit_stores : ∀ full ∈ [true, false], let s := sAcc { full := full } {}
    let w := groupReads [R 1, R 2]
    s.groupReady w = true ∧ noBuffers s ∧ Memory.wf s.mem = true ∧ s.grp.inPipe = false ∧
    rowsReach s (gv (s.groupValues w) 0) (gv (s.groupValues w) 1) .store 512 (sl 0x8000) 0x200 ∧
    rowsReach s (gv (s.groupValues w) 0) (gv (s.groupValues w) 1) .store 128 (sl 0x8000) 0x200 := by
  intro full hf
  refine ⟨?_, ?_, ?_, ?_, ⟨?_, ?_, by decide, fun r hr i hi => reachesSlice_of ?_⟩, ⟨?_, ?_, by decide, fun r hr i hi => reachesSlice_of ?_⟩⟩
  · revert full; decide +kernel
  · unfold noBuffers; revert full; decide +kernel
  · revert full; decide +kernel
  · revert full; decide +kernel
  · revert full; decide +kernel
  · revert full; decide +kernel
  · revert i r full; decide +kernel
  · revert full; decide +kernel
  · revert full; decide +kernel
  · revert i r full; decide +kernel

/-! ## Lists, synchronisation, administration -/

theorem wit_SystemAndTeamWords_kins : let f := fBin (R 8) (R 1) (R 2)
    (sTop 5 1).laneReady
      { blocks := [(8, 4)] ++ blockOf f.a 1 ++ blockOf f.b 1, guard := laneGuard f.pg f.ng, srcs := [{ o := f.a }, { o := f.b }],
        also := [8, 9, 10, 11], dest := .regs 8 4 } = true ∧ (sTop 5 1).grp.klenN = 2 ∧ (fp32 5).isNan = false ∧ (fp32 0x7FC00000).isNan = true := by
  decide
theorem wit_SystemAndTeamWords_unbind : let w := groupReads [R 1, R 2]
    (sSg [(1, 5), (2, 0x104)] []).groupReady w = true ∧ (gv ((sSg [(1, 5), (2, 0x104)] []).groupValues w) 1).toNat % 8 ≠ 0 ∧
    (sSg [(1, 5), (2, 0x104)] []).segHeld 0 1 0x104 = none ∧ canTrap (sSg [(1, 5), (2, 0x104)] []) .misaligned ∧
    (gv ((sSg [(1, 5), (2, 0x108)] []).groupValues w) 1).toNat % 8 = 0 := by unfold canTrap handles; decide
theorem wit_SystemAndTeamWords_sync : let w := groupReads [R 1]
    let mine := sSg [(1, 0x00FE000000010000)] (seg5 (fun g => { g with writer := some 1 })) [(2, true)]
    let word := sSg [(1, 0x00FE000000001000)] []
    mine.groupReady w = true ∧ word.groupReady w = true ∧ mine.segHeld 0 1 0x00FE000000010000 = some 2 ∧
    (mine.take [R 1]).2.dirtyClaimed 0 = false ∧ (mine.take [R 1]).2.releaseWaits .device true = false ∧ (mine.seg 0 2).state ≠ .free ∧
    word.segHeld 0 1 0x00FE000000001000 = none ∧ reachesSlice word 0x00FE000000001000 8 .load (sl 0x1000) ∧
    reachesSlice word 0x00FE000000001000 8 .atomic (sl 0x1000) ∧ plainSlices word ∧ (word.vdev 0).capture = [] ∧
    (word.take [R 1]).2.releaseWaits .domain true = false ∧ (sSg [] []).segHeld 0 1 0 = none ∧ canTrap word .misaligned :=
  ⟨by decide, by decide, by decide, by decide, by decide, by decide, by decide, reachesSlice_of (by decide), reachesSlice_of (by decide),
   by unfold plainSlices noBuffers; decide, by decide, by decide, by decide, by unfold canTrap handles; decide⟩
theorem wit_SystemAndTeamWords_admin : sR.groupReady { guard := grpGuard sR.grp 0 false, srcs := [{ o := R 2 }] } = true ∧
    (sR.take [R 2]).2.releaseWaits .device true = false ∧ (∃ k ∈ sR.curTeam.groups, (sR.group k).inPipe = false) ∧
    (let w : GrpWord := { srcs := [{ o := R 2 }], dest := destOf (R 5) 1 }
     sR.groupReady w = true ∧ (gv (sR.groupValues w) 0).toNat ≤ 47 ∧ 47 < (gv ((sSg [(2, 48)] []).groupValues w) 0).toNat) ∧
    canTrap sR .reservedField ∧ canTrap sR .privileged ∧
    (let w : GrpWord := { srcs := [{ o := R 1 }, { o := R 2 }], dest := destOf (R 5) 1 }
     [0, 1, 17].all (fun b => (sSg [(2, b)] []).groupReady w && gv ((sSg [(2, b)] []).groupValues w) 1 == b) = true) ∧
    sR.grp.fw = false ∧ (stWith { gr with fw := true }).grp.fw = true := by unfold canTrap handles; decide
theorem wit_SystemAndTeamWords_probe :
    sM.check 0 0 0x00FE000000001000 1 .load = .ok (.slice (sl 0x1000)) ∧
    (match sR.translate 0 0 0x5000 with | .missing m => !m | _ => false) = true := ⟨eq_of_okIs (by decide), by decide +kernel⟩
theorem wit_SystemAndTeamWords_gentag : let w : GrpWord := { srcs := [{ o := R 2 }], dest := destOf (R 5) 1, counts := false }
    let s := fun (r : List Nat) => ({ stWith gr with vdevs := [(0, { live := true, retired := r })] } : State)
    (s []).groupReady w = true ∧ (gv ((s []).groupValues w) 0).toNat % 2 ^ 16 = 7 ∧ 7 ∉ ((s []).vdev 0).retired ∧ 7 ∈ ((s [7]).vdev 0).retired ∧
    canTrap (s [7]) .generationRetired ∧ ((s []).take [R 2]).2.retireWaits 0 7 = false ∧
    (gv ((sSg [] []).groupValues w) 0).toNat % 2 ^ 16 = 0 ∧ canTrap (sSg [] []) .reservedField := by unfold canTrap handles; decide +kernel
/-- The fabric machine with a PEER window for the elements of the pattern 0x82. -/
def sTag : State := { fab (stWith { grRem with g := [(1, 0x0003000000000000), (4, 5)] }) with clusters := [(0, { windows := [(0, 3, wPeer.set 3 0x82)] })] }
theorem wit_SystemAndTeamWords_gentag_remote : let w : GrpWord := { srcs := [{ o := R 4 }, { o := R 1 }], dest := destOf (R 6) 1, counts := true }
    let s1 := (sTag.take [R 4, R 1]).2
    sTag.groupReady w = true ∧ sTag.grp.replyWait = none ∧ sTag.contained = [] ∧ (gv (sTag.groupValues w) 0).toNat % 2 ^ 16 ≠ 0 ∧
    okAnd (s1.grpCheck (gv (sTag.groupValues w) 1) none { perm := 58, kinds := [0], size := 0, wr := true }) (fun t => s1.canSend s1.curVd 5 [t]) = true := by
  decide

end Sys2Proof.Tests
end

section
/-! PROOFS. FMIN, FMAX and FCLS (08_compute R131, R133): the words perform their rules because the value of an FP32 code is
fixed by its sign and magnitude, and FMIN and FMAX choose by one strict order of the codes. -/

namespace Sys2Proof.Machine

open Sys2Proof.Claims

/-! ## Words that perform a rule and hold an opcode -/

/-- A two-source lane word performs `op'` when its operation agrees with it on all values. -/
theorem binary_performs {mk : LaneBin → Instr} {op op' : W32 → W32 → W32}
    (hexec : ∀ f s, exec (mk f) s = s.laneBin (mk f) f op) (hop : ∀ a b, op a b = op' a b) : Binary Performs mk op' := by
  obtain rfl : op = op' := funext fun a => funext (hop a)
  intro f s h
  rw [hexec]
  exact congrArg _ (State.laneWord_value s _ (valueRule (binWord f) f.d fun a b _ => op a b)
    (fun s1 k t => op (s1.lv k 0 t) (s1.lv k 1 t)) h rfl (fun t => by simp only [State.lv_take]; rfl))

/-- A one-source lane word performs `op'` when its operation agrees with it on all values. -/
theorem unary_performs {mk : LaneUn → Instr} {op op' : W32 → W32}
    (hexec : ∀ f s, exec (mk f) s = s.laneUn (mk f) f op) (hop : ∀ a, op a = op' a) : Unary Performs mk op' := by
  obtain rfl : op = op' := funext hop
  intro f s h
  rw [hexec]
  exact congrArg _ (State.laneWord_value s _ (valueRule (unWord f) f.d fun a _ _ => op a)
    (fun s1 k t => op (s1.lv k 0 t)) h rfl (fun t => by simp only [State.lv_take]; rfl))

theorem hasCode_of_enc {φ : Type} {mk : φ → Instr} {enc : φ → Nat} {code : Nat}
    (henc : ∀ x, (mk x).enc = some (enc x)) (hop : ∀ x, enc x / 2 ^ 24 = code) : HasCode mk code := by
  intro x n h
  rw [henc] at h
  cases h
  exact hop x

/-! ## FP32 codes (03_numbers R38, R39) -/

/-- The magnitude bits of an FP32 code: exponent and mantissa. -/
def fp32Mag (a : W32) : Nat := a.toNat % 2 ^ 31

theorem natBit_sign (a : W32) : natBit a.toNat 31 = a.msb := by
  have := a.isLt
  rw [BitVec.msb_eq_decide, natBit, Bool.eq_iff_iff, beq_iff_eq, decide_eq_true_eq]
  omega

/-- The value of an FP32 code by its magnitude: infinity, NaN, zero and subnormal, normal. -/
theorem fp32_eq (a : W32) : fp32 a =
    if fp32Mag a = 0x7F800000 then .inf a.msb
    else if 0x7F800000 < fp32Mag a then .nan
    else if fp32Mag a < 2 ^ 23 then .fin a.msb (fp32Mag a) (-149)
    else .fin a.msb (2 ^ 23 + fp32Mag a % 2 ^ 23) ((fp32Mag a / 2 ^ 23 : Nat) - 127 - 23) := by
  have hmag : a.toNat % 2 ^ (Fmt.fp32.bits - 1) = fp32Mag a := rfl
  have hsign : natBit a.toNat (Fmt.fp32.bits - 1) = a.msb := natBit_sign a
  simp only [fp32, exact, hmag, hsign, Fmt.hasInf, Fmt.hasNan, Fmt.maxCode, Fmt.mant, Fmt.bias, Bool.true_and, decide_eq_true_eq]
  by_cases hinf : fp32Mag a = 0x7F800000
  · rw [if_pos hinf, if_pos hinf]
  have hnan : 0x7F7FFFFF < fp32Mag a ↔ 0x7F800000 < fp32Mag a := by omega
  have hsub : fp32Mag a / 2 ^ 23 = 0 ↔ fp32Mag a < 2 ^ 23 := by omega
  simp only [if_neg hinf, hnan, hsub]
  by_cases hn : 0x7F800000 < fp32Mag a
  · rw [if_pos hn, if_pos hn]
  rw [if_neg hn, if_neg hn]
  by_cases hs : fp32Mag a < 2 ^ 23
  · rw [Nat.mod_eq_of_lt hs]
    exact (if_pos hs).trans (if_pos hs).symm
  · exact (if_neg hs).trans (if_neg hs).symm

theorem fp32_eq_nan_iff (a : W32) : fp32 a = .nan ↔ 0x7F800000 < fp32Mag a := by
  rw [fp32_eq]
  split
  next hinf => exact ⟨fun h => (nomatch h), fun h => by omega⟩
  next hinf =>
    split
    next hnan => exact ⟨fun _ => hnan, fun _ => rfl⟩
    next hnan =>
      refine ⟨fun h => ?_, fun h => absurd h hnan⟩
      split at h
      next => cases h
      next => cases h

theorem fp32Mag_of_inf {a : W32} {neg : Bool} (h : fp32 a = .inf neg) : a.msb = neg ∧ fp32Mag a = 0x7F800000 := by
  rw [fp32_eq] at h
  split at h
  next hinf =>
    cases h
    exact ⟨rfl, hinf⟩
  next =>
    split at h
    next => cases h
    next => split at h <;> cases h

/-- A finite code: the significand is the magnitude itself below 2^23 (zero and subnormal) and at least 2^23 above (normal). -/
theorem fp32Mag_of_fin {a : W32} {neg : Bool} {m : Nat} {e : Int} (h : fp32 a = .fin neg m e) :
    a.msb = neg ∧ fp32Mag a < 0x7F800000 ∧ (fp32Mag a < 2 ^ 23 ∧ m = fp32Mag a ∨ 2 ^ 23 ≤ fp32Mag a ∧ 2 ^ 23 ≤ m) := by
  rw [fp32_eq] at h
  split at h
  next => cases h
  next hinf =>
    split at h
    next => cases h
    next hnan =>
      split at h
      next hsub =>
        cases h
        exact ⟨rfl, by omega, .inl ⟨hsub, rfl⟩⟩
      next hnorm =>
        cases h
        exact ⟨rfl, by omega, .inr ⟨by omega, by omega⟩⟩

/-! ## FCLS: the bit of each class (08_compute R133) -/

theorem fcls32_eq (a : W32) : fcls32 a =
    if 0x7F800000 < fp32Mag a then 256
    else if fp32Mag a = 0x7F800000 then (if a.msb then 1 else 128)
    else if 0x800000 ≤ fp32Mag a then (if a.msb then 2 else 64)
    else if 0 < fp32Mag a then (if a.msb then 4 else 32)
    else if a.msb then 8 else 16 := by
  have hmag : a.toNat % 2 ^ 31 = fp32Mag a := rfl
  simp only [fcls32, hmag, natBit_sign]
  repeat' split
  all_goals rfl

theorem fcls32_of_nan {a : W32} (h : fp32 a = .nan) : fcls32 a = 256 := by
  rw [fcls32_eq, if_pos ((fp32_eq_nan_iff a).mp h)]

theorem fcls32_of_inf {a : W32} {neg : Bool} (h : fp32 a = .inf neg) : fcls32 a = if neg then 1 else 128 := by
  obtain ⟨hneg, hmag⟩ := fp32Mag_of_inf h
  rw [fcls32_eq, if_neg (by omega), if_pos hmag, hneg]

theorem fcls32_of_fin {a : W32} {neg : Bool} {m : Nat} {e : Int} (h : fp32 a = .fin neg m e) :
    fcls32 a = if m = 0 then (if neg then 8 else 16)
      else if m < 2 ^ 23 then (if neg then 4 else 32) else (if neg then 2 else 64) := by
  obtain ⟨hneg, hfin, hm⟩ := fp32Mag_of_fin h
  rw [fcls32_eq, if_neg (by omega), if_neg (by omega), hneg]
  obtain ⟨hsub, rfl⟩ | ⟨hnorm, hm⟩ := hm
  · rw [if_neg (by omega), if_pos hsub]
    by_cases hz : fp32Mag a = 0
    · rw [if_neg (by omega), if_pos hz]
    · rw [if_pos (by omega), if_neg hz]
  · rw [if_pos (show 0x800000 ≤ fp32Mag a from hnorm), if_neg (show m ≠ 0 by omega), if_neg (show ¬ m < 2 ^ 23 by omega)]

/-! ## FMIN and FMAX: the order of the codes that are no NaN (08_compute R131) -/

theorem Ext.lt_asymm {x y : Ext} (h : x.lt y = true) : y.lt x = false := by
  cases x with
  | nan => cases h
  | inf n =>
    cases n with
    | false => cases y <;> cases h
    | true =>
      cases y with
      | nan => cases h
      | inf n' =>
        cases n' with
        | false => rfl
        | true => cases h
      | fin n' m' e' => rfl
  | fin n m e =>
    cases y with
    | nan => cases h
    | inf n' =>
      cases n' with
      | false => rfl
      | true => cases h
    | fin n' m' e' =>
      simp only [Ext.lt, decide_eq_true_eq, decide_eq_false_iff_not, Int.min_comm e' e] at h ⊢
      omega

theorem Ext.ite_lt_comm {α : Type} (x y : Ext) (p q r : α) :
    (if x.lt y then p else if y.lt x then q else r) = if y.lt x then q else if x.lt y then p else r := by
  cases h : x.lt y with
  | true => simp [Ext.lt_asymm h]
  | false => rfl

/-- The strict order of FMIN and FMAX: by value, and −0 below +0. -/
def floatBelow (a b : W32) : Bool := (fp32 a).lt (fp32 b) || (!(fp32 b).lt (fp32 a) && a.msb && !b.msb)

theorem fminmax32_eq (mx : Bool) (a b : W32) : fminmax32 mx a b =
    if (fp32 a).isNan then (if (fp32 b).isNan then 0x7FC00000 else b)
    else if (fp32 b).isNan then a
    else if mx then (if floatBelow a b then b else a)
    else (if floatBelow b a then b else a) := by
  have hx : exact .fp32 a.toNat = fp32 a := rfl
  have hy : exact .fp32 b.toNat = fp32 b := rfl
  simp only [fminmax32, Fmt.minMax, hx, hy, Fmt.bits, Nat.reduceSub, natBit_sign, Fmt.nanCode, apply_ite (BitVec.ofNat 32),
    BitVec.ofNat_toNat, BitVec.setWidth_eq]
  cases (fp32 a).isNan <;> cases (fp32 b).isNan <;> rfl

/-- The choice by `floatBelow`, as a choice by value and between equal values by sign. -/
theorem ite_floatBelow (a b x y : W32) : (if floatBelow a b then x else y) =
    if (fp32 a).lt (fp32 b) then x else if (fp32 b).lt (fp32 a) then y else if a.msb && !b.msb then x else y := by
  cases hab : (fp32 a).lt (fp32 b) with
  | true => simp [floatBelow, hab]
  | false => cases hba : (fp32 b).lt (fp32 a) <;> simp [floatBelow, hab, hba]

end Sys2Proof.Machine

open Sys2Proof Sys2Proof.Machine Sys2Proof.Claims

/-- Settles O34: FMIN and FMAX choose by `floatBelow`, FCLS by the magnitude that `fp32_eq` gives the value of. -/
theorem floatOrderAndClass : Obligations.FloatOrderAndClass := by
  refine ⟨⟨?fmin, ?fmax, ?fcls⟩, fp32_eq_nan_iff, ?_, ?_, ?_⟩
  case fmin =>
    refine binary_performs exec_fmin fun a b => ?_
    rw [fminmax32_eq, ite_floatBelow b a, Ext.ite_lt_comm]
    rfl
  case fmax =>
    refine binary_performs exec_fmax fun a b => ?_
    rw [fminmax32_eq, ite_floatBelow a b]
    rfl
  case fcls =>
    refine unary_performs exec_fcls fun a => ?_
    cases h : fp32 a with
    | nan => exact fcls32_of_nan h
    | inf neg => exact fcls32_of_inf h
    | fin neg m e => exact fcls32_of_fin h
  · exact hasCode_of_enc (fun _ => rfl) (LaneBin.enc_op 0x24)
  · exact hasCode_of_enc (fun _ => rfl) (LaneBin.enc_op 0x25)
  · exact hasCode_of_enc (fun _ => rfl) (LaneUn.enc_op 0x27)
end

section
/-! PROOFS. GSHL, GSHR, GSAR, GDIVU and GREMU (08_compute R140, R142): a group word reads values that fit W bits, on which the
32-bit operation and the low half of the 64-bit one agree. -/

namespace Sys2Proof.Machine

open Sys2Proof.Claims

/-! ## The W-bit values of a group word (02_encoding R29) -/

theorem toNat_fitW (w : Bool) (v : W64) : (fitW w v).toNat = v.toNat % 2 ^ bitsOf w := by
  cases w with
  | true => exact (Nat.mod_eq_of_lt v.isLt).symm
  | false => simp [fitW, bitsOf]; omega

theorem fitW_lt (w : Bool) (v : W64) : (fitW w v).toNat < 2 ^ bitsOf w := by
  rw [toNat_fitW]
  exact Nat.mod_lt _ (Nat.two_pow_pos _)

theorem Taken.group_lt (k : Taken) (g : Group) (w : Bool) : (k.group g w).toNat < 2 ^ bitsOf w := by
  cases k with
  | reg n => exact fitW_lt w (g.reg n)
  | entry e =>
    cases e with
    | perThread vs =>
      have hle : 2 ^ 32 ≤ 2 ^ bitsOf w := by cases w <;> decide
      exact Nat.lt_of_lt_of_le (Nat.lt_of_le_of_lt (Nat.le_of_eq (BitVec.toNat_setWidth_of_le (by decide))) (vs.getD 0 0).isLt) hle
    | uniform v => exact fitW_lt w v
  | nothing => exact Nat.two_pow_pos _

theorem State.groupValues_lt (s : State) (w : GrpWord) (n : Nat) : (gv (s.groupValues w) n).toNat < 2 ^ bitsOf w.wide := by
  simp only [gv, State.groupValues, List.getD_eq_getElem?_getD, List.getElem?_map]
  cases (s.take (w.srcs.map (·.o))).1[n]? with
  | none => exact Nat.two_pow_pos _
  | some k => exact k.group_lt s.grp w.wide

/-- A two-source group word whose operation agrees with `op'` on W-bit values computes `op'`. -/
theorem groupBinary_performs {mk : GrpBin → Instr} {op op' : Bool → W64 → W64 → W64}
    (hexec : ∀ f s, exec (mk f) s = s.grpBin (mk f) f (op f.w))
    (hop : ∀ w a b, a.toNat < 2 ^ bitsOf w → b.toNat < 2 ^ bitsOf w → fitW w (op w a b) = fitW w (op' w a b)) :
    GroupBinary mk op' := by
  intro f s h
  have hvals := hop f.w _ _ (s.groupValues_lt (gbinWord s.grp f) 0) (s.groupValues_lt (gbinWord s.grp f) 1)
  rw [hexec, ← hvals]
  exact congrArg _ (State.groupWord_value s _ (gbinWord s.grp f) f.d
    (fun _ v => fitW f.w (op f.w (gv v 0) (gv v 1))) h)

/-! ## Shifts on W bits (08_compute R140) -/

theorem shiftLeft_eq {n : Nat} (x : BitVec n) (k : Nat) :
    shiftLeft x k = if n ≤ k then 0 else BitVec.ofNat n (x.toNat * 2 ^ k) := by
  rw [← Nat.shiftLeft_eq]
  rfl

theorem shiftRight_eq {n : Nat} (x : BitVec n) (k : Nat) :
    shiftRight x k = if n ≤ k then 0 else BitVec.ofNat n (x.toNat / 2 ^ k) := by
  rw [← Nat.shiftRight_eq_div_pow, ← BitVec.toNat_ushiftRight, BitVec.ofNat_toNat, BitVec.setWidth_eq]
  rfl

theorem shiftArith_eq {n : Nat} (x : BitVec n) (k : Nat) :
    shiftArith x k = if n ≤ k then (if x.toInt < 0 then BitVec.allOnes n else 0) else BitVec.ofInt n (x.toInt / 2 ^ k) := by
  rw [shiftArith, BitVec.sshiftRight_eq, Int.shiftRight_eq_div_pow]
  norm_cast

theorem toNat_truncate_32 {a : W64} (h : a.toNat < 2 ^ 32) : (a.truncate 32).toNat = a.toNat := by
  rw [BitVec.truncate_eq_setWidth, BitVec.toNat_setWidth, Nat.mod_eq_of_lt h]

theorem setWidth_ofInt_32 (i : Int) : (BitVec.ofInt 64 i).setWidth 32 = BitVec.ofInt 32 i := by
  apply BitVec.eq_of_toNat_eq
  simp
  omega

/-- A shift of the low 32 bits, as the value `v` whose low 32 bits are the shifted ones. -/
theorem fitW_shiftW_false {sh : {n : Nat} → BitVec n → Nat → BitVec n} {a b v : W64}
    (h : sh (a.truncate 32 : W32) b.toNat = v.setWidth 32) : fitW false (shiftW false sh a b) = fitW false v := by
  simp [fitW, shiftW, ← h]

theorem fitW_shiftLeft (w : Bool) (a b : W64) (ha : a.toNat < 2 ^ bitsOf w) : fitW w (shiftW w shiftLeft a b) =
    fitW w (if bitsOf w ≤ b.toNat then 0 else BitVec.ofNat 64 (a.toNat * 2 ^ b.toNat)) := by
  cases w with
  | true => exact congrArg _ (shiftLeft_eq a b.toNat)
  | false =>
    refine fitW_shiftW_false ?_
    rw [shiftLeft_eq, apply_ite (BitVec.setWidth 32), toNat_truncate_32 ha, BitVec.setWidth_ofNat_of_le (show 32 ≤ 64 by decide)]
    rfl

theorem fitW_shiftRight (w : Bool) (a b : W64) (ha : a.toNat < 2 ^ bitsOf w) : fitW w (shiftW w shiftRight a b) =
    fitW w (if bitsOf w ≤ b.toNat then 0 else BitVec.ofNat 64 (a.toNat / 2 ^ b.toNat)) := by
  cases w with
  | true => exact congrArg _ (shiftRight_eq a b.toNat)
  | false =>
    refine fitW_shiftW_false ?_
    rw [shiftRight_eq, apply_ite (BitVec.setWidth 32), toNat_truncate_32 ha, BitVec.setWidth_ofNat_of_le (show 32 ≤ 64 by decide)]
    rfl

theorem fitW_shiftArith (w : Bool) (a b : W64) : fitW w (shiftW w shiftArith a b) =
    fitW w (if bitsOf w ≤ b.toNat then (if signedW w a < 0 then BitVec.allOnes 64 else 0)
      else BitVec.ofInt 64 (signedW w a / 2 ^ b.toNat)) := by
  cases w with
  | true => exact congrArg _ (shiftArith_eq a b.toNat)
  | false =>
    refine fitW_shiftW_false ?_
    rw [shiftArith_eq, apply_ite (BitVec.setWidth 32), apply_ite (BitVec.setWidth 32), setWidth_ofInt_32]
    rfl

end Sys2Proof.Machine

open Sys2Proof Sys2Proof.Machine Sys2Proof.Claims

/-- Settles O35: each operation agrees with its arithmetic on values of W bits. -/
theorem groupShiftsAndDivisions : Obligations.GroupShiftsAndDivisions := by
  have hzero (b : W64) : b = 0 ↔ b.toNat = 0 := BitVec.toNat_eq
  refine ⟨?gshl, ?gshr, ?gsar, ?gdivu, ?gremu, ?_, ?_, ?_, ?_, ?_, ?decode⟩
  case gshl => exact groupBinary_performs (op := fun w => shiftW w shiftLeft) exec_gshl fun w a b ha _ => fitW_shiftLeft w a b ha
  case gshr => exact groupBinary_performs (op := fun w => shiftW w shiftRight) exec_gshr fun w a b ha _ => fitW_shiftRight w a b ha
  case gsar => exact groupBinary_performs (op := fun w => shiftW w shiftArith) exec_gsar fun w a b _ _ => fitW_shiftArith w a b
  case gdivu =>
    refine groupBinary_performs (op := fun _ a b => if b = 0 then BitVec.allOnes 64 else BitVec.ofNat 64 (a.toNat / b.toNat))
      exec_gdivu fun w a b _ _ => ?_
    simp only [hzero]
  case gremu =>
    refine groupBinary_performs (op := fun _ a b => if b = 0 then a else BitVec.ofNat 64 (a.toNat % b.toNat))
      exec_gremu fun w a b _ _ => ?_
    simp only [hzero, Nat.mod_eq_sub_mul_div]
  · exact hasCode_of_enc (fun _ => rfl) (GrpBin.enc_op 0x89)
  · exact hasCode_of_enc (fun _ => rfl) (GrpBin.enc_op 0x8A)
  · exact hasCode_of_enc (fun _ => rfl) (GrpBin.enc_op 0x8B)
  · exact hasCode_of_enc (fun _ => rfl) (GrpBin.enc_op 0x96)
  · exact hasCode_of_enc (fun _ => rfl) (GrpBin.enc_op 0x97)
  case decode => rfl
end
